-- ==== Sys2Proof/Word.lean ====
section
/-! DEFINITION. The word types of the YF7680: a byte, a 32-bit register, the halves of a 64-bit one (R7). -/

namespace Sys2Proof

/-- One byte of device, host or flash memory. -/
abbrev Byte := BitVec 8

/-- A 32-bit register of BAR0, the unit every register is built from (R482). -/
abbrev Word := BitVec 32

/-- A 64-bit register or field. -/
abbrev DWord := BitVec 64

end Sys2Proof
end

