-- ==== Sys2Proof/Syntax.lean ====
section
/-! DEFINITION. The commands of the block: one constructor per row of spec/opcode_table.json. A command
carries as operands what only the outside or the physics of the part decides (R8 of each chapter names
the inputs): register numbers, written values, packets, sensor readings, checks that failed. -/

namespace Sys2Proof

/-- A host-memory ring other than a submission ring (R273, R328, R331, R334). `w` is 0 for the
non-secure world and 1 for the secure world. -/
inductive RingId where
  | cq (c : Nat)
  | evq (w : Nat)
  | erq (w : Nat)
  | plog (w : Nat)
  | pbat (w : Nat)
  | dlog (w : Nat)
deriving DecidableEq, Repr

/-- A bit cell of a macro that has changed by itself (R52, R54, R56): its row, its bit-column and the value it now holds; `stuck` says
that it can hold no other. Columns 0 to 511 are the data, 512 to 527 the checksum, 528 to 535 the spares, 536 to 605 the
check words of the side array (R40). -/
structure CellUpset where
  row : Nat
  col : Nat
  value : Bool
  stuck : Bool
deriving DecidableEq, Repr

/-- A disturbance that lasts one attempt of an invocation (R53, R54): which attempt, which plane, and by how much it changes that
plane's check. -/
structure Transient where
  attempt : Nat
  plane : Nat
  change : Nat
deriving DecidableEq, Repr

/-- What the physics of a macro does to one invocation: cells that have changed, and passing disturbances (log entry 11). -/
structure InvOutcome where
  upsets : List CellUpset
  transients : List Transient
deriving DecidableEq, Repr

/-- What a check of a stored word found (R57, R248). -/
inductive CheckOutcome where
  | clean
  | correctable
  | uncorrectable
deriving DecidableEq, Repr

/-- What stands around the block when a descriptor is taken: the 64-byte lines of host memory that the host answers with an error or
with poison (R282), the units of HBM whose stored bits have changed since they were written, each with whether the change can no
longer be corrected (R246), the causeways whose bridges have retried a transfer since the last descriptor (R250), and the stacks
whose on-die ECC has reported an error since (R236). -/
structure Surroundings where
  hostBad : List Nat
  flips : List (Nat × Bool)
  bridgeRetries : List Nat
  eccReports : List Nat
deriving DecidableEq, Repr

/-- What the host writes when it enumerates the device (R260, R265, R269): the bases of the BARs and of the HDM decoder, and the function
mask of MSI-X. -/
structure Enumeration where
  bar0 : Nat
  bar2 : Nat
  bar4 : Nat
  hdmBase : Nat
  funcMask : Bool
deriving DecidableEq, Repr

/-- One temperature reading (R370): event KIND and INDEX of the sensor, degrees Celsius, and for a stack
its own upper limit. -/
structure Reading where
  kind : Nat
  index : Nat
  temp : Nat
  limit : Nat
deriving DecidableEq, Repr

/-- Activity of one governor tick (R375): the request whose step, kernel or transfer produced the counts, none for what serves no
request; the tread it happened in, 2 outside both; the eight counts of Table 3 in its order. -/
structure Activity where
  req : Option Nat
  tread : Nat
  counts : List Nat
deriving DecidableEq, Repr

/-- What a governor tick reads (R366, R367, R373, R375): the tick's activity; the bit products of ballast in each tread; the treads'
hottest sensors in °C; path-delay stretches; treads whose worst slack is below 5 %. -/
structure GovInput where
  acts : List Activity
  ballastA : Nat
  ballastB : Nat
  tempA : Nat
  tempB : Nat
  stretches : Nat
  slackLowA : Bool
  slackLowB : Bool
deriving DecidableEq, Repr

/-- The result of one unit under test (R442, R446): `result` as RESULT of R446, the repairs made, the
last signature, where a logic slice mismatched, which, and the scratchpad rows that a march found failing, by an offset in each (R445). -/
structure UnitResult where
  index : Nat
  result : Nat
  repairs : Nat
  signature : BitVec 64
  slice : Nat
  rows : List Nat
deriving DecidableEq, Repr

/-- The hello of a partner (R345). -/
structure Hello where
  part : Nat
  keyDigest : List Byte
  portsUp : Nat
  manager : Bool
  confirmed : Bool
  submanager : Bool
  device : Nat
  port : Nat
  gradeB : Bool
  chiplet : Nat
  feature : Nat
  incarnation : Nat
  txLatency : Nat
  rxLatency : Nat
  loss : Nat
  echo : Nat
deriving DecidableEq, Repr

/-- An attach as the manager sees or answers it (R341): the number (given on the attaching device, chosen by
the manager), parent and its port, the device's own port and the world of their link, depth, ring ports, and the facts of the hello. -/
structure Admit where
  number : Nat
  refused : Bool
  parent : Nat
  parentPort : Nat
  port : Nat
  secure : Bool
  depth : Nat
  ringPorts : Nat
  gradeB : Bool
  chiplet : Nat
  feature : Nat
  incarnation : Nat
deriving DecidableEq, Repr

/-- A packet that a flit completes and that is bound for another device (R342, R343): its source, the source's
incarnation, its destination, its virtual lane, its world or that a foreman generated it, and its bytes. -/
structure FwdPacket where
  src : Nat
  incarnation : Nat
  dst : Nat
  vl : Nat
  secure : Bool
  foreman : Bool
  bytes : List Byte
deriving DecidableEq, Repr

/-- A link between two devices as the manager's foreman knows it (R341, R342): the two ends, its world, and whether it joins parent and
child or crosses the tree. -/
structure IxLink where
  near : Nat
  nearPort : Nat
  far : Nat
  farPort : Nat
  secure : Bool
  tree : Bool
deriving DecidableEq, Repr

/-- What a map update carries (R342, R347, R348): the lost devices, the attached ones with their incarnations, the links; `cut` says that
its sender has lost its path to the manager (R349). -/
structure MapNews where
  lost : List Nat
  devices : List (Nat × Nat)
  links : List IxLink
  cut : Bool
deriving DecidableEq, Repr

/-- Why a member tells the others that an instance of a collective ends (R354, R355). -/
inductive CollStop where
  | none
  | mismatch
  | seam
  | terms
  | record
deriving DecidableEq, Repr

/-- A window packet header (R351 Table 7) without its KIND. -/
structure WinHdr where
  secure : Bool
  src : Nat
  dst : Nat
  window : Nat
  epoch : Nat
  incarnation : Nat
  offset : Nat
  len : Nat
  txn : Nat
deriving DecidableEq, Repr

/-- An open request as it reaches the target (R350). -/
structure OpenReq where
  src : Nat
  window : Nat
  epoch : Nat
  incarnation : Nat
  base : Nat
  size : Nat
  access : Nat
  secure : Bool
deriving DecidableEq, Repr

/-- The commands. Each constructor's operands are plain data; `req` is a request-table index. -/
inductive Instr where
  -- rings, fetch and acceptance
  | doorbell (off size : Nat) (value : DWord) (secure : Bool)
  | fetchTurn (bad : List Nat)
  | descriptorAccept (ring : Nat) (env : Surroundings)
  -- descriptors
  | run (req : Nat)
  | loadPass (req : Nat)
  | stagingComplete (req : Nat)
  | activationStart
  | activationDrained (lost : Option Nat)
  | activationComplete
  | dropPass (req : Nat)
  | save (req : Nat)
  | restore (req : Nat)
  | objectHold (req : Nat)
  | copy (req : Nat)
  | fill (req : Nat)
  | digest (req : Nat)
  | fence (req : Nat)
  | barrier (req : Nat)
  | windowOpen (req : Nat)
  | windowClose (req : Nat)
  | remoteCopy (req : Nat)
  | collective (req : Nat)
  | streamOpen (req : Nat)
  | streamClose (req : Nat)
  | keyframe (req : Nat)
  | test (req : Nat) (results : List UnitResult) (window : Option Nat)
  | nop (req : Nat)
  | descriptorCompletion (req : Nat)
  | msixCoalesceTimeout (ring : RingId)
  | msixUnmask (vector : Nat) (funcMask : Option Bool)
  | sqEnable (ring : Nat) (value : Word) (secure : Bool)
  | sqDisable (ring : Nat) (value : Word) (secure : Bool)
  | sqAbort (ring : Nat) (value : Word) (secure : Bool)
  | ringEnable (ring : RingId) (value : Word) (secure : Bool)
  | ringDisable (ring : RingId) (value : Word) (secure : Bool)
  | ringHeadWrite (ring : RingId) (value : Word) (secure : Bool)
  | errorHandle
  -- host link
  | hostSnoop (line : Nat)
  | recordWriteFault (ring : RingId) (back : Nat)
  | bar4Access (write : Bool) (addr len : Nat) (data : List Byte) (secure : Bool) (found : CheckOutcome)
  | cxlMemRequest (write : Bool) (hostAddr len : Nat) (data : List Byte) (found : CheckOutcome)
  | hlCoherentWrite (word : Nat) (value : Word)
  | coherentClearDone
  -- steps of a tile's list
  | cimDense (tile waits : Nat)
  | cimMatch (tile waits : Nat)
  | cimScatter (tile waits : Nat)
  | awlScan (tile waits cycles : Nat) (locked : List Nat)
  | shank (tile waits cycles : Nat)
  | toeheel (tile waits : Nat)
  | requant (tile waits : Nat)
  | compress (tile waits : Nat)
  | reduce (tile waits cycles : Nat)
  | scatterMerge (tile waits : Nat)
  | collect (tile waits : Nat)
  | waitRange (tile waits : Nat)
  | seam (tile waits : Nat)
  | endList (tile : Nat)
  | stepComplete (tile idx : Nat)
  -- macros, ledger, scatter
  | invocation (tile macroIdx : Nat) (outcome : InvOutcome)
  | workingSetSwap (tile macroIdx stalls : Nat)
  | remoteDrainArrival (tile stalls : Nat)
  | scatterContribution (tile stalls : Nat)
  | scrubRowRead (tile macroIdx : Nat) (upsets : List CellUpset)
  | scrubCorrection (tile macroIdx : Nat)
  | macroReload (tile macroIdx : Nat)
  | spillRotation (tile : Nat)
  | weightWindowWrite (addr : Nat) (data : List Byte) (secure : Bool) (req : Option Nat)
  | weightWindowRead (addr len : Nat) (secure : Bool) (req : Option Nat)
  | scratchpadAccess (write : Bool) (tile off len : Nat) (data : List Byte) (secure : Bool)
      (req : Option Nat) (found : List CheckOutcome) (waits : Nat)
  | markerArrival (tile : Nat)
  | circularRecordLanded (tile cq record : Nat)
  | scaleRecordComplete (req layer : Nat)
  | toeheelEntryStart (unit : Nat)
  | toeheelEntryDone (unit cycles : Nat)
  | chunkDeal (causeway : Nat)
  | digestChunk (req layer index : Nat)
  | batchClose (world : Nat)
  -- memory stacks
  | stackReady (stack : Nat) (ok : Bool)
  | stackFailed (stack : Nat)
  | patrolScrub (unitAddr : Nat) (found : CheckOutcome)
  | stackTempRead (stack temp : Nat)
  | memProtWrite (n : Nat) (value : DWord) (secure : Bool)
  | memProtDone (n : Nat)
  -- UCIe
  | laneError (module : Nat)
  | linkRetrain (modules halves replays : Nat)
  | moduleUp (module : Nat) (half : Bool) (rate : Nat)
  | linkDown
  | linkReady (modules halves rate failed : Nat) (partner : DWord) (cfg : Enumeration)
  | ideFault
  -- parking
  | park (value : Word) (secure : Bool)
  | unpark (value : Word) (secure : Bool)
  | parkComplete
  | parkStepTimeout
  | resumeFromPark
  -- power and temperature
  | governorTick (input : GovInput)
  | pwrCapWrite (value : Word)
  | railArrived (tread : Nat)
  | vrAlertAssert
  | vrAlertRelease
  | vrAlertHoldEnd
  | vrPark
  | thermalSensorRead (readings : List Reading)
  | thermalPowerOff
  | thermtrip
  | reconcile
  | divergenceDeclare
  | divergenceClear
  | coefficientRefit
  | telemWrite (rail : Nat) (power seq : Nat)
  | telemStale (rail : Nat)
  | capUnattainable
  | systemPowerAssign (reports : List (Nat × Nat × Bool))
  | assignmentReceived (watts : Nat)
  | assignmentTimeout
  -- time
  | ppsEdge (after : Nat)
  | ppsHoldover
  | msTimeSet (value : DWord) (secure : Bool)
  | refLost
  -- sleep
  | tileDoze (tile : Nat)
  | tileNap (tile : Nat)
  | tileWake (tile : Nat)
  | napBurstScrub (tile : Nat)
  | restEntry
  | deepEntry
  | packageWake (cause : Nat)
  | sleepWake (value : Word)
  -- EVT pins
  | evtEdge (pin : Nat) (rising : Bool) (after : Nat)
  | evtWindowEnd (pin : Nat)
  | evtStuck (pin : Nat)
  | evtUnstuck (pin : Nat)
  | evtOutPulse (pin : Nat)
  -- readiness, reset and boot
  | unitReady (kind index code : Nat)
  | powerOnTestBatch (tread batch : Nat) (failed badRouters : List Nat) (trim points : Nat)
  | bringupSettled
  | supplyFault (rail : Nat)
  | porst
  | porstRelease (role bootsrc : Nat) (refSwing warmHeld flashGood : Bool)
  | warmrst
  | vddAonLoss
  | secureBootComplete (badFuses : List Nat)
  -- mailboxes
  | getReport (world : Nat) (arg : Word) (secure : Bool)
  | getCert (world : Nat) (arg : Word) (secure : Bool)
  | recover (world : Nat) (arg : Word) (secure : Bool)
  | update (world : Nat) (arg : Word) (secure flashOk : Bool)
  | setupWrite (world : Nat) (arg : Word) (secure flashOk : Bool)
  | transfer (world : Nat) (arg : Word) (secure : Bool)
  | logRead (world : Nat) (arg : Word) (secure : Bool)
  | repairList (world : Nat) (arg : Word) (secure : Bool)
  | repairCommit (world : Nat) (arg : Word) (secure windowOk : Bool)
  | retire (world : Nat) (arg : Word) (secure windowOk : Bool)
  -- regions and worlds
  | regionWrite (n : Nat) (value : DWord) (secure : Bool)
  | regionChangeDone
  | worldMapWrite (word : Nat) (value : Word) (secure : Bool)
  | worldChangeApply (block : Nat)
  -- self-test, moves, software faults
  | lbistSlice (kind index : Nat) (forced : Bool)
  | lbistResult (kind index : Nat) (ok : Bool)
  | tileMove (tile : Nat) (checks : List Bool)
  | swFault (code : Word) (secure : Bool)
  -- Irxia
  | ixRoleConfirm (value : Word) (secure : Bool)
  | signalDetect (port : Nat)
  | portTrained (port iface loss : Nat) (lanes : List Nat)
  | hello (port : Nat) (h : Hello)
  | mapAdmit (port : Nat) (a : Admit)
  | flitReceived (port : Nat) (bytes : List Byte) (corrected : Nat) (fecOk : Bool) (fwd : List FwdPacket)
  | replayReq (port seq : Nat)
  | heartbeatSend (port : Nat)
  | partnerLost (port : Nat)
  | lossNotice (lost : List Nat)
  | mapUpdate (port : Nat) (news : MapNews)
  | timeSend (port : Nat)
  | timePacket (port stamp : Nat)
  | windowOpenRequest (o : OpenReq) (portSecure : Bool)
  | windowWritePacket (h : WinHdr) (data : List Byte) (portSecure : Bool)
  | readReq (h : WinHdr) (portSecure : Bool)
  | readData (h : WinHdr) (data : List Byte) (portSecure : Bool)
  | windowAnswer (h : WinHdr) (ack portSecure : Bool)
  | closeNotice (peer window epoch : Nat) (fromIssuer : Bool)
  | collectiveChunk (group inst rank chunk : Nat) (kind len : Nat) (data : List Byte) (stop : CollStop)
  | barrierArrival (group inst member barrierId : Nat) (secure : Bool)
  | groupWrite (group word : Nat) (value : Word)
  | mapPartitionWrite (device : Nat) (value : DWord)
  | partitionDelivery (value : DWord)
  -- registers and pins
  | snapAddrWrite (w : Nat) (value : DWord) (secure : Bool)
  | registerWrite (off size : Nat) (value : DWord) (secure i3c : Bool)
  | i3cIbiAck (byte : Nat)
  | jtagInstruction (code : Nat)
  | warmrstRelease
  | windowNoticeAnswer (window epoch : Nat) (ok : Bool) (status : Nat)
  | barrierCompleteNotice (group inst : Nat) (mismatch : Bool)
  | evtOutPulseEnd (pin : Nat)
  | stacksSelfRefreshReturn
  | mailboxCommandDone (world : Nat)
  | signerTreeRebuilt
  | registerReadLatch (off : Nat) (secure i3c : Bool)
  | doeRequest (object : List Byte)
  | maintenanceWindowTimeout (req index kind : Nat)
deriving DecidableEq, Repr

end Sys2Proof
end

