-- ==== Sys2Proof/Decode.lean ====
section
/-! DEFINITION. The command a word spells. The block has no instruction encoding: no row of the operation table
gives bits, so no word spells a command. -/

namespace Sys2Proof

/-- The command that `nbits` bits with the value `w` spell by the operation table: none, because no row of the
table has bits (log entry 3). -/
def decodeTableWord (nbits w : Nat) : Option Instr :=
  match nbits, w with
  | _, _ => none

end Sys2Proof
end

