-- ==== Sys2Proof/Config.lean ====
section
/-! DEFINITION. The free values: what the spec leaves open while the part goes on. Each is an opaque
constant, so that a theorem about it holds whatever it is. None has a body. -/

namespace Sys2Proof

/-- A byte whose content the spec calls undefined (R8, R490), drawn by the counter `State.free`
(DESIGN CHOICE, log entry 12). -/
opaque Config.freeByte : Nat → Byte

/-- The element functions of R210 within their error bounds: selector of Table 7 and FP32 operand
(DESIGN CHOICE, log entry 10: the spec bounds the result and says that every unit gives the same bits). -/
opaque Config.elementFn : Nat → Word → Word

/-- What stands in TOPK's output for a selected element (R203 names the selection and no output form): parameter block, canonical index,
element, and the whole vector where it holds a NaN, whose order nothing gives (DESIGN CHOICE, log entry 10). -/
opaque Config.topkOut : List Byte → Nat → Nat → List Nat → Nat

/-- The FP32 scores of NMS's candidates in canonical order, and its output from their order: parameter block and input bytes (R203 names
suppression and its ties, no formula; DESIGN CHOICE, log entry 10). -/
opaque Config.nmsScores : List Byte → List Byte → List Nat
opaque Config.nmsOut : List Byte → List Byte → List Nat → List Byte

/-- BOX_DECODE (R203 Table 3), and any kernel without a block: parameter block and input bytes give the output bytes. The
spec names the work and no formula (DESIGN CHOICE, log entry 10). -/
opaque Config.kernelFn : Nat → List Byte → List Byte → List Byte

/-- The XMSS^MT signature of the identity key, whose secret is fused (R426; DESIGN CHOICE, log entry 9):
index and message. -/
opaque Config.identitySign : Nat → List Byte → List Byte

/-- Whether the signature made with an index fails its check before its release (R429; a free value, log entry 9). -/
opaque Config.signatureFails : Nat → Bool

/-- Whether an XMSS signature verifies (R417; DESIGN CHOICE, log entry 9): public key, message, signature. -/
opaque Config.xmssVerify : List Byte → List Byte → List Byte → Bool

/-- Width and height of the tensor that a window function of the shank and toe-heel units reads, by step: no field gives
them (R203, R211; DESIGN CHOICE, log entry 10). -/
opaque Config.windowShape : Nat → Nat × Nat

/-- PIXFMT, width and height of the source frame of a RUN that names no stream, by its pass digest and its INPUT_LEN, which are of the
inputs that determine its results (R320): the stream's context gives them and there is none (R204, R207; DESIGN CHOICE, log entry 10). -/
opaque Config.pixelShape : List Byte → Nat → Nat × Nat × Nat

/-- The pattern of a float result the spec does not state (the maximum of numbers and a NaN, or of no number): format code
and operands (R200, R211; DESIGN CHOICE, log entry 10). -/
opaque Config.freeMax : Nat → List Nat → Nat

/-- An integer of a format (code of R203 Table 4) from an FP32 pattern with no value in it: a NaN, an infinity or a number
out of range (R200 says nothing of it; DESIGN CHOICE, log entry 10). -/
opaque Config.freeConvert : Nat → Nat → Nat

/-- A port's own transmit and receive latency, in ns (R345; DESIGN CHOICE, log entry 10: the spec says that the hello carries
it and gives no figure). -/
opaque Config.portLatency : Nat → Nat × Nat

/-- The cable estimate of R345 where its formula divides by zero or gives a negative length (DESIGN CHOICE, log entry 10). -/
opaque Config.freeCable : Nat → Nat

/-- By how much a discipline changes the rate word, before the bound of 50 ppm (R349, R384; DESIGN CHOICE, log entry 10: the
spec bounds the change and gives no law). -/
opaque Config.slew : Nat → Nat

/-- The signer's public key, the XMSS signature and the rest of the record that it signs, of a set-up record (R424): the header's field
offsets beyond MAGIC and VERSION are not stated (DESIGN CHOICE, log entry 9). -/
opaque Config.setupKey : List Byte → List Byte
opaque Config.setupSig : List Byte → List Byte
opaque Config.setupRest : List Byte → List Byte

/-- LENGTH of a set-up record: the bytes it takes (R424; DESIGN CHOICE, log entry 9). -/
opaque Config.setupSpan : List Byte → Nat

/-- The eight reserved areas a set-up record gives, base and size (R424; DESIGN CHOICE, log entry 9). -/
opaque Config.setupAreas : List Byte → List (Nat × Nat)

/-- Word `k` of the world map a set-up record gives, numbered as the security block lays the words out from +0x100 (R424, R433;
DESIGN CHOICE, log entry 9). -/
opaque Config.setupMap : List Byte → Nat → Nat

/-- The region entries a set-up record gives (R424; DESIGN CHOICE, log entry 9). -/
opaque Config.setupRegions : List Byte → List Nat

/-- Whether an identity certificate verifies under the fused vendor digest and binds the device's identity (R427; DESIGN CHOICE,
log entry 9). -/
opaque Config.certGood : List Byte → List Byte → Bool

/-- The length of the identity certificate in flash (R427; DESIGN CHOICE, log entry 9). -/
opaque Config.certSpan : List Byte → Nat

/-- The public keys of a transfer, of the key in force and of the new owner, and their signatures over the new owner digest (R425;
DESIGN CHOICE, log entry 9: the request's layout beyond its first item is not stated, and the device holds digests of keys). -/
opaque Config.transferKeys : List Byte → List Byte × List Byte
opaque Config.transferSigs : List Byte → List Byte × List Byte

/-- Kind (as event KIND) and index of the unit a RETIRE request names, an engine as Eng.causeway numbers it (R451; DESIGN CHOICE, log
entry 9: the request's layout is not stated). -/
opaque Config.retireTarget : List Byte → Nat × Nat

/-- The JEP106 identity and the version in the test port's IDCODE (R473 gives the part number alone; DESIGN CHOICE, log entry 58). -/
opaque Config.idcode : Nat × Nat

/-- The answer to a DOE object (R431), from the object, the SPDM key and the attestation report of a certificate chain: the standards
CDAT, SPDM and IDE_KM decide it (DESIGN CHOICE, log entry 9). -/
opaque Config.doeAnswer : List Byte → List Byte → List Byte → List Byte

/-- Whether a DOE object asks for the certificate chain, and whether it installs IDE keys (R431; DESIGN CHOICE, log entry 9). -/
opaque Config.doeWantsChain : List Byte → Bool
opaque Config.doeInstallsKeys : List Byte → Bool

/-- The SPDM key pair the device generates at a PORST_N (R431), by the epoch of its boot (DESIGN CHOICE, log entry 9). -/
opaque Config.spdmKey : Nat → List Byte

/-- A choice the spec leaves open, by its number: the place in an arrival order (R89, R212), the digest engine taken (R251, R330). -/
opaque Config.freeWord : Nat → Word

/-- The fixed pattern of the self-check invocation that follows the writing of a macro (R67): the 16 bits it drives on a row and, for the
check of R65, on a weight (DESIGN CHOICE, log entry 10: the spec gives no pattern). -/
opaque Config.selfCheckRow : Nat → Nat
opaque Config.selfCheckCol : Nat → Nat

/-- The coefficients that least squares gives over ticks' counts and measured power in 0.1 W (R376): the spec gives neither the rounding nor
what it does where the counts do not fix a coefficient (DESIGN CHOICE, log entry 10). -/
opaque Config.refitCoeff : List (List Nat × Nat) → List Nat

/-- The bytes staging counts for a pixel reference, by generation (R151, R152): the frame's size belongs to a stream
and the spec does not say what a generation's size takes for it (DESIGN CHOICE, log entry 10). -/
opaque Config.pixelNeed : Nat → Nat

/-- The power of a core rail by the device's own current sensor, in 0.1 W: rail and time (R375: it stands in for a rail that the board
controller has not written; DESIGN CHOICE, log entry 11). -/
opaque Config.railSensor : Nat → Nat → Nat

/-- The 16 payload bytes of an event whose chapter lists the items and no layout (R55, R58, R115, R191, R194, R195): event code
and items (DESIGN CHOICE, log entry 10). -/
opaque Config.packEvent : Nat → List Nat → List Byte

/-- The bytes of an Irxia packet whose layout the spec does not give (R337, R345 to R349, R354 to R359): what it is, and its items. It fills
32 bytes, as the header of R351 does (DESIGN CHOICE, log entry 33). -/
opaque Config.packPacket : List Nat → List Byte

/-- The number an error record gives the check that failed (R436 PASS_IMAGE and EYELET): the spec names the item
and no code. The argument is the check's place in this model's order (DESIGN CHOICE, log entry 10). -/
opaque Config.checkCode : Nat → Nat

end Sys2Proof
end

