-- ==== Sys2Proof/Machine/Bits.lean ====
section
/-! DEFINITION. Bits and bytes: little-endian fields (R7), bit ranges, two's complement, rounding helpers. -/

namespace Sys2Proof.Machine

/-- The number that bytes spell, least significant first (R7). -/
def leNat : List Byte → Nat
  | [] => 0
  | b :: r => b.toNat + 256 * leNat r

/-- The low `n` bytes of a number, least significant first (R7). -/
def natLe : Nat → Nat → List Byte
  | 0, _ => []
  | n + 1, v => BitVec.ofNat 8 v :: natLe n (v / 256)

/-- The bits [lo + n - 1 : lo] of a number (R7). -/
def bitsAt (v lo n : Nat) : Nat := v / 2 ^ lo % 2 ^ n

/-- `v` with its bits [lo + n - 1 : lo] replaced by `x`. -/
def putBits (v lo n x : Nat) : Nat := v - bitsAt v lo n * 2 ^ lo + x % 2 ^ n * 2 ^ lo

/-- `v` with bit `i` set or cleared. -/
def putBit (v i : Nat) (b : Bool) : Nat := putBits v i 1 b.toNat

/-- The two's complement reading of the low `n` bits. -/
def signedOf (n v : Nat) : Int :=
  let u := v % 2 ^ n
  if 2 * u < 2 ^ n then (u : Int) else (u : Int) - 2 ^ n

/-- The `n`-bit two's complement pattern of a number. -/
def twos (n : Nat) (x : Int) : Nat := (x % 2 ^ n).toNat

/-- A number held within two limits. -/
def clampNat (lo hi x : Nat) : Nat := max lo (min hi x)

/-- A number held within two limits. -/
def clampInt (lo hi x : Int) : Int := max lo (min hi x)

/-- The fields of `n` bytes at offset `off` of a byte string, read as a number; bytes beyond its end read
as zero. -/
def fieldAt (bs : List Byte) (off n : Nat) : Nat := leNat ((bs.drop off).take n)

/-- A byte string cut or filled with zeros to `n` bytes. -/
def padTo (n : Nat) (bs : List Byte) : List Byte := bs.take n ++ List.replicate (n - bs.length) 0

/-- A byte string with the bytes at `off` replaced; it is filled with zeros up to `off` if it is shorter. -/
def overlay (bs : List Byte) (off : Nat) (new : List Byte) : List Byte :=
  padTo off bs ++ new ++ bs.drop (off + new.length)

/-- Whether every byte is zero. -/
def allZero (bs : List Byte) : Bool := bs.all (fun b => b == 0)

/-- The pieces of at most `n` elements a list is cut into, in order. -/
def chunksOf {α : Type} (n : Nat) (bs : List α) : List (List α) :=
  (List.range ((bs.length + n - 1) / n)).map (fun i => (bs.drop (i * n)).take n)

/-- The smallest multiple of `n` that is at least `x`. -/
def roundUp (n x : Nat) : Nat := (x + n - 1) / n * n

/-- The numbers whose bits are set among the low `n` bits of `v`, rising. -/
def setBits (n v : Nat) : List Nat := (List.range n).filter (fun i => v.testBit i)

/-- The number whose set bits are those listed, each counted once. -/
def ofSetBits (l : List Nat) : Nat := l.eraseDups.foldl (fun v i => v + 2 ^ i) 0

/-- How many bits a number has: the position of its top bit plus one, 0 for zero. -/
def bitLength (v : Nat) : Nat := if v = 0 then 0 else v.log2 + 1

/-- A sum of numbers. -/
def sumNat (l : List Nat) : Nat := l.foldl (· + ·) 0

/-- A sum of integers. -/
def sumInt (l : List Int) : Int := l.foldl (· + ·) 0

/-- Division of an integer by a positive number, rounded half to even. -/
def divRoundEven (x : Int) (d : Nat) : Int :=
  let q := x / (d : Int)
  let r := 2 * (x % (d : Int))
  if r < d then q else if r > d then q + 1 else if q % 2 = 0 then q else q + 1

end Sys2Proof.Machine
end

