-- ==== Sys2Proof/Machine/State.lean ====
section
/-! DEFINITION. The state of the YF7680 as plain data (INVENTORY.md lists every piece with its rule), the
faults and refusals, and the state at reset. BAR0 registers have one home, `State.regs`, keyed by
BAR0 offset; what is no register stands in the structures below, one per chapter of the spec. -/

namespace Sys2Proof.Machine

/-- A sparse byte memory: address and byte, addresses strictly rising, no entry equal to what an unlisted
address reads as. -/
abbrev Memory := List Host.Cell

/-- The registers of BAR0 (R482): offset of a 32-bit word and its value, offsets strictly rising, no
entry equal to the offset's reset word. -/
abbrev RegFile := List (Nat × Word)

/-- A sparse table keyed by a number, keys strictly rising. -/
abbrev Tbl (α : Type) := List (Nat × α)

/-- The faults. The part never stops on a command: a refused action ends in a status or a tally (R8).
The one fault of the model is that of `Refusal`'s sibling type being inhabited. -/
inductive Fault where
  /-- Raised by no command: the spec gives every refusal a status or a tally (R8). Safe. -/
  | none
deriving DecidableEq, Repr

/-- The refusals. -/
inductive Refusal where
  /-- A command that has no meaning yet, rejected by name. Safe. -/
  | notModelled (mnemonic : String)
deriving DecidableEq, Repr

/-- STATUS of a descriptor (R293 Table 8). -/
inductive Status where
  | ok | okPredicted | okCorrelation
  | faultSeam | faultWindowClosed | faultBankOff | faultNotReady | faultWorld | faultPartnerLost
  | faultPassGeneration | faultVaryNotAllowed | faultDescriptor
  | faultUncorrected | faultDevice
  | aborted
deriving DecidableEq, Repr

/-- REASON of an error record (R436 Table 3). -/
inductive Reason where
  | doorbell | descriptor | passImage | seam | terms | record | eyelet | tags | tag | range | pixel
  | stream | world | bankOff | uncorrected | window | partner | notReady | vary | abort | park | mismatch
  | generation | testWindow | retiredUnit
  | macCorrected | macUnverified | genLock | spCorrected | memCorrected | poisoned | ageing | spRow
  | lbistRetry | role | layout | strap | setup | epochLow | fusesFull | recordLost
  | macroRetired | tileRetired | thRetired | engineRetired | noSpare | moduleDown | software
  | stackFailed | linkDown | vrPark | supply | refLost | internal
deriving DecidableEq, Repr

/-- How far an accepted descriptor has come (R280, R281). -/
inductive ReqPhase where
  | accepted   -- taken into the request table, not started
  | running    -- started
  | stopping   -- a RUN aborted inside a step: it issues nothing more and ends at the next step boundary of each tile (R294)
  | finished   -- every effect visible or the end decided; the final record is to be written
deriving DecidableEq, Repr

/-- One entry of the request table (R242 area 1, R278): the descriptor, its binding and its progress. For a RUN: `keepKey` says that KEY_PENDING
was set again since its acceptance (R174, R176), `moved` that it is still to move its stream (R175), `driftCfg` is REQ_DRIFT_CFG as it stood at
its frame boundary (R116), `after` says that an earlier frame's fault has dealt with the frames behind it (R176), `guards` lists the guard
entries its audits and misses stand in, uncompared, with both counts (R191); `fromGen` is the generation its stream leaves (R175); `units` lists
the units a TEST covers (R445), `lost` is when it lost its maintenance window and the rail that did so (R444); `stop` is the refusal that a
REMOTE_COPY has learned of while earlier packets are unanswered: status, address, how many bytes lie below (R490); by LAYER, `layerDone` counts
the steps completed, `rqDone` the REQUANT steps and the tile of the last, `scaleDone` lists the complete scale records (R110), `mags` holds the
magnitude so far (R109), `scaleTile` the tile that last updated the record (R117), `corrTiles` lists the tiles that ran it with a correlation
substitute (R195), and `awlCounts` audited groups and misses (R191); `dealt` counts the chunks dealt of a LAYER (R145). -/
structure Request where
  ring : Nat
  cq : Nat
  num : Nat
  order : Nat
  desc : List Byte
  phase : ReqPhase
  status : Status
  held : Bool
  pos : Nat
  total : Nat
  lastMile : Option Nat
  mileMarks : Nat
  gen : Nat
  stream : Option Nat
  frame : Nat
  key : Bool
  tilesLeft : List Nat
  stepsDone : Nat
  skipped : Nat
  audited : Nat
  misses : Nat
  corrTiles : List Nat
  varied : Bool
  digested : Bool
  digestA : List Byte
  digestB : List Byte
  layers : List (Nat × List Byte)
  energy : Nat
  reconciled : Bool
  epoch : Nat
  awlDef : Nat
  wrote : Bool
  aux : Nat
  keepKey : Bool
  moved : Bool
  driftCfg : Nat
  after : Bool
  guards : List (Nat × Nat × Nat)
  layerDone : List (Nat × Nat)
  rqDone : List (Nat × Nat × Nat)
  scaleDone : List Nat
  mags : List (Nat × Nat)
  awlCounts : List (Nat × Nat × Nat)
  dealt : List (Nat × Nat)
  scaleTile : List (Nat × Nat)
  fromGen : Nat
  units : List (Nat × Nat)
  stop : Option (Status × Nat × Nat)
  lost : Option (Nat × Nat)
deriving DecidableEq, Repr

/-- A descriptor fetched and not yet accepted (R278): ring, number, bytes, and whether the host answered
its read with an error or poison. -/
structure Fetched where
  ring : Nat
  num : Nat
  bytes : List Byte
  bad : Bool
deriving DecidableEq, Repr

/-- The pending signalled records of one ring (R292): how many, and when the first became pending. -/
structure Coal where
  ring : RingId
  count : Nat
  since : Nat
deriving DecidableEq, Repr

/-- The rings' state that no register holds (R278, R292, R295): `evWait` holds the events raised and not yet
written while the link is down, by world. -/
structure Rings where
  fetched : List Fetched
  rrLast : Nat
  coal : List Coal
  orderNext : Nat
  evWait : List (Nat × List Byte)
deriving DecidableEq, Repr

/-- The last record write of a ring, which the host may still answer with an error (R267): ring, the TAIL it took, where, and
the bytes that stood there. -/
structure RecWrite where
  ring : RingId
  tail : Nat
  addr : Nat
  old : List Byte
deriving DecidableEq, Repr

/-- An access of the host to HBM, through BAR4 or CXL.mem (R262, R265), that waits for a range to open (R416, R247) or for the wake
from Deep (R391); or, with `door`, a write of BAR2 that waits behind such a write (R268), its address the offset in BAR2. -/
structure HostAccess where
  cxl : Bool
  write : Bool
  door : Bool
  addr : Nat
  len : Nat
  data : List Byte
  secure : Bool
  found : CheckOutcome
deriving DecidableEq, Repr

/-- The capabilities of the configuration space (R259 Table 2). -/
inductive Capability where
  | pciExpress
  | msix
  | cxlDevice
  | registerLocator
  | doe
deriving DecidableEq, Repr

/-- A BAR (R260 Table 3), 64 bits wide: its size, whether it is prefetchable, and its base. -/
structure Bar where
  size : Nat
  prefetchable : Bool
  base : Nat
deriving DecidableEq, Repr

/-- The configuration space of the one function (R258 to R260). -/
structure ConfigSpace where
  vendor : Nat
  device : Nat
  classCode : Nat
  subsystem : Nat
  caps : List Capability
  bar0 : Bar
  bar2 : Bar
  bar4 : Bar
deriving DecidableEq, Repr

/-- The configuration space before the fuses are read. -/
def ConfigSpace.initial : ConfigSpace where
  vendor := 0
  device := 0x7680
  classCode := 0x120000
  subsystem := 0
  caps := [.pciExpress, .msix, .cxlDevice, .registerLocator, .doe]
  bar0 := { size := 2 ^ 26, prefetchable := false, base := 0 }
  bar2 := { size := 2 ^ 25, prefetchable := false, base := 0 }
  bar4 := { size := 2 ^ 40, prefetchable := true, base := 0 }

/-- The host link's state that no register holds (R254 to R270): `cohClearing` lists the units whose HL_COHERENT bit is being cleared,
`hdmBase` is the host address the HDM decoder maps to device address 0, `laneErrs` lists the modules with a lane error not yet
repaired. -/
structure HostLink where
  enumerated : Bool
  up : Bool
  funcMask : Bool
  ideKeys : Bool
  recWrites : List RecWrite
  cohClearing : List Nat
  hdmBase : Nat
  cfg : ConfigSpace
  waiting : List HostAccess
  laneErrs : List Nat
  retrainWanted : Bool
deriving DecidableEq, Repr

/-- A section of a pass image (R22 Table 4). -/
structure Section where
  typ : Nat
  sflags : Nat
  tile : Nat
  index : Nat
  offset : Nat
  length : Nat
  digest : List Byte
deriving DecidableEq, Repr

/-- What staging finds in an image (R24, R26, R151, R165, R325). -/
structure PassInfo where
  gen : Nat
  flags : Nat
  awlLen : Nat
  batch : Nat
  feature : Nat
  length : Nat
  seed : List Byte
  passDigest : List Byte
  programDigest : List Byte
  weightsDigest : List Byte
  tileUse : List Nat
  rotating : List Nat
  sections : List Section
  vary : Bool
  reach : List Nat
  pixel : Bool
  need : Nat
  vergeNeed : Nat
  base : Nat
  secure : Bool
deriving DecidableEq, Repr

/-- Where an activation stands (R27). -/
inductive ActPhase where
  | waiting
  | draining
  | written
deriving DecidableEq, Repr

/-- One pending activation (R27, R39). -/
structure Activation where
  req : Nat
  gen : Nat
  slot : Nat
  phase : ActPhase
deriving DecidableEq, Repr

/-- State of one physical tile (R14, R19, R448). -/
inductive PhysState where
  | untested
  | passed
  | failed
  | retired
deriving DecidableEq, Repr

/-- A LOAD_PASS that waits for a slot (R24): request, generation, length of its image, world. -/
structure SlotWait where
  req : Nat
  gen : Nat
  len : Nat
  secure : Bool
deriving DecidableEq, Repr

/-- Passes, generations and the tile map (R14 to R39). Physical tile n of a tread is row n/32, column n
mod 32; its index in the table is tread*544 + n. `slotWait` lists the LOAD_PASSes that wait for a slot in the order they began to,
`slotHeld` the requests that hold a freed slot whose image has not been read yet, with the slot (R24). -/
structure Passes where
  slots : Tbl PassInfo
  slotWait : List SlotWait
  slotHeld : List (Nat × Nat)
  lastGen : Nat
  pending : List Activation
  superseded : List Nat
  tileMap : Tbl Nat
  phys : Tbl PhysState
  badRouters : List Nat
  batchesDone : List (Nat × Nat)
  srKey : DWord
  auditKey : DWord
deriving DecidableEq, Repr

/-- An issued unfinished step (R226, R227). `next` counts positions, elements, records or rows done,
`finished` says that its work is done and only STEP_COMPLETE is left. -/
structure RStep where
  idx : Nat
  req : Nat
  word : BitVec 256
  next : Nat
  aux : Nat
  finished : Bool
deriving DecidableEq, Repr

/-- One scoreboard entry (R226): bytes lo to hi-1 of the tile's own scratchpad. -/
structure SbEntry where
  step : Nat
  req : Nat
  lo : Nat
  hi : Nat
  reads : Bool
  writes : Bool
deriving DecidableEq, Repr

/-- One arrival entry (R228). -/
structure Arrival where
  region : Nat
  req : Nat
  count : Nat
deriving DecidableEq, Repr

/-- One record slot of a circular region in write order (R230): whose request, and whether its bytes have
landed. -/
structure CircRec where
  cq : Nat
  num : Nat
  req : Nat
  landed : Bool
deriving DecidableEq, Repr

/-- One valid ledger entry (R74). -/
structure LedgerEntry where
  value : BitVec 80
  tag : Nat
deriving DecidableEq, Repr

/-- One open slot of a ledger range (R74, R78): region, slot index, position, request, TERMS, final drains
received, and its first entry and size. -/
structure Slot where
  region : Nat
  index : Nat
  position : Nat
  req : Nat
  terms : Nat
  finals : Nat
  imported : Bool
  first : Nat
  size : Nat
deriving DecidableEq, Repr

/-- One entry of the scatter accumulator (R163). `used` orders the ways for the eviction. -/
structure ScatEntry where
  set : Nat
  position : Nat
  group : Nat
  tag : Nat
  count : Nat
  used : Nat
  sums : List Int
deriving DecidableEq, Repr

/-- One pending verge record (R165 Table 3), whose 272 bytes stand at `place` of the tile's share of the verge. -/
structure VergeRec where
  place : Nat
  position : Nat
  group : Nat
  layer : Nat
  req : Nat
  tag : Nat
  sums : List Int
deriving DecidableEq, Repr

/-- A chunk queued at a balance-group member (R144, R145): request, LAYER, chunk number, the positions
(ordinal in the segment) whose blocks it carries, first and last canonical block. -/
structure Chunk where
  req : Nat
  layer : Nat
  num : Nat
  firstBlock : Nat
  blocks : Nat
  values : Nat
deriving DecidableEq, Repr

/-- Sleep state of a tile (R387, R388). -/
inductive TileSleep where
  | awake
  | doze
  | nap
deriving DecidableEq, Repr

/-- An access to a scratchpad over the mesh that waits while its range is closed (R416), as SCRATCHPAD_ACCESS gives it. -/
structure SpAccess where
  write : Bool
  tile : Nat
  off : Nat
  len : Nat
  data : List Byte
  secure : Bool
  req : Option Nat
  found : List CheckOutcome
deriving DecidableEq, Repr

/-- What one tile holds beside its registers, its scratchpad bytes and its macros' cells. `rotation` is 0 for the
tile's own WEIGHTS and r + 1 for rotation r (R30); `pc` is the place of the request in front of `queue`,
`batchPc` that of the batch members it has put aside, `rotReady` lists those whose flagged step may issue; `doneRuns` gives the
time and TAG of the RUNs completed here that some macro's scrub pass has not followed yet (R59); `memberTerms` gives the TERMS of a
balance-group step by request and step, position (R145); `moveDue` says that the record of its retirement has been handled (R438),
`gapLast` when it last stood at a frame gap, and `forced` that its present round of slices has been forced (R443). -/
structure Tile where
  steps : List (BitVec 256)
  plan : List (BitVec 128)
  pattern : List Word
  scales : List DWord
  awlStore : List Byte
  held : List Section
  dirty : Bool
  rotation : Nat
  batchPc : List (Nat × Nat)
  rotReady : List Nat
  curTag : Nat
  queue : List Nat
  pc : Nat
  running : List RStep
  sb : List SbEntry
  arrivals : List Arrival
  circ : List CircRec
  ledger : Tbl LedgerEntry
  slots : List Slot
  consumed : List (Nat × Nat × Nat)
  scat : List ScatEntry
  scatOwner : Option (Nat × Nat)
  scatClock : Nat
  verge : List VergeRec
  tags : List (Nat × Nat)
  chunks : List Chunk
  memberTerms : List ((Nat × Nat) × Nat × Nat)
  sleep : TileSleep
  sleepSince : Nat
  badUnits : List Nat
  rowErrs : List (Nat × Nat)
  rowSpares : List (Nat × Nat)
  slices : Nat
  testing : Bool
  retired : Bool
  moveDue : Bool
  lastStep : Nat
  gapLast : Nat
  forced : Bool
  parked : Bool
  doneRuns : List (Nat × Nat)
deriving DecidableEq, Repr

/-- A bit cell that can hold one value only (R54), of a physical tile (numbered as in Passes): macro, row and bit-column, the columns
as CellUpset numbers them. -/
structure StuckCell where
  phys : Nat
  unit : Nat
  row : Nat
  col : Nat
  value : Bool
deriving DecidableEq, Repr

/-- What a macro stores of a row beside its data bits: the checksum word C_i of the 16 checksum columns (R51), and the check words of
the side array (R56), word k of the data at bit 8·k, that of the checksum word at bit 64. -/
structure RowCheck where
  sum : Nat
  ecc : Nat
deriving DecidableEq, Repr

/-- What a macro keeps of an output: the column checksum word K_j (R65), the bound word Pos(j) and how many rows hold a non-zero
weight, whose being 0 is the zero-weight flag (R60). -/
structure ColWords where
  k : Nat
  pos : Nat
  nonzero : Nat
deriving DecidableEq, Repr

/-- An input vector in the insole buffer (R49): the request, step, position and vector it is of, and the elements with a level. -/
structure HeldVec where
  req : Nat
  idx : Nat
  position : Nat
  vec : Nat
  values : List (Nat × Int)
deriving DecidableEq, Repr

/-- What one macro holds beside its data cells, which are the bytes of its CIM weight window (R42): `rows` and `cols` are its checksum columns,
its side array and the words of its outputs, written for the held width code and signedness (R492). `position` and `inv` place its next
invocation in its step; `insole` holds its input vectors, two at most (R49); `shadowAt` is the position its shadow set drains to, for the step
`shadowIdx` of `shadowReq` with the record `shadowWord` (R86); `tagKey` names the region its tag memory was loaded from (start, end, image) while
that region has not been written since (R137); `spares` lists the columns its spare columns have taken over, in the spares' order; `corr` lists
the rows whose scrub correction is pending (R58). -/
structure Macro where
  wcode : Nat
  wsigned : Bool
  rows : Tbl RowCheck
  cols : Tbl ColWords
  insole : List HeldVec
  work : List Int
  workTag : Nat
  workReq : Nat
  count : Nat
  shadow : List Int
  shadowTag : Nat
  shadowAt : Nat
  shadowFinal : Bool
  shadowTerms : Nat
  shadowReq : Nat
  shadowIdx : Nat
  shadowWord : BitVec 256
  step : Option Nat
  position : Nat
  inv : Nat
  swapDue : Bool
  finalDue : Bool
  termsK : Nat
  spares : List Nat
  scrubRow : Nat
  scrubStart : Nat
  corr : List Nat
  passCorr : Nat
  reload : Bool
  tagMem : List Word
  tagKey : Option (Nat × Nat × Nat)
  rowsDone : List Nat
deriving DecidableEq, Repr

/-- A drain on its way to a ledger range of another tile (R77): its values, tag, the LAYER of its step, request with its place in the order of
acceptance, and whether it is the final drain of its position. -/
structure Drain where
  src : Nat
  dst : Nat
  region : Nat
  layer : Nat
  position : Nat
  block : Nat
  slice : Nat
  terms : Nat
  tag : Nat
  req : Nat
  ord : Nat
  final : Bool
  values : List Int
deriving DecidableEq, Repr

/-- A contribution on its way to a scatter accumulator (R162, R163). -/
structure Contribution where
  dst : Nat
  req : Nat
  ord : Nat
  layer : Nat
  position : Nat
  group : Nat
  tag : Nat
  limit : Nat
  sums : List Int
deriving DecidableEq, Repr

/-- A marker on its way (R228). -/
structure Marker where
  dst : Nat
  region : Nat
  req : Nat
  ord : Nat
deriving DecidableEq, Repr

/-- The traffic on the mesh (R77, R162, R228); `held` lists the markers that wait at their sender, with its tile (R493), `accesses` the accesses
that wait for a closed range (R416). -/
structure Mesh where
  drains : List Drain
  contribs : List Contribution
  markers : List Marker
  held : List (Nat × Marker)
  accesses : List SpAccess
deriving DecidableEq, Repr

/-- One entry of a toe-heel queue (R202). -/
structure ThEntry where
  tile : Nat
  idx : Nat
  req : Nat
  word : BitVec 256
deriving DecidableEq, Repr

/-- One toe-heel unit (R199, R207): its queue, the entry it runs, the frames bound to it, their changed maps as the changed
pixels, and the bytes read of their INPUT, which is read once (R329). -/
structure ThUnit where
  queue : List ThEntry
  running : Option ThEntry
  frames : List Nat
  changed : List (Nat × List Nat)
  source : List (Nat × List Byte)
  slices : Nat
  tested : Nat
deriving DecidableEq, Repr

/-- A layer digest being formed (R327): the engine it is bound to (64 times the causeway plus its number, R251), rows hashed in
order and rows waiting in the reorder buffer. -/
structure DigestRun where
  engine : Nat
  req : Nat
  layer : Nat
  form : Nat
  widthCode : Nat
  width : Nat
  channels : Nat
  next : Nat
  message : List Byte
  waiting : List (Nat × List Byte)
  chunks : List (Nat × List Byte)
  total : Nat
deriving DecidableEq, Repr

/-- A closed batch (R334). `sig` is none until the signer has answered; an empty signature marks UNSIGNED. -/
structure Batch where
  index : Nat
  firstSeq : Nat
  leaves : List (List Byte)
  opened : Nat
  closed : Nat
  early : Bool
  sig : Option (List Byte)
deriving DecidableEq, Repr

/-- Audit state of one world (R330 to R334): `interval` is INTERVAL in ms as it stood at the last close (R333); the last `unbatched` leaves
of the buffer have yet to join a batch (R334). -/
structure AuditWorld where
  seq : Nat
  buffer : List (List Byte)
  unbatched : Nat
  openLeaves : List (List Byte)
  openedAt : Nat
  lastClose : Nat
  interval : Nat
  nextBatch : Nat
  waiting : List Batch
deriving DecidableEq, Repr

/-- Digests and audit (R327 to R334). -/
structure Audit where
  digests : List DigestRun
  ns : AuditWorld
  sec : AuditWorld
deriving DecidableEq, Repr

/-- An error record in the queue or on die (R435). -/
structure ErrRec where
  reason : Reason
  preempted : Bool
  nested : Bool
  kind : Nat
  index : Nat
  time : Nat
  seq : Nat
  status : Nat
  tag : Nat
  ring : Nat
  layer : Nat
  stream : Nat
  address : Nat
  detail0 : Nat
  detail1 : Nat
  related : Nat
  world : Nat
  handled : Bool
deriving DecidableEq, Repr

/-- One repair entry (R451 Table 6). -/
structure Repair where
  kind : Nat
  tread : Nat
  phys : Nat
  unit : Nat
  line : Nat
  spare : Nat
  time : Nat
deriving DecidableEq, Repr

/-- The error queue and what stays on die (R437 to R440, R447). `underTest` lists the units whose self-test slice runs: kind, index,
and whether it runs again after a mismatch (R442); `engineTested` is when each engine last passed (R443). -/
structure Errors where
  queue : List ErrRec
  handling : List ErrRec
  onDieNs : List ErrRec
  onDieS : List ErrRec
  overflow : List ErrRec
  seqNs : Nat
  seqS : Nat
  repairs : List Repair
  retiredEngines : List (Nat × Nat)
  thRetired : List Nat
  underTest : List (Nat × Nat × Bool)
  engineTested : Tbl Nat
deriving DecidableEq, Repr

/-- What the junction keeps on die of a request that a halting park ended (R317): the time it ended, and the leaf it is still to form (R330). -/
structure HaltRec where
  ring : Nat
  cq : Nat
  tag : Nat
  status : Nat
  irq : Bool
  time : Nat
  leaf : Option (List Byte)
deriving DecidableEq, Repr

/-- Parking (R313 to R317): when it began, whether the compute rails are idle (R315), the tiles whose park records hold their state, and the
on-die copies of a halting park that have not been written yet. -/
structure Park where
  since : Nat
  railsIdle : Bool
  records : List Nat
  onDie : List HaltRec
deriving DecidableEq, Repr

/-- What a window packet awaits (R351, R353): transaction, window, epoch, write or read, length, request and its place in the order of
acceptance, the pointer to the local bytes. -/
structure Txn where
  txn : Nat
  window : Nat
  epoch : Nat
  write : Bool
  len : Nat
  req : Nat
  order : Nat
  local_ : Nat
deriving DecidableEq, Repr

/-- An inbound window entry (R350, R352). -/
structure Inbound where
  src : Nat
  window : Nat
  epoch : Nat
  incarnation : Nat
  base : Nat
  size : Nat
  access : Nat
  secure : Bool
  opened : Bool
deriving DecidableEq, Repr

/-- A group instance (R354 to R357): its number, KIND and LENGTH or, of a barrier, BARRIER_ID in `kind`; members joined, first
arrival; the local request; the bytes received (of a barrier, 1 where its members disagree); FP32 sums of the BF16 kind by
element; how many contributions each chunk has met. -/
structure GroupInst where
  group : Nat
  number : Nat
  isBarrier : Bool
  kind : Nat
  len : Nat
  joined : List Nat
  firstAt : Nat
  req : Option Nat
  done : Nat
  acc : Tbl Nat
  got : Tbl Nat
deriving DecidableEq, Repr

/-- A chunk of a collective that has come before this member joined the instance (R354): group, instance, rank of its contributor,
chunk, KIND, LENGTH, bytes, and what the packet ends. -/
structure EarlyChunk where
  group : Nat
  inst : Nat
  rank : Nat
  chunk : Nat
  kind : Nat
  len : Nat
  data : List Byte
  stop : CollStop
deriving DecidableEq, Repr

/-- A window packet that waits while its range is closed (R416), with the world of the port it came by. -/
inductive HeldPkt where
  | write (h : WinHdr) (data : List Byte) (portSecure : Bool)
  | readReq (h : WinHdr) (portSecure : Bool)
  | readData (h : WinHdr) (data : List Byte) (portSecure : Bool)
deriving DecidableEq, Repr

/-- One port's state that no register holds (R337 to R347): the flits its replay buffer holds by sequence number, and by lane
the packet bytes that wait for credits. -/
structure IxPort where
  rxSeq : Nat
  txSeq : Nat
  replay : List (Nat × List Byte)
  txWait : List (List Byte)
  rtts : List Nat
  partner : Option Hello
  trainedAt : Nat
  lastFlit : Nat
  lastBeat : Nat
deriving DecidableEq, Repr

/-- Irxia (R336 to R359): `uplink` is the port towards the manager, `lost` the devices the last map update names lost,
`closeAnswered` the slots whose close notice the target has answered. `links` and `devices` are the links of the system and the attached
devices as the manager's foreman has last told them (on the manager: as it knows them; R342), `cut` says that the path to the manager is
broken further up (R349), `lastNumber` is the highest device number given (R341), `early` the chunks that came before their instance was
joined, `held` the window packets that wait. -/
structure Irxia where
  ports : Tbl IxPort
  uplink : Option Nat
  lost : List Nat
  inbound : List Inbound
  txns : List Txn
  txnNext : Nat
  closeAnswered : List Nat
  fwdHeld : List FwdPacket
  insts : List GroupInst
  instCount : List (Nat × Nat)
  incarnations : Tbl Nat
  pace : List (Nat × Nat)
  timeGood : Nat
  links : List IxLink
  devices : List Nat
  cut : Bool
  lastNumber : Nat
  early : List EarlyChunk
  held : List HeldPkt
deriving DecidableEq, Repr

/-- Thermal state (R370 Table 4). -/
inductive Therm where
  | normal
  | throttled
  | hardLimit
  | powerOff
deriving DecidableEq, Repr

/-- Power and temperature (R361 to R378). Watts unless the name says otherwise: rails in mV, `wantA` and `wantB` the operating point and
duty chosen, `trimSet` the treads whose trim the power-on test has set, `overSince` and `withinSince` since when P has been above or within
the limit. Of the last 100 governor ticks `tickUj` holds r · E_model in µJ and `tickMeas` the measured power in 0.1 W; of the last ten
`recent` holds the dynamic power of each tread at OP7 and full duty and the power outside them, in 10^-14 W. `eModel` and `eMeas` are the
energies of both in µJ since `reconSince`; `apartSince` and `agreeSince` say since when the averages have differed by more than 20 % or agreed
within 10 %, `reqIdle` since when no request has been in flight. `sureA` and `sureB` are what a rail is certain to have while it may still
be on its way down (R363), `askedA` and `askedB` the points the last voltage requests were for (R373), `tempA` and `tempB` the treads'
hottest sensors and `hot` the sensor that last stood highest (R370); `fits` holds the counts and the measured power of the last 102,400
ticks (R376), `atLimit` says of the last 1,000 whether the limit held the device, and `lastReport` when it last reported (R378). -/
structure Power where
  ceiling : Nat
  therm : Therm
  hardSince : Nat
  thermLast : Nat
  railA : Nat
  railB : Nat
  wantA : Nat × Nat
  wantB : Nat × Nat
  vrForced : Bool
  vrHold : Option Nat
  floor : Bool
  floorGroup : Nat
  capEpisode : Bool
  overSince : Option Nat
  withinSince : Option Nat
  refitDue : Bool
  lastAssign : Nat
  coeff : List Nat
  telemTime : List (Nat × Nat)
  estimate : Nat
  tickUj : List Nat
  tickMeas : List Nat
  recent : List (Nat × Nat × Nat)
  eModel : Nat
  eMeas : Nat
  reconSince : Nat
  apartSince : Option Nat
  agreeSince : Option Nat
  reqIdle : Option Nat
  haveR : Bool
  trimSet : List Nat
  sureA : Nat
  sureB : Nat
  askedA : Option Nat
  askedB : Option Nat
  tempA : Nat
  tempB : Nat
  hot : Option Reading
  fits : List (List Nat × Nat)
  atLimit : List Bool
  lastReport : Nat
deriving DecidableEq, Repr

/-- Package sleep state (R387, R389). -/
inductive PkgSleep where
  | awake
  | rest
  | deep
deriving DecidableEq, Repr

/-- One EVT_IN pin (R392 to R395). -/
structure EvtPin where
  level : Bool
  levelSince : Nat
  latched : Bool
  lastEdge : Option Nat
  overruns : List Nat
  lastOverrun : Option Nat
  deepEdge : Bool
deriving DecidableEq, Repr

/-- How an access that waits in Deep was made (R391): a write of a BAR, one over I3C, a read of BAR0, a write of the function mask, a DOE object. -/
inductive HeldKind where
  | bar0
  | bar2
  | bar4
  | i3c
  | read (i3c : Bool)
  | config
  | doe
deriving DecidableEq, Repr

/-- An access that waits for the end of Deep, in its order (R391). -/
structure HeldAccess where
  kind : HeldKind
  addr : Nat
  data : List Byte
  secure : Bool
deriving DecidableEq, Repr

/-- Sleep and EVT pins (R388 to R396). -/
structure Sleep where
  pkg : PkgSleep
  since : Nat
  idleSince : Nat
  stacksWoken : Option Nat
  deepWrites : List HeldAccess
  pins : Tbl EvtPin
  outHigh : List Nat
  outStart : List (Nat × Nat)
  outPulses : List (Nat × Nat)
deriving DecidableEq, Repr

/-- Milestone time (R382 to R385). -/
structure Clock where
  ns : Nat
  frac : Nat
  rate : Nat
  warmCount : Nat
  incarnation : Nat
  ppsLast : Nat
  ppsGood : Nat
  refOk : Bool
  fastStopped : Bool
deriving DecidableEq, Repr

/-- The fuses (R2, R14, R417, R419, R428, R451): `epochsBad` are the epoch fuses that read neither clean nor burned. -/
structure Fuses where
  gradeB : Bool
  chipletIndex : Nat
  code0 : Nat
  code1 : Nat
  serial : Nat
  vendor : Nat
  dieRev : Nat
  vendorDigest : List Byte
  owners : List (List Byte)
  svnMin : Nat
  epochsBurned : Nat
  epochsBad : List Nat
  identity : List Byte
  repairs : List Repair
  badTiles : List Nat
deriving DecidableEq, Repr

/-- Pins and their latches (R456, R463 to R473). -/
structure Pins where
  porstLow : Bool
  warmLow : Bool
  warmHeld : Bool
  vrLow : Bool
  vrSince : Nat
  thermtrip : Bool
  pwrOff : Bool
  role : Nat
  bootsrc : Nat
  flashGood : Bool
  refIsClock : Bool
  jtag : Nat
  live : Bool
  ibi : List Nat
deriving DecidableEq, Repr

/-- Bring-up stage (R399, R421, R422). -/
inductive BootStage where
  | inReset
  | beforeBoot
  | recovery
  | failedBoot
  | booted
deriving DecidableEq, Repr

/-- A region entry being changed (R416). -/
structure RegionChange where
  n : Nat
  old : DWord
  new : DWord
deriving DecidableEq, Repr

/-- A mailbox command in progress (R432). -/
structure Mailbox where
  world : Nat
  command : Nat
  arg : Nat
  result : Nat
  response : List Byte
deriving DecidableEq, Repr

/-- Boot, worlds and keys (R407 to R432): `burned` says that this power cycle's epoch fuse is burned, `noEpoch` that every one is
(R428, R429); `signQueue` lists the signatures that wait for the signer, 0 and 1 for a batch of that world, 2 and 3 for
a report of world 0 and 1 (R429). -/
structure Security where
  stage : BootStage
  fromRecovery : Bool
  fwDigest : List Byte
  svn : Nat
  feature : Nat
  setup : List Byte
  setupDefault : Bool
  certBad : Bool
  sigC : Nat
  sigEpoch : Nat
  treeReady : Bool
  burned : Bool
  noEpoch : Bool
  wantMap : List (Nat × Bool)
  change : List RegionChange
  mbox : List Mailbox
  p384 : List Byte
  recoverImage : List Byte
  signQueue : List Nat
deriving DecidableEq, Repr

/-- A write of a set-up register that a mover's line has made (R482): it takes effect before the command ends. -/
structure RegWrite where
  off : Nat
  size : Nat
  value : Nat
  secure : Bool
deriving DecidableEq, Repr

/-- HBM state that no register holds (R237, R246 to R248, R390). `ctxCache` lists the streams whose contexts the
causeways cache, most recently used first (R150). `flips` lists the units whose stored bits have changed and which no read has met
yet, with whether the change is uncorrectable; `eccReports` counts the reports of each stack's on-die ECC (R236). -/
structure Hbm where
  ctxCache : List Nat
  poison : List Nat
  flips : List (Nat × Bool)
  eccReports : Tbl Nat
  patrolSeen : List (Nat × Nat)
  usableFixed : Bool
  prevStacks : Nat
deriving DecidableEq, Repr

/-- The hello a device sends (R2, R345 Table 5): ID_PART, ID_GRADE (grade and host chiplet code), the firmware feature level, the digest
of the identity key, the role bits, the ports up, the sending port, the incarnation, the fixed latencies and the loss. -/
structure OwnHello where
  part : Nat
  grade : Nat
  feature : Nat
  keyDigest : List Byte
  role : Nat
  portsUp : Nat
  port : Nat
  incarnation : Nat
  txLatency : Nat
  rxLatency : Nat
  loss : Nat
deriving DecidableEq, Repr

/-- What the device has sent (the model's own record of its outputs). An item of Irxia says what a packet holds as it is handed to its
lane: its bytes then leave in flits as credits allow (`IxPort.txWait`, `IxPort.replay`). -/
inductive Out where
  | msix (vector : Nat)
  | snoopAnswer (line : Nat) (bytes : List Byte)
  | backInvalidate (line : Nat)
  | bar4Read (addr : Nat) (bytes : List Byte)
  | bar4Unsupported (addr : Nat)
  | bar4Poison (addr : Nat)
  | cxlRead (addr : Nat) (bytes : List Byte) (poison : Bool)
  | windowRead (addr : Nat) (bytes : List Byte)
  | scratchRead (addr : Nat) (bytes : List Byte)
  | ibi (byte : Nat)
  | doe (object : List Byte)
  | openRequest (peer window epoch base size access : Nat) (secure : Bool)
  | openAnswer (peer window epoch status : Nat)
  | closeNotice (peer window epoch : Nat)
  | closeAnswer (peer window epoch : Nat)
  | packet (kind : Nat) (hdr : WinHdr) (data : List Byte)
  | replayRequest (port seq : Nat)
  | replayed (port seq : Nat)
  | hello (h : OwnHello)
  | heartbeat (port echo : Nat)
  | lossNotice (lost : List Nat)
  | mapUpdate (news : MapNews)
  | attachAnswer (device : Nat) (refused : Bool)
  | time (port stamp : Nat)
  | barrierArrive (group inst barrierId : Nat)
  | barrierDone (group inst : Nat)
  | mismatch (group inst : Nat)
  | collStop (group inst : Nat) (stop : CollStop)
  | groupWrite (group word value : Nat)
  | collectiveChunk (group inst chunk : Nat) (data : List Byte)
  | partition (device : Nat) (value : DWord)
  | assignment (device watts : Nat)
  | powerReport (watts : Nat) (limited : Bool)
  | idcode (value : Nat)
  | evtPulse (pin : Nat)
  | retrainRequest
  | forwarded (port src : Nat)
  | delivered (port vl : Nat) (payload : List Byte)
  | idleFlit (port : Nat) (flit : List Byte)
deriving DecidableEq, Repr

/-- The state of the block and the queue of waiting commands, first in first out. -/
structure State where
  regs : RegFile
  latches : List (Nat × Nat × Word)
  holds : Tbl Word
  mem : Memory
  host : Memory
  hostBad : List Nat
  regWrites : List RegWrite
  flash : Memory
  clock : Clock
  fuses : Fuses
  pins : Pins
  hbm : Hbm
  link : HostLink
  rings : Rings
  reqs : Tbl Request
  passes : Passes
  tiles : Tbl Tile
  macros : Tbl Macro
  stuck : List StuckCell
  mesh : Mesh
  th : Tbl ThUnit
  audit : Audit
  errs : Errors
  park : Park
  ix : Irxia
  power : Power
  sleep : Sleep
  sec : Security
  out : List Out
  free : Nat
  pending : List Instr
deriving DecidableEq, Repr

/-- A tile that holds nothing (DESIGN CHOICE, log entry 5). -/
def Tile.empty : Tile where
  steps := []
  plan := []
  pattern := []
  scales := []
  awlStore := []
  held := []
  dirty := false
  rotation := 0
  batchPc := []
  rotReady := []
  curTag := 0
  queue := []
  pc := 0
  running := []
  sb := []
  arrivals := []
  circ := []
  ledger := []
  slots := []
  consumed := []
  scat := []
  scatOwner := none
  scatClock := 0
  verge := []
  tags := []
  chunks := []
  memberTerms := []
  sleep := .awake
  sleepSince := 0
  badUnits := []
  rowErrs := []
  rowSpares := []
  slices := 0
  testing := false
  retired := false
  moveDue := false
  lastStep := 0
  gapLast := 0
  forced := false
  parked := false
  doneRuns := []

/-- A macro nothing has used: WCODE 3 with WSIGNED set, as R492 gives a macro that no step names. -/
def Macro.empty : Macro where
  wcode := 3
  wsigned := true
  rows := []
  cols := []
  insole := []
  work := []
  workTag := 0
  workReq := 0
  count := 0
  shadow := []
  shadowTag := 0
  shadowAt := 0
  shadowFinal := false
  shadowTerms := 0
  shadowReq := 0
  shadowIdx := 0
  shadowWord := 0
  step := none
  position := 0
  inv := 0
  swapDue := false
  finalDue := false
  termsK := 0
  spares := []
  scrubRow := 0
  scrubStart := 0
  corr := []
  passCorr := 0
  reload := false
  tagMem := []
  tagKey := none
  rowsDone := []

/-- A toe-heel unit with nothing queued. -/
def ThUnit.empty : ThUnit where
  queue := []
  running := none
  frames := []
  changed := []
  source := []
  slices := 0
  tested := 0

/-- A world's audit state with the logs disabled. -/
def AuditWorld.empty : AuditWorld where
  seq := 0
  buffer := []
  unbatched := 0
  openLeaves := []
  openedAt := 0
  lastClose := 0
  interval := 100
  nextBatch := 0
  waiting := []

/-- An Irxia port that nothing has reached. -/
def IxPort.empty : IxPort where
  rxSeq := 0
  txSeq := 0
  replay := []
  txWait := []
  rtts := []
  partner := none
  trainedAt := 0
  lastFlit := 0
  lastBeat := 0

/-- An EVT_IN pin at rest. -/
def EvtPin.empty : EvtPin where
  level := false
  levelSince := 0
  latched := false
  lastEdge := none
  overruns := []
  lastOverrun := none
  deepEdge := false

/-- The error queue with nothing in it. -/
def Errors.empty : Errors where
  queue := []
  handling := []
  onDieNs := []
  onDieS := []
  overflow := []
  seqNs := 0
  seqS := 0
  repairs := []
  retiredEngines := []
  thRetired := []
  underTest := []
  engineTested := []

/-- Irxia with no port up. -/
def Irxia.empty : Irxia where
  ports := []
  uplink := none
  lost := []
  inbound := []
  txns := []
  txnNext := 0
  closeAnswered := []
  fwdHeld := []
  insts := []
  instCount := []
  incarnations := []
  pace := []
  timeGood := 0
  links := []
  devices := []
  cut := false
  lastNumber := 0
  early := []
  held := []

/-- Power at reset: rails at 0.810 V (R458), no ceiling below 3,000 W, factory coefficients of R375 in the
order of Table 3, in units of 10^-19 J. -/
def Power.initial : Power where
  ceiling := 3000
  therm := .normal
  hardSince := 0
  thermLast := 0
  railA := 810
  railB := 810
  wantA := (0, 1)
  wantB := (0, 1)
  vrForced := false
  vrHold := none
  floor := false
  floorGroup := 0
  capEpisode := false
  overSince := none
  withinSince := none
  refitDue := false
  lastAssign := 0
  coeff := [3125, 4000000, 500000, 40000, 30000000, 4000000, 200000000, 13000000000, 750000000000000, 3100000000000000]
  telemTime := []
  estimate := 0
  tickUj := []
  tickMeas := []
  recent := []
  eModel := 0
  eMeas := 0
  reconSince := 0
  apartSince := none
  agreeSince := none
  reqIdle := none
  haveR := false
  trimSet := []
  sureA := 810
  sureB := 810
  askedA := none
  askedB := none
  tempA := 60
  tempB := 60
  hot := none
  fits := []
  atLimit := []
  lastReport := 0

/-- No sleep, no EVT activity. -/
def Sleep.initial : Sleep where
  pkg := .awake
  since := 0
  idleSince := 0
  stacksWoken := none
  deepWrites := []
  pins := []
  outHigh := []
  outStart := []
  outPulses := []

/-- Time at 0 with the nominal rate word of 40 ns (R383, R399). -/
def Clock.initial : Clock where
  ns := 0
  frac := 0
  rate := 40 * 4294967296
  warmCount := 0
  incarnation := 0
  ppsLast := 0
  ppsGood := 0
  refOk := true
  fastStopped := false

/-- The secure controller before secure boot. -/
def Security.initial : Security where
  stage := .inReset
  fromRecovery := false
  fwDigest := []
  svn := 0
  feature := 0
  setup := []
  setupDefault := false
  certBad := false
  sigC := 0
  sigEpoch := 0
  treeReady := false
  burned := false
  noEpoch := false
  wantMap := []
  change := []
  mbox := []
  p384 := []
  recoverImage := []
  signQueue := []

/-- The machine right after reset (R463, R488): every register at its Reset value, nothing listed in any
memory, no request, no pass, PORST_N still low and bring-up not begun. What the spec gives no reset value stands at the value
log entries 4, 5, 6 and 7 name. -/
def State.reset : State where
  regs := []
  latches := []
  holds := []
  mem := []
  host := []
  hostBad := []
  regWrites := []
  flash := []
  clock := Clock.initial
  fuses :=
    { gradeB := false, chipletIndex := 0, code0 := 0, code1 := 0, serial := 0, vendor := 0, dieRev := 0,
      vendorDigest := [], owners := [], svnMin := 0, epochsBurned := 0, epochsBad := [], identity := [], repairs := [],
      badTiles := [] }
  pins :=
    { porstLow := true, warmLow := false, warmHeld := false, vrLow := false, vrSince := 0,
      thermtrip := false, pwrOff := false, role := 0, bootsrc := 0, flashGood := false, refIsClock := false, jtag := 0,
      live := false, ibi := [] }
  hbm := { ctxCache := [], poison := [], flips := [], eccReports := [], patrolSeen := [], usableFixed := false, prevStacks := 0 }
  link :=
    { enumerated := false, up := false, funcMask := false, ideKeys := false, recWrites := [],
      cohClearing := [], hdmBase := 0, cfg := ConfigSpace.initial, waiting := [], laneErrs := [], retrainWanted := false }
  rings := { fetched := [], rrLast := 0, coal := [], orderNext := 0, evWait := [] }
  reqs := []
  passes :=
    { slots := [], slotWait := [], slotHeld := [], lastGen := 0, pending := [], superseded := [], tileMap := [], phys := [],
      badRouters := [], batchesDone := [], srKey := 0, auditKey := 0 }
  tiles := []
  macros := []
  stuck := []
  mesh := { drains := [], contribs := [], markers := [], held := [], accesses := [] }
  th := []
  audit := { digests := [], ns := AuditWorld.empty, sec := AuditWorld.empty }
  errs := Errors.empty
  park := { since := 0, railsIdle := false, records := [], onDie := [] }
  ix := Irxia.empty
  power := Power.initial
  sleep := Sleep.initial
  sec := Security.initial
  out := []
  free := 0
  pending := []

end Sys2Proof.Machine
end

