-- ==== Sys2Proof/Machine/Tables.lean ====
section
/-! DEFINITION. Sparse tables: a list of (key, value) with keys strictly rising and no entry equal to what an
unlisted key reads as, so that equal tables are equal lists. Memories, registers and tables of units are
all of this form. -/

namespace Sys2Proof.Machine

/-- The value under a key; what an unlisted key reads as is `d`. -/
def sget {α : Type} (d : Nat → α) : List (Nat × α) → Nat → α
  | [], k => d k
  | (a, v) :: r, k => if a = k then v else sget d r k

/-- The table without the key. -/
def sdel {α : Type} (l : List (Nat × α)) (k : Nat) : List (Nat × α) := l.filter (fun e => e.1 != k)

/-- The table with the value placed at its key in rising order. -/
def sins {α : Type} (k : Nat) (v : α) : List (Nat × α) → List (Nat × α)
  | [] => [(k, v)]
  | (a, w) :: r => if k < a then (k, v) :: (a, w) :: r else if k = a then (k, v) :: r else (a, w) :: sins k v r

/-- The table with a value under a key; writing what an unlisted key reads as removes the entry. -/
def sput {α : Type} [DecidableEq α] (d : Nat → α) (l : List (Nat × α)) (k : Nat) (v : α) : List (Nat × α) :=
  if v = d k then sdel l k else sins k v l

/-- The canonical form: keys strictly rising and no entry equal to its default. -/
def swf {α : Type} [DecidableEq α] (d : Nat → α) : List (Nat × α) → Bool
  | [] => true
  | (a, v) :: r => decide (v ≠ d a) && r.all (fun e => decide (a < e.1)) && swf d r

/-- The value under a key of a table whose unlisted keys hold nothing. -/
def tget {α : Type} (l : List (Nat × α)) (k : Nat) : Option α :=
  match l with
  | [] => none
  | (a, v) :: r => if a = k then some v else tget r k

/-- What an unlisted byte of device or host memory reads as (DESIGN CHOICE, log entry 6). -/
def zeroByte (_ : Nat) : Byte := 0

/-- What an unlisted byte of the boot flash reads as: erased NOR flash (DESIGN CHOICE, log entry 6). -/
def erasedByte (_ : Nat) : Byte := 0xFF

/-- The canonical form of a memory whose unlisted bytes read as zero. -/
def Memory.wf (m : List Host.Cell) : Bool := swf zeroByte m

/-- `n` bytes from an address. -/
def Memory.readBytes (d : Nat → Byte) (m : List Host.Cell) (a n : Nat) : List Byte :=
  (List.range n).map (fun i => sget d m (a + i))

/-- The bytes stored from an address on, in increasing address order. -/
def Memory.storeBytes (d : Nat → Byte) (m : List Host.Cell) (a : Nat) : List Byte → List Host.Cell
  | [] => m
  | b :: r => Memory.storeBytes d (sput d m a b) (a + 1) r

/-- The memory with the bytes of [lo, hi) as unlisted bytes read. -/
def Memory.erase (m : List Host.Cell) (lo hi : Nat) : List Host.Cell :=
  m.filter (fun e => decide (e.1 < lo) || decide (hi ≤ e.1))

end Sys2Proof.Machine
end

