-- ==== Sys2Proof/Machine/Cells.lean ====
section
/-! DEFINITION. A row of a macro as it is stored (R40, R51, R56, R60, R65): its data bits, its checksum word and the check words of
the side array; and the words a macro keeps of each output. -/

namespace Sys2Proof.Machine

/-! ### Weights (R41) -/

/-- Weight width w in bits of a width code (R41). -/
def wBits (wcode : Nat) : Nat := 2 ^ wcode

/-- Weight `k` of a row for a width and a signedness (R41). -/
def weightOf (row wb : Nat) (signed : Bool) (k : Nat) : Int :=
  let v := bitsAt row (k * wb) wb
  if signed then signedOf wb v else (v : Int)

/-- C_i of a row: the sum of its weights mod 2^16 (R51). -/
def rowSum (wb : Nat) (signed : Bool) (data : Nat) : Nat :=
  if data = 0 then 0 else twos 16 (sumInt ((List.range (512 / wb)).map (weightOf data wb signed)))

/-! ### The SEC-DED code (R56; DESIGN CHOICE, log entry 64: the spec gives its sizes and no matrix) -/

/-- The place of each data bit in the code: the numbers from 3 on that are no power of two. -/
def codePlaces : List Nat := (List.range 72).filter (fun p => decide (3 ≤ p) && decide (p &&& (p - 1) ≠ 0))

/-- Parity of the low `n` bits. -/
def parityOf (n v : Nat) : Nat := (setBits n v).length % 2

/-- The exclusive or of the places of a word's set bits. -/
def placeSum (n v : Nat) : Nat :=
  ((codePlaces.take n).zipIdx.filter (fun p => v.testBit p.2)).foldl (fun a p => a ^^^ p.1) 0

/-- The check word of an `n`-bit word: `h` place bits, then the parity of the whole. -/
def checkWord (n h v : Nat) : Nat :=
  if v = 0 then 0
  else
    let c := placeSum n v
    c + 2 ^ h * ((parityOf n v + parityOf h c) % 2)

/-- What a check finds: nothing wrong, a word it can give back, or a word it cannot correct. -/
inductive Decoded where
  | clean
  | fixed (v : Nat)
  | bad
deriving DecidableEq, Repr

/-- A word read against its check word: one wrong bit is found and corrected, two are detected (R56). -/
def checkRead (n h v c : Nat) : Decoded :=
  if checkWord n h v = c then .clean
  else
    let z := placeSum n v ^^^ (c % 2 ^ h)
    if (parityOf n v + parityOf (h + 1) c) % 2 = 0 then .bad
    else if z &&& (z - 1) = 0 then .fixed v
    else match (codePlaces.take n).idxOf? z with
      | some i => .fixed (putBit v i (!v.testBit i))
      | none => .bad

/-! ### Rows (R56) -/

/-- A row as it is stored: 512 data bits, the 16-bit checksum word, the check words of its nine words. -/
structure Row where
  data : Nat
  sum : Nat
  ecc : Nat
deriving DecidableEq, Repr

/-- Word `k` of a row: eight data words of 64 bits, then the checksum word; and its check word. -/
def Row.word (x : Row) (k : Nat) : Nat := if k < 8 then bitsAt x.data (64 * k) 64 else x.sum
def Row.code (x : Row) (k : Nat) : Nat := if k < 8 then bitsAt x.ecc (8 * k) 8 else bitsAt x.ecc 64 6

/-- The check word of a row's word `k` as it should be for a value. -/
def wordCode (k v : Nat) : Nat := if k < 8 then checkWord 64 7 v else checkWord 16 5 v

/-- What the check of word `k` finds. -/
def Row.decode (x : Row) (k : Nat) : Decoded :=
  if k < 8 then checkRead 64 7 (x.word k) (x.code k) else checkRead 16 5 (x.word k) (x.code k)

/-- Word `k` written with its check word. -/
def Row.setWord (x : Row) (k v : Nat) : Row :=
  if k < 8 then { x with data := putBits x.data (64 * k) 64 v, ecc := putBits x.ecc (8 * k) 8 (wordCode k v) }
  else { x with sum := v % 2 ^ 16, ecc := putBits x.ecc 64 6 (wordCode k v) }

/-- A row as the device writes it (R51, R56): its checksum word and its check words follow from its data. -/
def Row.fresh (wb : Nat) (signed : Bool) (data : Nat) : Row :=
  let c := rowSum wb signed data
  { data := data
    sum := c
    ecc := sumNat ((List.range 8).map (fun k => 2 ^ (8 * k) * wordCode k (bitsAt data (64 * k) 64))) + 2 ^ 64 * wordCode 8 c }

/-- The words of a row that a check can correct, with their corrected values. -/
def Row.fixes (x : Row) : List (Nat × Nat) :=
  (List.range 9).filterMap (fun k => match x.decode k with
    | .fixed v => some (k, v)
    | _ => none)

/-- How many words of a row a check cannot correct. -/
def Row.badWords (x : Row) : Nat := ((List.range 9).filter (fun k => decide (x.decode k = .bad))).length

/-- A row with its correctable words corrected; a word that cannot be corrected stays as it reads (R54). -/
def Row.corrected (x : Row) : Row := x.fixes.foldl (fun y f => y.setWord f.1 f.2) x

/-- The bit of a row at a bit-column: data, checksum, or side array (columns as CellUpset numbers them). -/
def Row.cell (x : Row) (c : Nat) : Bool :=
  if c < 512 then x.data.testBit c else if c < 528 then x.sum.testBit (c - 512) else x.ecc.testBit (c - 536)

/-- A row with one bit changed. -/
def Row.setCell (x : Row) (c : Nat) (b : Bool) : Row :=
  if c < 512 then { x with data := putBit x.data c b }
  else if c < 528 then { x with sum := putBit x.sum (c - 512) b }
  else if c < 536 then x
  else { x with ecc := putBit x.ecc (c - 536) b }

/-- The data and checksum columns in which two rows differ. -/
def Row.differs (x y : Row) : List Nat := (List.range 528).filter (fun c => x.cell c != y.cell c)

/-! ### Spare columns (R40, R54) -/

/-- The logical column a physical one stands for: a spare for the column it has taken over last, a replaced column for none. -/
def columnOf (spares : List Nat) (p : Nat) : Option Nat :=
  if 528 ≤ p ∧ p < 536 then
    match spares[p - 528]? with
    | some c => if (spares.drop (p - 527)).contains c then none else some c
    | none => none
  else if spares.contains p then none
  else some p

/-- A row as its cells keep it: a stuck cell in use holds its own value. -/
def Row.stick (x : Row) (spares : List Nat) (l : List StuckCell) : Row :=
  l.foldl (fun y c => match columnOf spares c.col with
    | some k => y.setCell k c.value
    | none => y) x

/-! ### The words of an output (R60, R65, R68) -/

/-- The words of an output with one row's weight replaced: K_j mod 2^16, Pos(j) and the count of non-zero weights move by the
difference between the old weight and the new. -/
def ColWords.move (x : ColWords) (old new : Int) : ColWords :=
  { k := twos 16 (x.k + new - old)
    pos := x.pos + new.toNat - old.toNat
    nonzero := x.nonzero + (decide (new ≠ 0)).toNat - (decide (old ≠ 0)).toNat }

/-- The words of an output of which nothing but zero weights has been written. -/
def ColWords.zero (_ : Nat) : ColWords := { k := 0, pos := 0, nonzero := 0 }

/-- The words of every output with one row replaced. -/
def moveCols (cols : Tbl ColWords) (wb : Nat) (signed : Bool) (old new : Nat) : Tbl ColWords :=
  if old = new then cols
  else (List.range (512 / wb)).foldl (fun l j =>
    let a := weightOf old wb signed j
    let b := weightOf new wb signed j
    if a = b then l else sput ColWords.zero l j ((sget ColWords.zero l j).move a b)) cols

/-- What an unlisted row keeps: the zero row's checksum word and check words. -/
def RowCheck.zero (_ : Nat) : RowCheck := { sum := 0, ecc := 0 }

end Sys2Proof.Machine
end

