-- ==== Sys2Proof/Machine/Regs.lean ====
section
/-! DEFINITION. The offsets of the BAR0 registers (R489 Table 6 and the register tables of the chapters)
and the Reset words that are not zero. -/

namespace Sys2Proof.Machine

/-- Global block (R486). -/
def Off.idPart : Nat := 0x000
def Off.idGrade : Nat := 0x004
def Off.idSerial : Nat := 0x008
def Off.idDieRev : Nat := 0x010
def Off.idTiles : Nat := 0x014
def Off.badAccess : Nat := 0x018
def Off.genActive : Nat := 0x020
def Off.genPending : Nat := 0x024
def Off.genFlags : Nat := 0x028
def Off.weightWriteRefused : Nat := 0x02C
def Off.reqDriftCfg : Nat := 0x030
def Off.slotState (k : Nat) : Nat := 0x040 + 0x20 * k
def Off.slotGen (k : Nat) : Nat := 0x044 + 0x20 * k
def Off.slotBase (k : Nat) : Nat := 0x048 + 0x20 * k
def Off.slotLength (k : Nat) : Nat := 0x050 + 0x20 * k
def Off.slotNeed (k : Nat) : Nat := 0x058 + 0x20 * k
def Off.snapAddr (w : Nat) : Nat := 0x140 + 8 * w
def Off.snapStatus : Nat := 0x150
def Off.snapData (w : Nat) : Nat := 0x200 + 0x100 * w

/-- Submission ring `r` (R298) and completion ring `c` (R299), at a register's offset `k`. -/
def Off.sq (r k : Nat) : Nat := 0x00800000 + 0x40 * r + k
def Off.cq (c k : Nat) : Nat := 0x00860000 + 0x40 * c + k

/-- World ring block (R300) and request table. -/
def Off.wrb (w k : Nat) : Nat := 0x008C0000 + 0x100 * w + k
def Off.rqInuse : Nat := 0x008C0200
def Off.rqFullWaits : Nat := 0x008C0204

/-- Stream block (R178), Awl block (R198), toe-heel unit blocks (R216). -/
def Off.stream (k : Nat) : Nat := 0x00900000 + k
def Off.awl (k : Nat) : Nat := 0x00910000 + k
def Off.th (u k : Nat) : Nat := 0x00920000 + 0x100 * u + k

/-- Memory block and causeway sub-blocks (R253). -/
def Off.mem (k : Nat) : Nat := 0x00930000 + k
def Off.memBase (n : Nat) : Nat := 0x00930020 + 0x10 * n
def Off.memSize (n : Nat) : Nat := 0x00930028 + 0x10 * n
def Off.memProt (n : Nat) : Nat := 0x009300A0 + 8 * n
def Off.cway (c k : Nat) : Nat := 0x00930100 + 0x80 * c + k

/-- Host link block (R272) and HL_COHERENT. -/
def Off.hl (k : Nat) : Nat := 0x00940000 + k
def Off.coherent (word : Nat) : Nat := 0x00944000 + 4 * word

/-- Park block (R319), digest and provenance blocks (R335). -/
def Off.park (k : Nat) : Nat := 0x00950000 + k
def Off.dig (w k : Nat) : Nat := 0x00960000 + 0x100 * w + k

/-- Irxia blocks (R360). -/
def Off.ix (k : Nat) : Nat := 0x00970000 + k
def Off.ixp (p k : Nat) : Nat := 0x00971000 + 0x200 * p + k
def Off.win (w k : Nat) : Nat := 0x00974000 + 0x40 * w + k
def Off.map (d k : Nat) : Nat := 0x00980000 + 0x20 * d + k
def Off.grp (g k : Nat) : Nat := 0x00988000 + 0x80 * g + k
def Off.grpStatus (g : Nat) : Nat := 0x00990000 + 4 * g

/-- Power (R381), Milestone (R405), readiness (R406), security (R433) and error (R452) blocks. -/
def Off.pwr (k : Nat) : Nat := 0x009A0000 + k
def Off.ms (k : Nat) : Nat := 0x009B0000 + k
def Off.rdy (k : Nat) : Nat := 0x009C0000 + k
def Off.sec (k : Nat) : Nat := 0x009D0000 + k
def Off.mb (w k : Nat) : Nat := 0x009D0800 + 0x40 * w + k
def Off.region (n : Nat) : Nat := 0x009D8000 + 8 * n
def Off.err (k : Nat) : Nat := 0x009E0000 + k

/-- MSI-X table and pending-bit array (R269). -/
def Off.msix (v k : Nat) : Nat := 0x00A00000 + 16 * v + k
def Off.pba (v : Nat) : Nat := 0x00A08000 + 4 * (v / 32)

/-- Tile block of logical tile `n` (R70), at a register's offset `k`. -/
def Off.tile (n k : Nat) : Nat := 0x01000000 + 0x1000 * n + k

/-- The size of BAR0 (R260). -/
def Off.limit : Nat := 0x04000000

/-- The Reset word of an offset (R488); zero where the register's Reset column is zero, "from fuses", "from
set-up" or "from strap" and where no register lies. The vector control word of an MSI-X entry is masked at
reset (PRESUMED, log entry 7: the PCI Express standard). -/
def Regs.resetWord (off : Nat) : Word :=
  if off = 0x030 then 0x0001080A
  else if 0x00800000 ≤ off ∧ off < 0x00860000 ∧ off < 0x00800000 + 0x40 * 4160 then
    if off % 0x40 = 8 then 0x00100010 else 0
  else if 0x00860000 ≤ off ∧ off < 0x00860000 + 0x40 * 4160 then
    if off % 0x40 = 8 then 8 else 0
  else if off = 0x008C0008 ∨ off = 0x008C0108 ∨ off = 0x008C0048 ∨ off = 0x008C0148 then 8
  else if off = 0x00910000 then 0x00010C63
  else if off = 0x00930000 then 0x1800
  else if off = 0x00960008 ∨ off = 0x00960108 ∨ off = 0x00960030 ∨ off = 0x00960130
      ∨ off = 0x00960048 ∨ off = 0x00960148 then 8
  else if off = 0x0096000C ∨ off = 0x0096010C then 0x64
  else if 0x00971000 ≤ off ∧ off < 0x00971000 + 0x200 * 16 then
    if off % 0x200 = 4 then 0x1DC else 0
  else if off = 0x009A0000 then 0x960
  else if off = 0x009A0004 then 0x3C
  else if off = 0x009A0014 then 0x5F
  else if off = 0x009A0018 then 0xFFFF0000
  else if off = 0x009A0068 then 0x10000
  else if off = 0x009B0030 then 0x02290032
  else if 0x009B0100 ≤ off ∧ off < 0x009B0200 then
    if off % 0x20 = 0 then 0x18 else 0
  else if off = 0x009D0814 ∨ off = 0x009D0854 then 0x7FF
  else if off = 0x009E0004 then 0x1801
  else if 0x00A00000 ≤ off ∧ off < 0x00A08000 then
    if off % 16 = 12 then 1 else 0
  else 0

end Sys2Proof.Machine
end

