-- ==== Sys2Proof/Machine/Ops.lean ====
section
/-! DEFINITION. The shared operations: answers, registers and tallies, units by number, the address map, the
worlds and the toll check, loads and stores of device and host memory, and the movers' range transfers. -/

namespace Sys2Proof.Machine

/-- Whether nothing but the always-on pins acts: PORST_N is low (R456, R463), or a thermal trip has stopped every fast clock
(R371). -/
def State.stopped (s : State) : Bool := s.pins.porstLow || s.clock.fastStopped

/-- The answer of a command that burns no fuse and writes no flash: the state its effect leaves, with the
queue, the fuses (R2, R417) and the boot flash (R420) as they were. No register write of a mover is left over between commands. A stopped
device takes no command. -/
def answer (s t : State) : Host.Outcome State Fault Refusal :=
  .next (if s.stopped then s else { t with pending := s.pending, regWrites := s.regWrites, fuses := s.fuses, flash := s.flash })

/-- The answer of a command that may burn fuses or write the flash: only the queue is as it was. -/
def answerBurning (s t : State) : Host.Outcome State Fault Refusal :=
  .next (if s.stopped then s else { t with pending := s.pending, regWrites := s.regWrites })

/-- The answer of a command of the pins that a stopped device takes too: resets, supplies, the test port. -/
def answerPin (s t : State) : Host.Outcome State Fault Refusal := .next { t with pending := s.pending }

/-- `f` applied where the condition holds: a row given when its condition does not hold changes nothing
(DESIGN CHOICE, log entry 2). -/
def State.when (s : State) (c : Bool) (f : State → State) : State := if c then f s else s

/-! ### Registers (R482) -/

/-- The word of a register. -/
def State.reg (s : State) (off : Nat) : Nat := (sget Regs.resetWord s.regs off).toNat

/-- A register written. -/
def State.setReg (s : State) (off v : Nat) : State :=
  { s with regs := sput Regs.resetWord s.regs off (BitVec.ofNat 32 v) }

/-- A 64-bit register, low word first (R483). -/
def State.reg64 (s : State) (off : Nat) : Nat := s.reg off + 2 ^ 32 * s.reg (off + 4)

/-- A 64-bit register written. -/
def State.setReg64 (s : State) (off v : Nat) : State := (s.setReg off v).setReg (off + 4) (v / 2 ^ 32)

/-- A field of a register. -/
def State.regBits (s : State) (off lo n : Nat) : Nat := bitsAt (s.reg off) lo n

/-- A field of a register written. -/
def State.setRegBits (s : State) (off lo n x : Nat) : State := s.setReg off (putBits (s.reg off) lo n x)

/-- One bit of a register. -/
def State.regBit (s : State) (off i : Nat) : Bool := (s.reg off).testBit i

/-- One bit of a register written. -/
def State.setRegBit (s : State) (off i : Nat) (b : Bool) : State := s.setReg off (putBit (s.reg off) i b)

/-- A tally: it adds and wraps at 2^32 (R70). -/
def State.tally (s : State) (off n : Nat) : State := s.setReg off (s.reg off + n)

/-- A tally of what is held now: it falls. -/
def State.untally (s : State) (off n : Nat) : State := s.setReg off (2 ^ 32 - n % 2 ^ 32 + s.reg off)

/-- A 64-bit tally. -/
def State.tally64 (s : State) (off n : Nat) : State := s.setReg64 off (s.reg64 off + n)

/-- Bytes of a wide register, low word first. -/
def State.regBytes (s : State) (off n : Nat) : List Byte :=
  ((List.range (n / 4)).map (fun i => natLe 4 (s.reg (off + 4 * i)))).flatten

/-- A wide register written from bytes. -/
def State.setRegBytes (s : State) (off : Nat) (bs : List Byte) : State :=
  (List.range ((bs.length + 3) / 4)).foldl (fun s i => s.setReg (off + 4 * i) (fieldAt bs (4 * i) 4)) s

/-- Milestone time, ns (R383). -/
def State.now (s : State) : Nat := s.clock.ns

/-- Something the device sends. -/
def State.emit (s : State) (o : Out) : State := { s with out := s.out ++ [o] }

/-! ### Units by number -/

/-- Logical tiles of the grade's quota per tread and in all (R3, R14). -/
def State.quota (s : State) : Nat := if s.fuses.gradeB then 448 else 512

/-- Whether a logical tile is present on the grade (R4). -/
def State.present (s : State) (n : Nat) : Bool := decide (n < 1024) && decide (n % 512 < s.quota)

/-- Whether a logical tile has no physical tile behind it (R15). -/
def State.unbacked (s : State) (n : Nat) : Bool := (tget s.passes.tileMap n).isNone

/-- A tile. -/
def State.tile (s : State) (n : Nat) : Tile := sget (fun _ => Tile.empty) s.tiles n

/-- A tile changed. -/
def State.setTile (s : State) (n : Nat) (t : Tile) : State :=
  { s with tiles := sput (fun _ => Tile.empty) s.tiles n t }

/-- A tile changed by a function. -/
def State.updTile (s : State) (n : Nat) (f : Tile → Tile) : State := s.setTile n (f (s.tile n))

/-- Macro `m` of tile `n`. -/
def State.mac (s : State) (n m : Nat) : Macro := sget (fun _ => Macro.empty) s.macros (64 * n + m)

/-- A macro changed. -/
def State.setMac (s : State) (n m : Nat) (x : Macro) : State :=
  { s with macros := sput (fun _ => Macro.empty) s.macros (64 * n + m) x }

/-- A macro changed by a function. -/
def State.updMac (s : State) (n m : Nat) (f : Macro → Macro) : State := s.setMac n m (f (s.mac n m))

/-- A toe-heel unit. -/
def State.thUnit (s : State) (u : Nat) : ThUnit := sget (fun _ => ThUnit.empty) s.th u

/-- A toe-heel unit changed. -/
def State.setTh (s : State) (u : Nat) (x : ThUnit) : State :=
  { s with th := sput (fun _ => ThUnit.empty) s.th u x }

/-- An Irxia port. -/
def State.port (s : State) (p : Nat) : IxPort := sget (fun _ => IxPort.empty) s.ix.ports p

/-- An Irxia port changed. -/
def State.setPort (s : State) (p : Nat) (x : IxPort) : State :=
  { s with ix := { s.ix with ports := sput (fun _ => IxPort.empty) s.ix.ports p x } }

/-- An EVT_IN pin. -/
def State.evtPin (s : State) (i : Nat) : EvtPin := sget (fun _ => EvtPin.empty) s.sleep.pins i

/-- An EVT_IN pin changed. -/
def State.setEvtPin (s : State) (i : Nat) (x : EvtPin) : State :=
  { s with sleep := { s.sleep with pins := sput (fun _ => EvtPin.empty) s.sleep.pins i x } }

/-- A request of the request table. -/
def State.req? (s : State) (i : Nat) : Option Request := tget s.reqs i

/-- A request entered or changed. -/
def State.setReq (s : State) (i : Nat) (r : Request) : State := { s with reqs := sins i r s.reqs }

/-- A request changed by a function; nothing where there is none. -/
def State.updReq (s : State) (i : Nat) (f : Request → Request) : State :=
  match s.req? i with
  | some r => s.setReq i (f r)
  | none => s

/-- The staged or active pass in a slot. -/
def State.slot? (s : State) (k : Nat) : Option PassInfo := tget s.passes.slots k

/-- Whether a slot is being staged: its image has been placed and not yet passed the checks (R486 Table 5), which no image without a tile
passes (R21). -/
def PassInfo.staging (p : PassInfo) : Bool := p.tileUse.isEmpty

/-- The slot that holds a generation. An image that is still being staged is no generation yet, whatever number its LOAD_PASS names
(R24, R25). -/
def State.slotOf (s : State) (gen : Nat) : Option (Nat × PassInfo) :=
  s.passes.slots.find? (fun e => decide (e.2.gen = gen) && !e.2.staging)

/-- The active generation, 0 for none (R25). -/
def State.genActive (s : State) : Nat := s.reg Off.genActive

/-- The active pass. -/
def State.activePass (s : State) : Option PassInfo :=
  if s.genActive = 0 then none else (s.slotOf s.genActive).map (·.2)

/-- Whether a tile takes part in the active pass. -/
def State.inActiveUse (s : State) (n : Nat) : Bool :=
  match s.activePass with
  | some p => p.tileUse.contains n
  | none => false

/-! ### Descriptor fields -/

/-- A little-endian field of a request's descriptor (R283). -/
def Request.fld (r : Request) (off n : Nat) : Nat := fieldAt r.desc off n
def Request.opcode (r : Request) : Nat := r.fld 0 1
def Request.flags (r : Request) : Nat := r.fld 1 1
def Request.tag (r : Request) : Nat := r.fld 2 2
def Request.mileGrain (r : Request) : Nat := r.fld 4 2
/-- FLAGS bits (R283 Table 2). -/
def Request.wait (r : Request) : Bool := r.flags.testBit 0
def Request.irq (r : Request) : Bool := r.flags.testBit 1
def Request.mileposts (r : Request) : Bool := r.flags.testBit 2
def Request.ordered (r : Request) : Bool := r.flags.testBit 3
def Request.allowVary (r : Request) : Bool := r.flags.testBit 4
/-- The world of a request is that of its ring (R273). -/
def Request.secure (r : Request) : Bool := decide (4096 ≤ r.ring)

/-- The world number of a world: 0 non-secure, 1 secure (R300). -/
def worldNum (secure : Bool) : Nat := secure.toNat

/-! ### The address map (R11, R239 to R242) -/

/-- Usable stacks U, LOCAL and LMODE (R239, R240). -/
def State.stacksU (s : State) : Nat := s.regBits (Off.mem 4) 0 5
def State.localGib (s : State) : Nat := s.regBits (Off.mem 0) 0 5
def gib : Nat := 2 ^ 30

/-- I of R239. -/
def State.interleaved (s : State) : Nat := s.stacksU * (32 - s.localGib) * gib

/-- The end of HBM: I + U·LOCAL GiB (R241). -/
def State.hbmEnd (s : State) : Nat := s.stacksU * 32 * gib

/-- The usable stacks in the order of R239: by (k, causeway). -/
def State.stackList (s : State) : List Nat :=
  ((List.range 24).map (fun i => 6 * (i % 4) + i / 4)).filter (fun st => s.regBit (Off.mem 8) st)

/-- The stack and the stack offset of an HBM address (R239, R240). -/
def State.stackOf (s : State) (a : Nat) : Nat × Nat :=
  let l := s.stackList
  let g := a / 4096
  if a < s.interleaved then (l.getD (g % l.length) 0, g / l.length * 4096 + a % 4096)
  else
    let o := a - s.interleaved
    let loc := s.localGib * gib
    if s.regBit (Off.mem 0) 5 = false then (l.getD (o / loc) 0, (32 - s.localGib) * gib + o % loc)
    else
      -- causeway mode: causeways in order, each interleaved over its usable stacks in increasing k
      let per := (List.range 4).map (fun c => (List.range 6).map (fun k => 6 * c + k) |>.filter
        (fun st => s.regBit (Off.mem 8) st))
      let rec go (o : Nat) : List (List Nat) → Nat × Nat
        | [] => (0, 0)
        | c :: r =>
          if o < c.length * loc then
            (c.getD (o / 4096 % c.length) 0,
              (32 - s.localGib) * gib + o / 4096 / c.length * 4096 + o % 4096)
          else go (o - c.length * loc) r
      go o per

/-- The pseudo-channel of an HBM address (R239). -/
def pseudoChannel (a : Nat) : Nat := a / 64 % 64

/-- The causeway of an HBM address. -/
def State.causewayOf (s : State) (a : Nat) : Nat := (s.stackOf a).1 / 6

/-- Scratchpad window and CIM weight window of a logical tile (R11, R218). -/
def spBase (n : Nat) : Nat := 0x020000000000 + n * 0x200000
def cimBase (n : Nat) : Nat := 0x020100000000 + n * 0x100000

/-- Where a device address lies (R11 Table 5). -/
inductive Place where
  | hbm
  | scratch (tile off : Nat)
  | cim (tile off : Nat)
  | bar0 (off : Nat)
  | window
  | nowhere
deriving DecidableEq, Repr

/-- The range of Table 5 an address lies in. -/
def placeOf (a : Nat) : Place :=
  if a < 0x00C000000000 then .hbm
  else if 0x020000000000 ≤ a ∧ a < 0x020080000000 then
    .scratch ((a - 0x020000000000) / 0x200000) (a % 0x200000)
  else if 0x020100000000 ≤ a ∧ a < 0x020140000000 then
    .cim ((a - 0x020100000000) / 0x100000) (a % 0x100000)
  else if 0x030000000000 ≤ a ∧ a < 0x030004000000 then .bar0 (a - 0x030000000000)
  else if 0x040000000000 ≤ a then .window
  else .nowhere

/-- Base and size of reserved area `n` (R242). -/
def State.areaBase (s : State) (n : Nat) : Nat := s.reg64 (Off.memBase n)
def State.areaSize (s : State) (n : Nat) : Nat := s.reg64 (Off.memSize n)

/-- The reserved area an address lies in. -/
def State.areaOf (s : State) (a : Nat) : Option Nat :=
  (List.range 8).find? (fun n => decide (s.areaBase n ≤ a) && decide (a < s.areaBase n + s.areaSize n))

/-! ### The world map and the region table (R408 to R413) -/

/-- World of a logical tile, a toe-heel unit, a port and a digest engine (R408). -/
def State.tileSecure (s : State) (n : Nat) : Bool := s.regBit (Off.sec (0x100 + 4 * (n / 32))) (n % 32)
def State.thSecure (s : State) (u : Nat) : Bool := s.regBit (Off.sec 0x180) u
def State.portSecure (s : State) (p : Nat) : Bool := s.regBit (Off.sec 0x184) p
def State.engineSecure (s : State) (e : Nat) : Bool := s.regBit (Off.sec (0x1A0 + 4 * (e / 32))) (e % 32)

/-- The causeway engines by one number (R251; the spec numbers the digest engines only, DESIGN CHOICE, log entry 9): digest engine e of
causeway c is 64·c + e, merge lane k is 256 + 256·c + k, mover m is 1280 + 8·c + m. -/
def Eng.causeway (x : Nat) : Nat := if x < 256 then x / 64 else if x < 1280 then (x - 256) / 256 else (x - 1280) / 8
/-- The number of an engine within its causeway: digest engines 0 to 63, lanes 64 to 319, movers 320 to 327. -/
def Eng.number (x : Nat) : Nat :=
  if x < 256 then x % 64 else if x < 1280 then 64 + (x - 256) % 256 else 320 + (x - 1280) % 8

/-- The engines of a causeway. -/
def Eng.of (c : Nat) : List Nat :=
  (List.range 64).map (64 * c + ·) ++ (List.range 256).map (256 + 256 * c + ·) ++ (List.range 8).map (1280 + 8 * c + ·)

/-- The worlds an engine belongs to: a lane follows the tile it merges for, a mover serves both (R251, R412; DEDUCED, log entry 9). -/
def State.engineWorlds (s : State) (x : Nat) : List Nat :=
  if x < 256 then [worldNum (s.engineSecure x)] else if x < 1280 then [worldNum (s.tileSecure (x - 256))] else [0, 1]

/-- Fields of a region entry (R411 Table 3). -/
def Region.base (v : Nat) : Nat := bitsAt v 0 27
def Region.size (v : Nat) : Nat := bitsAt v 27 19
def Region.secure (v : Nat) : Bool := v.testBit 46
def Region.peerNs (v : Nat) : Bool := v.testBit 47
def Region.peerS (v : Nat) : Bool := v.testBit 48
def Region.valid (v : Nat) : Bool := v.testBit 63

/-- An entry of the region table as it was last written (R485). -/
def State.region (s : State) (n : Nat) : Nat := s.reg64 (Off.region n)

/-- The valid entries as written: number and value. Only entries whose high word is listed can be valid. -/
def State.writtenRegions (s : State) : List (Nat × Nat) :=
  (s.regs.filter (fun e => decide (Off.region 0 ≤ e.1) && decide (e.1 < Off.region 1024) &&
    decide (e.1 % 8 = 4))).map (fun e => ((e.1 - Off.region 0) / 8, s.region ((e.1 - Off.region 0) / 8)))
    |>.filter (fun e => Region.valid e.2)

/-- The valid entries as the toll checks hold them: an entry that is changing stands with its old value until the new one opens
(R416; DEDUCED, log entry 34). -/
def State.regions (s : State) : List (Nat × Nat) :=
  s.writtenRegions.filter (fun e => !s.sec.change.any (fun c => decide (c.n = e.1))) ++
  (s.sec.change.map (fun c => (c.n, c.old.toNat))).filter (fun e => Region.valid e.2)

/-- Whether an entry covers an address. -/
def Region.covers (v a : Nat) : Bool :=
  decide (Region.base v ≤ a / 2 ^ 21) && decide (a / 2 ^ 21 < Region.base v + Region.size v)

/-- The valid entry that covers an address. -/
def State.regionAt (s : State) (a : Nat) : Option Nat :=
  (s.regions.find? (fun e => Region.covers e.2 a)).map (·.2)

/-- Whether a region change keeps an address closed (R416): the old range of an entry that is changing. -/
def State.closedByChange (s : State) (a : Nat) : Bool :=
  s.sec.change.any (fun c => Region.valid c.old.toNat && Region.covers c.old.toNat a)

/-- Whether a MEM_PROT entry that is re-encoding covers an address (R247). -/
def State.protBusy (s : State) (a : Nat) : Bool :=
  (List.range 8).any (fun n =>
    let v := s.reg64 (Off.memProt n)
    v.testBit 39 && decide (bitsAt v 0 19 ≤ a / 2 ^ 21) && decide (a / 2 ^ 21 < bitsAt v 0 19 + bitsAt v 19 19))

/-! ### Stream contexts (R148, R149) -/

/-- Address of a stream's context and of its guard entries (R148, R190: 64 entries of 16 bytes). -/
def State.ctxAddr (s : State) (stream : Nat) : Nat := s.areaBase 0 + 128 * stream
def State.guardAddr (s : State) (stream : Nat) : Nat := s.areaBase 2 + 1024 * stream

/-- A field of device memory, read without a toll check: the access of a device-owned unit (R407). -/
def State.memNat (s : State) (a n : Nat) : Nat := leNat (Memory.readBytes zeroByte s.mem a n)

/-- Bytes of device memory, read without a toll check. -/
def State.memBytes (s : State) (a n : Nat) : List Byte := Memory.readBytes zeroByte s.mem a n

/-- Bytes of device memory written without a toll check. -/
def State.setMemBytes (s : State) (a : Nat) (bs : List Byte) : State :=
  { s with mem := Memory.storeBytes zeroByte s.mem a bs }

/-- A field of device memory written without a toll check. -/
def State.setMemNat (s : State) (a n v : Nat) : State := s.setMemBytes a (natLe n v)

/-- A range of device memory cleared. -/
def State.clearMem (s : State) (lo hi : Nat) : State := { s with mem := Memory.erase s.mem lo hi }

/-- A field of a stream's context. -/
def State.ctx (s : State) (stream off n : Nat) : Nat := s.memNat (s.ctxAddr stream + off) n

/-- A field of a stream's context written. -/
def State.setCtx (s : State) (stream off n v : Nat) : State := s.setMemNat (s.ctxAddr stream + off) n v

/-- A tally of a stream's context: modulo 2^64 (R149). -/
def State.tallyCtx (s : State) (stream off n : Nat) : State :=
  s.setCtx stream off 8 (s.ctx stream off 8 + n)

/-- World of a stream (R148). -/
def State.streamSecure (s : State) (stream : Nat) : Bool := (s.ctx stream 0 4).testBit 2

/-! ### The toll check (R414, R415) -/

/-- What the toll check answers. -/
inductive Verdict where
  | admitted
  | wait                        -- the range is closed by a region change or a re-encoding (R416, R247)
  | world                       -- refused by the world or the range rules (R415)
  | memRange                    -- at or above the end of HBM (R241)
  | spRange (tile : Nat)        -- scratchpad range rules (R218)
  | bankOff (tile bank : Nat)   -- a closed bank (R234)
  | weight (tile : Nat)         -- a write into the active pass's weights (R37)
  | bar0                        -- set-up registers: accepted or refused by R482
deriving DecidableEq, Repr

/-- Whether area `n` admits an access that is not device-owned (R413). `tableRead` marks the read of a COPY
under the exception of areas 0 and 2. -/
def State.areaAdmits (s : State) (n : Nat) (secure write tableRead : Bool) (a : Nat) : Bool :=
  if n = 5 then
    if a < s.areaBase 5 + 4 * gib + 384 * 2 ^ 20 then false
    else match s.regionAt a with
      | some v => secure || !Region.secure v
      | none => true
  else if n = 6 then secure && !write
  else if n = 7 then !secure && !write
  else if n = 0 then
    tableRead && !write && decide (s.streamSecure ((a - s.areaBase 0) / 128) = secure)
  else if n = 2 then
    tableRead && !write && decide (s.streamSecure ((a - s.areaBase 2) / 1024) = secure)
  else false

/-- The verdict on an access of `len` bytes at `a` that does not cross a 64-byte line. `exempt` marks a
device-owned initiator, which only the range rules bind (R407). -/
def State.toll (s : State) (secure exempt write tableRead : Bool) (a len : Nat) : Verdict :=
  match placeOf a with
  | .hbm =>
    if s.hbmEnd < a + len then .memRange
    else if exempt then .admitted
    else if s.closedByChange a then .wait
    else if s.protBusy a then .wait
    else match s.areaOf a with
      | some n => if s.areaAdmits n secure write tableRead a then .admitted else .world
      | none => match s.regionAt a with
        | some v => if Region.secure v && !secure then .world else .admitted
        | none => .admitted
  | .scratch n off =>
    if decide (0x180000 ≤ off) || decide (off % 4 ≠ 0) || decide (len % 4 ≠ 0) || decide (len = 0) ||
        decide (64 < off % 64 + len) || s.unbacked n then .spRange n
    else if !exempt && s.closedByChange a then .wait
    else if !exempt && s.tileSecure n && !secure then .world
    else if s.regBit (Off.tile n 0x900) (off / 0x10000) = false then .bankOff n (off / 0x10000)
    else .admitted
  | .cim n _ =>
    if !secure && !exempt then .world
    else if s.unbacked n then .world
    else if write && s.inActiveUse n then .weight n
    else .admitted
  | .bar0 off =>
    if Off.tile 0 0 ≤ off ∧ off < Off.tile 1024 0 ∧ s.unbacked ((off - Off.tile 0 0) / 0x1000) = true then .world else .bar0
  | .window => .world
  | .nowhere => .world

/-- The status a refusal gives (R490, R37). -/
def Verdict.status : Verdict → Status
  | .bankOff _ _ => .faultBankOff
  | .weight _ => .faultPassGeneration
  | _ => .faultWorld

/-- TOLL_LAST and TOLL_REFUSED of the initiator's world (R415); `kind` is the initiator as event KIND. -/
def State.countViolation (s : State) (secure : Bool) (kind a : Nat) : State :=
  (s.tally (Off.sec (if secure then 0x84 else 0x80)) 1).setReg64 (Off.sec 0x90)
    (a % 2 ^ 48 + 2 ^ 48 * (kind % 256) + 2 ^ 56 * secure.toNat)

/-- The initiator kind that TOLL_LAST latched (R415), for an access that a unit of that kind made. -/
def State.byInitiator (s : State) (kind : Nat) : State := s.setRegBits (Off.sec 0x94) 16 8 kind

/-- The tallies of a refusal: R415 of every world or range refusal, beside the tally of the rule that refused
(R218, R234, R241, R37). -/
def State.countRefusal (s : State) (v : Verdict) (secure : Bool) (kind a : Nat) : State :=
  match v with
  | .admitted | .wait => s
  | .world => s.countViolation secure kind a
  | .memRange => (s.tally (Off.mem 0x10) 1).countViolation secure kind a
  | .spRange n => (s.tally (Off.tile n 0x908) 1).countViolation secure kind a
  | .bankOff n _ => s.tally (Off.tile n 0x904) 1
  | .weight _ => s.tally Off.weightWriteRefused 1
  | .bar0 => s.tally Off.badAccess 1

/-! ### Loads and stores behind the toll check -/

/-- Whether the device must snoop the host before it touches a line (R266): the unit's bit is set or its
clearing has not ended, and the unit holds no reserved area. -/
def State.coherentUnit (s : State) (a : Nat) : Bool :=
  let u := a / 2 ^ 21
  (s.regBit (Off.coherent (u / 32)) (u % 32) || s.link.cohClearing.contains u) && (s.areaOf a).isNone

/-- The back-invalidate snoop before a device access to a line of a host-coherent unit (R266). -/
def State.snoopLine (s : State) (a : Nat) : State :=
  match placeOf a with
  | .hbm => if s.coherentUnit a then (s.tally (Off.hl 0x1C) 1).emit (.backInvalidate (a / 64)) else s
  | _ => s

/-- Whether a macro's rows read as zero: its MAC_INVALID bit is set (R38, R59). -/
def State.macInvalid (s : State) (n m : Nat) : Bool := s.regBit (Off.tile n (0x230 + 4 * (m / 32))) (m % 32)
def State.macRetired (s : State) (n m : Nat) : Bool := s.regBit (Off.tile n (0x220 + 4 * (m / 32))) (m % 32)

/-- The bytes an admitted read of one line returns: of an invalid macro's rows, zeros (R38); of the set-up
registers, zeros, because a line is no access R482 accepts. -/
def State.loadLine (s : State) (a len : Nat) : List Byte :=
  match placeOf a with
  | .cim n off => if s.macInvalid n (off / 0x4000) then List.replicate len 0 else s.memBytes a len
  | .bar0 _ => List.replicate len 0
  | _ => s.memBytes a len

/-- Whether a protection error stands in the bytes a line read touches: a poisoned unit of HBM (R246), a bad
word of a scratchpad (R232). -/
def State.lineBad (s : State) (a len : Nat) : Bool :=
  match placeOf a with
  | .hbm => s.hbm.poison.contains (a / 64)
  | .scratch n off => (s.tile n).badUnits.any (fun w => decide (w < off + len) && decide (off < w + 4))
  | _ => false

/-- Whether a region of a tile's plan that carries the weight-staging class covers an offset (R231). -/
def Tile.weightClass (t : Tile) (off : Nat) : Bool :=
  t.plan.any (fun e =>
    let k := bitsAt e.toNat 0 4
    let lo := 4096 * bitsAt e.toNat 4 9
    let hi := lo + 4096 * bitsAt e.toNat 13 9
    (decide (k = 2) || (decide (k = 3) && e.toNat.testBit 36)) && decide (lo ≤ off) && decide (off < hi))

/-- The bad words a write of a scratchpad heals: of the activation class every word written, of the
weight-staging class the words of every 32-byte unit written whole (R232). -/
def Tile.heal (t : Tile) (off len : Nat) : Tile :=
  { t with badUnits := t.badUnits.filter (fun w =>
      if t.weightClass w then
        let u := w / 32 * 32
        !(decide (off ≤ u) && decide (u + 32 ≤ off + len))
      else !(decide (off ≤ w) && decide (w + 4 ≤ off + len))) }

/-! ### The cells of a macro (R40, R51, R54, R56, R68, R492) -/

/-- A row of a macro's data cells as a number (R42). -/
def State.rowWord (s : State) (n m r : Nat) : Nat := s.memNat (cimBase n + 0x4000 * m + 64 * r) 64

/-- A row as its cells hold it. -/
def State.cellRow (s : State) (n m r : Nat) : Row :=
  let c := sget RowCheck.zero (s.mac n m).rows r
  { data := s.rowWord n m r, sum := c.sum, ecc := c.ecc }

/-- The stuck cells of the macro that stands behind a logical one. -/
def State.stuckIn (s : State) (n m : Nat) : List StuckCell :=
  match tget s.passes.tileMap n with
  | none => []
  | some p => s.stuck.filter (fun c => decide (c.phys = p) && decide (c.unit = m))

/-- A row put into cells that take every value. -/
def State.putRow (s : State) (n m r : Nat) (x : Row) : State :=
  (s.setMemBytes (cimBase n + 0x4000 * m + 64 * r) (natLe 64 x.data)).updMac n m (fun y =>
    { y with rows := sput RowCheck.zero y.rows r { sum := x.sum, ecc := x.ecc } })

/-- A row just written, as its stuck cells keep it. -/
def State.restick (s : State) (n m r : Nat) : State :=
  let l := (s.stuckIn n m).filter (fun c => decide (c.row = r))
  if l.isEmpty then s else s.putRow n m r ((s.cellRow n m r).stick (s.mac n m).spares l)

/-- A row written into the cells. -/
def State.storeRow (s : State) (n m r : Nat) (x : Row) : State := (s.putRow n m r x).restick n m r

/-- What the device writes beside a row's data (R51, R56, R68): its checksum word and check words, and the words of the outputs
moved by the difference between the old row and the new. -/
def State.finishRow (s : State) (n m r old : Nat) : State :=
  let x := s.mac n m
  let data := s.rowWord n m r
  let y := Row.fresh (wBits x.wcode) x.wsigned data
  (s.setMac n m { x with
    rows := sput RowCheck.zero x.rows r { sum := y.sum, ecc := y.ecc }
    cols := moveCols x.cols (wBits x.wcode) x.wsigned old data }).restick n m r

/-- What the device writes beside the data of a macro written in full (R51, R56, R60, R65), for the width and signedness the macro
holds (R492). -/
def State.finishMacro (s : State) (n m : Nat) : State :=
  let base := cimBase n + 0x4000 * m
  let rows := ((s.mem.filter (fun e => decide (base ≤ e.1) && decide (e.1 < base + 0x4000))).map (fun e => (e.1 - base) / 64)).eraseDups
  let x := s.mac n m
  let s := s.setMac n m { x with
    rows := rows.foldl (fun l r =>
      let y := Row.fresh (wBits x.wcode) x.wsigned (s.rowWord n m r)
      sput RowCheck.zero l r { sum := y.sum, ecc := y.ecc }) []
    cols := rows.foldl (fun l r => moveCols l (wBits x.wcode) x.wsigned 0 (s.rowWord n m r)) [] }
  (s.stuckIn n m).foldl (fun s c => s.restick n m c.row) s

/-- The macros of a tile that hold anything: written bytes, check data or a stuck cell. -/
def State.usedMacros (s : State) (n : Nat) : List Nat :=
  let lo := cimBase n
  let listed := ((s.mem.filter (fun e => decide (lo ≤ e.1) && decide (e.1 < lo + 0x100000))).map (fun e => (e.1 - lo) / 0x4000)).eraseDups
  (List.range 64).filter (fun m => listed.contains m || !(s.mac n m).rows.isEmpty || !(s.mac n m).cols.isEmpty || !(s.stuckIn n m).isEmpty)

/-- All macros of a tile written in full. -/
def State.finishTile (s : State) (n : Nat) : State := (s.usedMacros n).foldl (fun s m => s.finishMacro n m) s

/-- A cell that has changed by itself: it holds its new value, and if it is stuck no other from now on. -/
def State.upset (s : State) (n m : Nat) (u : CellUpset) : State :=
  match tget s.passes.tileMap n with
  | none => s
  | some p =>
    if 256 ≤ u.row ∨ 606 ≤ u.col then s
    else
      let c : StuckCell := { phys := p, unit := m, row := u.row, col := u.col, value := u.value }
      let others := s.stuck.filter (fun x => !(decide (x.phys = p) && decide (x.unit = m) && decide (x.row = u.row) && decide (x.col = u.col)))
      let s := if u.stuck then { s with stuck := others ++ [c] } else s
      match columnOf (s.mac n m).spares u.col with
      | some k => s.storeRow n m u.row ((s.cellRow n m u.row).setCell k u.value)
      | none => s

/-- The cells of a macro that have changed by themselves. -/
def State.upsets (s : State) (n m : Nat) (l : List CellUpset) : State := l.foldl (fun s u => s.upset n m u) s

/-- A row of the weight window written (R28, R57, R59, R68): the tile counts as written; once every row of a macro has been
written, its scrub restarts at row 0, and an invalid macro is valid again. -/
def State.noteRow (s : State) (n m r : Nat) : State :=
  let s := s.updTile n (fun t => { t with dirty := true })
  let done := ((s.mac n m).rowsDone ++ [r]).eraseDups
  if done.length = 256 then
    (s.updMac n m (fun x => { x with rowsDone := [], scrubRow := 0, corr := [] })).setRegBit (Off.tile n (0x230 + 4 * (m / 32))) (m % 32) false
  else s.updMac n m (fun x => { x with rowsDone := done })

/-- Bytes of one row written through the weight window (R68): the whole row is rewritten. -/
def State.storeCells (s : State) (n off a : Nat) (bs : List Byte) : State :=
  let m := off / 0x4000
  let r := off % 0x4000 / 64
  ((s.setMemBytes a bs).finishRow n m r (s.rowWord n m r)).noteRow n m r

/-- A write of device memory: the tag memories loaded from a region it touches are not known to hold it any more
(R137). -/
def State.loseTags (s : State) (a len : Nat) : State :=
  { s with macros := s.macros.map (fun e => match e.2.tagKey with
      | some k => if k.1 < a + len ∧ a < k.2.1 then (e.1, { e.2 with tagKey := none }) else e
      | none => e) }

/-- A unit of HBM written whole: it is poisoned no more, and no earlier change of its bits is left (R246). -/
def State.healUnit (s : State) (u : Nat) : State :=
  let t := { s with hbm := { s.hbm with poison := s.hbm.poison.filter (· ≠ u), flips := s.hbm.flips.filter (fun f => decide (f.1 ≠ u)) } }
  if s.hbm.poison.contains u then t.untally (Off.cway (s.causewayOf (64 * u)) 8) 1 else t

/-- A range of HBM written by the device for itself: its whole units are healed. -/
def State.healRange (s : State) (a len : Nat) : State :=
  let inside := fun (u : Nat) => decide (a ≤ 64 * u) && decide (64 * u + 64 ≤ a + len)
  (((s.hbm.poison ++ s.hbm.flips.map (·.1)).filter inside).eraseDups).foldl (fun s u => s.healUnit u) s

/-- Bytes of HBM written by the device for itself. -/
def State.fillMem (s : State) (a : Nat) (bs : List Byte) : State := (s.healRange a bs.length).setMemBytes a bs

/-- An admitted write of one line. A write that covers a whole poisoned unit heals it (R246). -/
def State.storeLine (s : State) (a : Nat) (bs : List Byte) : State :=
  match placeOf a with
  | .hbm =>
    (if a % 64 = 0 ∧ bs.length = 64 then s.healUnit (a / 64) else s).setMemBytes a bs
  | .scratch n off =>
    ((s.updTile n (fun t => t.heal off bs.length)).loseTags a bs.length).setMemBytes a bs
  | .cim n off => s.storeCells n off a bs
  | .bar0 _ => s
  | _ => s

/-- Whether an HBM address carries the weight class (R245 Table 4): areas 0, 1, 2, 4 and 5, and the valid MEM_PROT ranges. -/
def State.weightMem (s : State) (a : Nat) : Bool :=
  (match s.areaOf a with
   | some n => [0, 1, 2, 4, 5].contains n
   | none => false) ||
  (List.range 8).any (fun n =>
    let v := s.reg64 (Off.memProt n)
    v.testBit 38 && decide (bitsAt v 0 19 ≤ a / 2 ^ 21) && decide (a / 2 ^ 21 < bitsAt v 0 19 + bitsAt v 19 19))

/-- Whether a write must read and merge a unit of HBM: one that does not cover whole code words, of 64 bytes in the weight class and 8
in the activation class (R245). -/
def State.mergesUnit (s : State) (a len : Nat) : Bool :=
  let word := if s.weightMem a then 64 else 8
  !(decide (a % word = 0) && decide (len % word = 0))

/-- The bad word that a write of a scratchpad must merge: in a 32-byte unit of the weight-staging class written in part (R231). -/
def Tile.mergesBad (t : Tile) (off len : Nat) : Bool :=
  t.badUnits.any (fun w =>
    let u := w / 32 * 32
    t.weightClass w && decide (off < u + 32) && decide (u < off + len) && !(decide (off ≤ u) && decide (u + 32 ≤ off + len)))

/-- What a read of a range of a scratchpad is checked by: the 32-byte units of the weight-staging class and the words of the activation
class that it touches, rising (R231). -/
def Tile.checkUnits (t : Tile) (off len : Nat) : List Nat :=
  (((List.range ((len + 6) / 4)).map (fun k => off / 4 * 4 + 4 * k)).filter (fun w => decide (w < off + len))).map (fun w =>
    if t.weightClass w then w / 32 * 32 else w) |>.eraseDups

/-- The units of the weight-staging class that a write covers in part and so reads and merges, rising (R231). -/
def Tile.mergeUnits (t : Tile) (off len : Nat) : List Nat :=
  (t.checkUnits off len).filter (fun u => t.weightClass u && !(decide (off ≤ u) && decide (u + 32 ≤ off + len)))

/-- Whether a write must merge a unit that cannot be read and so meets its error (R231, R246). -/
def State.mergeBad (s : State) (a len : Nat) : Bool :=
  match placeOf a with
  | .hbm => s.hbm.poison.contains (a / 64) && s.mergesUnit a len
  | .scratch n off => (s.tile n).mergesBad off len
  | _ => false

/-! ### Host memory (R282) -/

/-- Bytes of host memory. -/
def State.hostBytes (s : State) (a n : Nat) : List Byte := Memory.readBytes zeroByte s.host a n

/-- Bytes of host memory written. -/
def State.setHostBytes (s : State) (a : Nat) (bs : List Byte) : State :=
  { s with host := Memory.storeBytes zeroByte s.host a bs }

/-- SPACE and address of a descriptor pointer (R282). -/
def ptrSpace (p : Nat) : Nat := bitsAt p 62 2
def ptrAddr (p : Nat) : Nat :=
  if ptrSpace p = 1 then bitsAt p 0 52 else if ptrSpace p = 2 then bitsAt p 0 40 else bitsAt p 0 48

end Sys2Proof.Machine
end

