-- ==== Sys2Proof/Machine/Flags.lean ====
section
/-! DEFINITION. Status and reason codes, records and their rings, MSI-X messages, events, error records, and
the end of a request: what it discards everywhere (R79, R146, R177, R230, R235). -/

namespace Sys2Proof.Machine

/-! ### Codes -/

/-- The code of a status (R293 Table 8). -/
def Status.code : Status → Nat
  | .ok => 0x0000
  | .okPredicted => 0x0001
  | .okCorrelation => 0x0002
  | .faultSeam => 0x1001
  | .faultWindowClosed => 0x1002
  | .faultBankOff => 0x1003
  | .faultNotReady => 0x1004
  | .faultWorld => 0x1005
  | .faultPartnerLost => 0x1006
  | .faultPassGeneration => 0x1007
  | .faultVaryNotAllowed => 0x1008
  | .faultDescriptor => 0x1009
  | .faultUncorrected => 0x2001
  | .faultDevice => 0x2002
  | .aborted => 0x3001

/-- Whether a status is one of the three OK codes. -/
def Status.isOk (s : Status) : Bool := decide (s.code < 0x1000)

/-- The code of a reason (R436 Table 3). -/
def Reason.code : Reason → Nat
  | .doorbell => 0x0001
  | .descriptor => 0x0002
  | .passImage => 0x0003
  | .seam => 0x0004
  | .terms => 0x0005
  | .record => 0x0006
  | .eyelet => 0x0007
  | .tags => 0x0008
  | .tag => 0x0009
  | .range => 0x000A
  | .pixel => 0x000B
  | .stream => 0x000C
  | .world => 0x000D
  | .bankOff => 0x000E
  | .uncorrected => 0x000F
  | .window => 0x0010
  | .partner => 0x0011
  | .notReady => 0x0012
  | .vary => 0x0013
  | .abort => 0x0014
  | .park => 0x0015
  | .mismatch => 0x0016
  | .generation => 0x0017
  | .testWindow => 0x0018
  | .retiredUnit => 0x0019
  | .macCorrected => 0x0100
  | .macUnverified => 0x0101
  | .genLock => 0x0102
  | .spCorrected => 0x0103
  | .memCorrected => 0x0104
  | .poisoned => 0x0105
  | .ageing => 0x0106
  | .spRow => 0x0107
  | .lbistRetry => 0x0108
  | .role => 0x0109
  | .layout => 0x010A
  | .strap => 0x010B
  | .setup => 0x010C
  | .epochLow => 0x010D
  | .fusesFull => 0x010E
  | .recordLost => 0x010F
  | .macroRetired => 0x0200
  | .tileRetired => 0x0201
  | .thRetired => 0x0202
  | .engineRetired => 0x0203
  | .noSpare => 0x0204
  | .moduleDown => 0x0205
  | .software => 0x0206
  | .stackFailed => 0x0300
  | .linkDown => 0x0301
  | .vrPark => 0x0302
  | .supply => 0x0303
  | .refLost => 0x0304
  | .internal => 0x0305

/-- The class of a reason (R434, R436): 0 corrected, 1 job, 2 device, 3 fatal. -/
def Reason.cls (r : Reason) : Nat :=
  if r.code < 0x100 then 1 else if r.code < 0x200 then 0 else r.code / 0x100

/-- The reason a status files when no rule names another (R436, R293). -/
def Status.reason : Status → Reason
  | .faultSeam => .seam
  | .faultWindowClosed => .window
  | .faultBankOff => .bankOff
  | .faultNotReady => .notReady
  | .faultWorld => .world
  | .faultPartnerLost => .partner
  | .faultPassGeneration => .generation
  | .faultVaryNotAllowed => .vary
  | .faultDescriptor => .descriptor
  | .faultUncorrected => .uncorrected
  | .faultDevice => .retiredUnit
  | _ => .abort

/-- The worlds of a list of both (R295, R437). -/
def bothWorlds : List Nat := [0, 1]

/-! ### MSI-X (R269) -/

/-- A message: sent, or pending while its vector or the function is masked. -/
def State.sendMsix (s : State) (v : Nat) : State :=
  if s.link.funcMask || s.regBit (Off.msix v 12) 0 then s.setRegBit (Off.pba v) (v % 32) true
  else s.emit (.msix v)

/-- An in-band interrupt of the I3C port, repeated until it is acknowledged (R471). -/
def State.raiseIbi (s : State) (b : Nat) : State :=
  ({ s with pins := { s.pins with ibi := s.pins.ibi.filter (fun x => decide (x ≠ b)) ++ [b] } }).emit (.ibi b)

/-! ### Host-memory rings (R274, R291) -/

end Sys2Proof.Machine

namespace Sys2Proof

open Sys2Proof.Machine

/-- Offsets of a ring's BASE, CTRL, TAIL and HEAD (R299, R300, R335). -/
def RingId.baseOff : RingId → Nat
  | .cq c => Off.cq c 0
  | .evq w => Off.wrb w 0
  | .erq w => Off.wrb w 0x40
  | .plog w => Off.dig w 0
  | .pbat w => Off.dig w 0x28
  | .dlog w => Off.dig w 0x40
def RingId.ctrlOff : RingId → Nat
  | .cq c => Off.cq c 8
  | .evq w => Off.wrb w 8
  | .erq w => Off.wrb w 0x48
  | .plog w => Off.dig w 8
  | .pbat w => Off.dig w 0x30
  | .dlog w => Off.dig w 0x48
def RingId.tailOff : RingId → Nat
  | .cq c => Off.cq c 0x10
  | .evq w => Off.wrb w 0x10
  | .erq w => Off.wrb w 0x50
  | .plog w => Off.dig w 0x10
  | .pbat w => Off.dig w 0x34
  | .dlog w => Off.dig w 0x4C
def RingId.headOff : RingId → Nat
  | .cq c => Off.cq c 0x14
  | .evq w => Off.wrb w 0x14
  | .erq w => Off.wrb w 0x54
  | .plog w => Off.dig w 0x14
  | .pbat w => Off.dig w 0x38
  | .dlog w => Off.dig w 0x50

/-- The register of the ring's coalescing fields; the logs use the event ring's of their world (R328). The
error ring has none (R296). -/
def RingId.coalOff : RingId → Option Nat
  | .cq c => some (Off.cq c 0xC)
  | .evq w => some (Off.wrb w 0xC)
  | .erq _ => none
  | .plog w => some (Off.wrb w 0xC)
  | .pbat w => some (Off.wrb w 0xC)
  | .dlog w => some (Off.wrb w 0xC)

/-- Bytes of one entry (R273, R328, R330, R334). -/
def RingId.entry : RingId → Nat
  | .cq _ => 32
  | .evq _ => 32
  | .erq _ => 64
  | .plog _ => 160
  | .pbat _ => 8192
  | .dlog _ => 64

/-- The world number of a ring (R273). -/
def RingId.world : RingId → Nat
  | .cq c => worldNum (decide (4096 ≤ c))
  | .evq w | .erq w | .plog w | .pbat w | .dlog w => w

end Sys2Proof

namespace Sys2Proof.Machine

/-- Fields of a CQ_CTRL word (R299). -/
def ctrlEnable (v : Nat) : Bool := v.testBit 0
def ctrlLog (v : Nat) : Nat := bitsAt v 1 5
def ctrlVector (v : Nat) : Nat := bitsAt v 6 11

/-- Whether a ring is enabled, its size, and how many of its entries are taken (R274, R291). -/
def State.ringOn (s : State) (r : RingId) : Bool := ctrlEnable (s.reg r.ctrlOff)
def State.ringSize (s : State) (r : RingId) : Nat := 2 ^ ctrlLog (s.reg r.ctrlOff)
def State.ringUsed (s : State) (r : RingId) : Nat :=
  (2 ^ 32 - s.reg r.headOff + s.reg r.tailOff) % 2 ^ 32
def State.ringFull (s : State) (r : RingId) : Bool := decide (s.ringSize r ≤ s.ringUsed r)

/-- The control word of submission ring `r`, and the completion ring a control word names (R298). -/
def State.sqCtrl (s : State) (r : Nat) : Nat := s.reg (Off.sq r 8)
def sqCq (v : Nat) : Nat := bitsAt v 7 13

/-- Free records of a completion ring (R279), beside those reserved and those that fetched descriptors will reserve. -/
def State.cqRoom (s : State) (c : Nat) : Nat :=
  let taken := (s.rings.fetched.filter (fun f => decide (sqCq (s.sqCtrl f.ring) = c))).length
  s.ringSize (.cq c) - s.ringUsed (.cq c) - s.reg (Off.cq c 0x18) - taken

/-- PHASE of the next entry (R291): 1 on the first pass, flipping at each wrap. -/
def State.ringPhase (s : State) (r : RingId) : Bool := decide (s.reg r.tailOff / s.ringSize r % 2 = 0)

/-- The host address of the slot the next entry takes (R275, R291). -/
def State.ringSlot (s : State) (r : RingId) : Nat :=
  ptrAddr (s.reg64 r.baseOff) + s.reg r.tailOff % s.ringSize r * r.entry

/-- An entry written at TAIL: `mk` gives its bytes for its PHASE. TAIL advances by one. What stood in the slot is kept as long as
software has not read the entry, for the host may answer its write with an error (R267, log entry 14). -/
def State.pushEntry (s : State) (r : RingId) (mk : Bool → List Byte) : State :=
  let bs := mk (s.ringPhase r)
  let a := s.ringSlot r
  let w : RecWrite := { ring := r, tail := s.reg r.tailOff, addr := a, old := s.hostBytes a bs.length }
  let s := (s.setHostBytes a bs).tally r.tailOff 1
  { s with link := { s.link with
      recWrites := s.link.recWrites.filter (fun x => decide (x.ring ≠ r) || decide ((2 ^ 32 - s.reg r.headOff + x.tail) % 2 ^ 32 < s.ringUsed r)) ++ [w] } }

/-- The pending signalled records of a ring. -/
def State.coalOf (s : State) (r : RingId) : Coal :=
  (s.rings.coal.find? (fun c => decide (c.ring = r))).getD { ring := r, count := 0, since := 0 }

/-- The pending count of a ring written; a count of 0 is not listed. -/
def State.setCoal (s : State) (r : RingId) (count since : Nat) : State :=
  let rest := s.rings.coal.filter (fun c => decide (c.ring ≠ r))
  { s with rings := { s.rings with
      coal := if count = 0 then rest else rest ++ [{ ring := r, count := count, since := since }] } }

/-- A record becomes pending to be signalled (R292): the message goes out when COAL_COUNT have gathered;
COAL_COUNT 0 or 1 sends at once. Sending clears the count. -/
def State.signalRing (s : State) (r : RingId) : State :=
  let v := ctrlVector (s.reg r.ctrlOff)
  match r.coalOff with
  | none => s.sendMsix v
  | some off =>
    let need := bitsAt (s.reg off) 16 8
    let c := s.coalOf r
    if c.count + 1 ≥ need then (s.setCoal r 0 0).sendMsix v
    else s.setCoal r (c.count + 1) (if c.count = 0 then s.now else c.since)

/-! ### Events (R295) -/

/-- The bytes of an event record without its PHASE. -/
def eventBytes (code kind index time : Nat) (payload : List Byte) : List Byte :=
  natLe 2 code ++ [0, BitVec.ofNat 8 kind] ++ natLe 2 index ++ [0, 0] ++ natLe 8 time ++ padTo 16 payload

/-- An event of one world: counted, and written, dropped on a disabled or full ring, or pending while the link
is down. -/
def State.postEventIn (s : State) (w : Nat) (bs : List Byte) : State :=
  let s := s.tally (Off.wrb w 0x18) 1
  let r := RingId.evq w
  if !s.ringOn r || decide (s.ringSize r ≤ s.ringUsed r + s.reg (Off.wrb w 0x20)) then s.tally (Off.wrb w 0x1C) 1
  else if s.link.up then
    (s.pushEntry r (fun ph => overlay bs 2 [BitVec.ofNat 8 (128 * ph.toNat)])).signalRing r
  else ({ s with rings := { s.rings with evWait := s.rings.evWait ++ [(w, bs)] } }).tally (Off.wrb w 0x20) 1

/-- The events that waited for the link are written in the order they were raised. -/
def State.flushEvents (s : State) : State :=
  s.rings.evWait.foldl (fun s e =>
      ((s.untally (Off.wrb e.1 0x20) 1).pushEntry (.evq e.1)
        (fun ph => overlay e.2 2 [BitVec.ofNat 8 (128 * ph.toNat)])).signalRing (.evq e.1))
    { s with rings := { s.rings with evWait := [] } }

/-- PARK_STATUS of R319: 0 running, 1 parking, 2 parked, 3 unparking. -/
def State.parkState (s : State) : Nat := s.regBits (Off.park 0) 0 2

/-- Event codes (R295 Table 10). -/
def Ev.ready : Nat := 0x0001
def Ev.awlMissRate : Nat := 0x0002
def Ev.calibrationDrift : Nat := 0x0003
def Ev.powerModelDivergence : Nat := 0x0004
def Ev.capUnattainable : Nat := 0x0005
def Ev.vrAlert : Nat := 0x0006
def Ev.thermal : Nat := 0x0007
def Ev.partnerAttached : Nat := 0x0008
def Ev.partnerLost : Nat := 0x0009
def Ev.evtStuck : Nat := 0x000A
def Ev.evtOverrun : Nat := 0x000B
def Ev.correlationFault : Nat := 0x000C
def Ev.generatorLock : Nat := 0x000D
def Ev.scrubCorrected : Nat := 0x000E
def Ev.macroRetired : Nat := 0x000F

/-- An event raised in the given worlds. While the device is parked only READY, THERMAL and VR_ALERT are
posted (R316). -/
def State.postEvent (s : State) (worlds : List Nat) (code kind index : Nat) (payload : List Byte) : State :=
  if s.parkState = 2 ∧ code ≠ Ev.ready ∧ code ≠ Ev.thermal ∧ code ≠ Ev.vrAlert then s
  else worlds.foldl (fun s w => s.postEventIn w (eventBytes code kind index s.now payload)) s

/-! ### Error records (R435 to R440) -/

/-- A record of a reason with no request, unit or detail. -/
def ErrRec.of (r : Reason) : ErrRec where
  reason := r
  preempted := false
  nested := false
  kind := 0
  index := 0
  time := 0
  seq := 0
  status := 0
  tag := 0
  ring := 0xFFFF
  layer := 0xFFFF
  stream := 0x80000000
  address := 0
  detail0 := 0
  detail1 := 0
  related := 0
  world := 0
  handled := false

/-- STREAM of an error record: the stream the descriptor names (R285, R287, R301), bit 31 for none. -/
def Request.errStream (q : Request) : Nat :=
  let op := q.opcode
  if op = 0x01 then (if (q.fld 0x0C 4).testBit 31 then 0x80000000 else bitsAt (q.fld 0x0C 4) 0 18)
  else if op = 0x0F ∨ op = 0x10 ∨ op = 0x11 then bitsAt (q.fld 8 4) 0 18
  else if (op = 0x04 ∨ op = 0x05) ∧ q.fld 8 1 = 0 then bitsAt (q.fld 0x0C 4) 0 18
  else 0x80000000

/-- A record of a reason for a request that ends with a status. -/
def ErrRec.ofReq (r : Reason) (q : Request) (st : Status) : ErrRec :=
  { ErrRec.of r with status := st.code, tag := q.tag, ring := q.ring, stream := q.errStream }

/-- The unit a record concerns (R494). -/
def ErrRec.unit (e : ErrRec) (kind index : Nat) : ErrRec := { e with kind := kind, index := index }

/-- The detail items of a record. -/
def ErrRec.details (e : ErrRec) (d0 d1 : Nat) : ErrRec := { e with detail0 := d0, detail1 := d1 }

/-- The 64 bytes of an error record (R435 Table 2). -/
def ErrRec.bytes (e : ErrRec) (phase : Bool) : List Byte :=
  natLe 8 (e.reason.code + 2 ^ 16 * e.reason.cls + 2 ^ 18 * e.preempted.toNat + 2 ^ 19 * e.nested.toNat +
    2 ^ 24 * (e.kind % 256) + 2 ^ 32 * (e.index % 65536) + 2 ^ 63 * phase.toNat) ++
  natLe 8 e.time ++ natLe 4 e.seq ++ natLe 2 e.status ++ natLe 2 e.tag ++ natLe 2 e.ring ++
  natLe 2 e.layer ++ natLe 4 e.stream ++ natLe 8 e.address ++ natLe 8 e.detail0 ++ natLe 8 e.detail1 ++
  natLe 4 e.related ++ natLe 4 0

/-- The last 1,024 records of a list (R437). -/
def keepLast (n : Nat) {α : Type} (l : List α) : List α := l.drop (l.length - n)

/-- The youngest queued corrected or job record, removed (R440). -/
def dropYoungest (q : List ErrRec) : Option (ErrRec × List ErrRec) :=
  match q.reverse.find? (fun e => decide (e.reason.cls < 2)) with
  | some e =>
    let i := q.length - 1 - (q.reverse.findIdx (fun e => decide (e.reason.cls < 2)))
    some (e, q.take i ++ q.drop (i + 1))
  | none => none

/-- A record enters the error queue, is dropped, displaces another or waits on die, as R440 decides. -/
def State.enqueueError (s : State) (e : ErrRec) : State :=
  let c := e.reason.cls
  let q := s.errs.queue
  if c < 2 then
    if 248 ≤ q.length then s.tally (Off.err (0x30 + 4 * c)) 1
    else ({ s with errs := { s.errs with queue := q ++ [e] } }).tally (Off.err (0x40 + 4 * c)) 1
  else if q.length < 256 then
    ({ s with errs := { s.errs with queue := q ++ [e] } }).tally (Off.err (0x40 + 4 * c)) 1
  else match dropYoungest q with
    | some (d, rest) =>
      ((({ s with errs := { s.errs with queue := rest ++ [e] } }).tally (Off.err (0x40 + 4 * c)) 1).untally
        (Off.err (0x40 + 4 * d.reason.cls)) 1).tally (Off.err (0x30 + 4 * d.reason.cls)) 1
    | none =>
      ({ s with errs := { s.errs with overflow := s.errs.overflow ++ [e] } }).tally (Off.err (0x40 + 4 * c)) 1

/-- A record detected for one world: SEQ and TIME taken at detection, NESTED and RELATED while another record is
in handling, a copy kept on die, and the record queued. -/
def State.raiseErrorIn (s : State) (w : Nat) (e : ErrRec) : State :=
  let seq := if w = 0 then s.errs.seqNs else s.errs.seqS
  let nested := !s.errs.handling.isEmpty
  let related := match s.errs.handling with
    | h :: _ => h.seq
    | [] => 0
  let e := { e with time := s.now, seq := seq, world := w, nested := nested, related := related }
  let errs := if w = 0 then
      { s.errs with seqNs := (s.errs.seqNs + 1) % 2 ^ 32, onDieNs := keepLast 1024 (s.errs.onDieNs ++ [e]) }
    else { s.errs with seqS := (s.errs.seqS + 1) % 2 ^ 32, onDieS := keepLast 1024 (s.errs.onDieS ++ [e]) }
  let s := ({ s with errs := errs }).tally (Off.err (0x10 + 4 * e.reason.cls)) 1
  let s := if nested then s.tally (Off.err 0x54) 1 else s
  s.enqueueError e

/-- A record filed in the given worlds (R437). -/
def State.fileError (s : State) (worlds : List Nat) (e : ErrRec) : State :=
  worlds.foldl (fun s w => s.raiseErrorIn w e) s

/-! ### What the end of a request discards -/

/-- The open ledger slots of a request discarded (R79). -/
def State.discardSlots (s : State) (n i : Nat) : State :=
  let t := s.tile n
  let gone := t.slots.filter (fun x => decide (x.req = i))
  if gone.isEmpty then s else
    let led := t.ledger.filter (fun e => !gone.any (fun x => decide (x.first ≤ e.1) && decide (e.1 < x.first + x.size)))
    ((s.setTile n { t with slots := t.slots.filter (fun x => decide (x.req ≠ i)), ledger := led }).tally
      (Off.tile n 0x310) gone.length).untally (Off.tile n 0x314) gone.length

/-- The scatter accumulator entries and verge records of a request discarded (R176, R177). -/
def State.discardScatter (s : State) (n i : Nat) : State :=
  let t := s.tile n
  let own := match t.scatOwner with
    | some (q, _) => decide (q = i)
    | none => false
  let k := if own then t.scat.length else 0
  let v := (t.verge.filter (fun x => decide (x.req = i))).length
  let s := s.setTile n { t with
    scat := if own then [] else t.scat
    scatOwner := if own then none else t.scatOwner
    verge := t.verge.filter (fun x => decide (x.req ≠ i)) }
  (((s.tally (Off.tile n 0x610) k).untally (Off.tile n 0x614) k).tally (Off.tile n 0x624) v).untally
    (Off.tile n 0x628) v

/-- How many records of a circular region are complete without a gap, in write order. -/
def landedRun (l : List CircRec) : Nat := (l.takeWhile (·.landed)).length

/-- The records of a request discarded from one circular region (R230), which stand in write order and of which the first OCCUPANCY are
readable: one that TAIL had not counted yet counts as written and discarded, and TAIL moves on over the complete records that stood
behind it. -/
def State.discardRecords (s : State) (n i c : Nat) : State :=
  let l := (s.tile n).circ.filter (fun x => decide (x.cq = c))
  let occ := s.reg (Off.tile n (0xA0C + 0x10 * c))
  let gone := (l.filter (fun x => decide (x.req = i))).length
  let read := ((l.take occ).filter (fun x => decide (x.req = i))).length
  let run := landedRun (l.filter (fun x => decide (x.req ≠ i))) - (occ - read)
  (((s.tally (Off.tile n (0xA08 + 0x10 * c)) gone).tally (Off.tile n (0xA00 + 0x10 * c)) (gone - read + run)).untally
    (Off.tile n (0xA0C + 0x10 * c)) read).tally (Off.tile n (0xA0C + 0x10 * c)) run

/-- The circular records of a request discarded from every region of a tile (R230). -/
def State.discardCirc (s : State) (n i : Nat) : State :=
  ((List.range 16).foldl (fun s c => s.discardRecords n i c) s).updTile n (fun t =>
    { t with circ := t.circ.filter (fun x => decide (x.req ≠ i)) })

/-- The markers a request's arrival entries hold, discarded (R235). -/
def State.discardMarkers (s : State) (n i : Nat) : State :=
  let t := s.tile n
  let k := sumNat ((t.arrivals.filter (fun x => decide (x.req = i))).map (·.count))
  let s := s.setTile n { t with arrivals := t.arrivals.filter (fun x => decide (x.req ≠ i)) }
  (s.tally (Off.tile n 0x928) k).untally (Off.tile n 0x92C) k

/-- The chunks of a request queued at a tile, discarded (R146). -/
def State.discardChunks (s : State) (n i : Nat) : State :=
  let t := s.tile n
  let k := (t.chunks.filter (fun x => decide (x.req = i))).length
  let s := s.setTile n { t with
    chunks := t.chunks.filter (fun x => decide (x.req ≠ i))
    memberTerms := t.memberTerms.filter (fun x => decide (x.1.1 ≠ i)) }
  (s.tally (Off.tile n 0x530) k).untally (Off.tile n 0x534) k

/-- SP_SB_OCCUPIED of a tile (R235). -/
def State.syncBoard (s : State) (n : Nat) : State :=
  let t := s.tile n
  s.setReg (Off.tile n 0x91C) (t.sb.length + 2 ^ 8 * t.arrivals.length)

/-- The place of a queued request that is not in front: where it was put aside, else the start of the list. -/
def Tile.pcOf (t : Tile) (q : Nat) : Nat :=
  match t.batchPc.find? (fun x => decide (x.1 = q)) with
  | some x => x.2
  | none => 0

/-- A macro whose shadow set is empty again. -/
def Macro.clearShadow (x : Macro) : Macro :=
  { x with shadow := [], shadowTag := 0, shadowAt := 0, shadowFinal := false, shadowTerms := 0, shadowReq := 0, shadowIdx := 0, shadowWord := 0 }

/-- The steps of a request leave a tile's sequencer and scoreboard; the macros they used are free (R294). -/
def State.discardSteps (s : State) (n i : Nat) : State :=
  let t := s.tile n
  let front := match t.queue with
    | q :: _ => decide (q = i)
    | [] => false
  let s := s.setTile n { t with
    lastStep := if t.queue.contains i || t.running.any (fun x => decide (x.req = i)) then s.now else t.lastStep
    running := t.running.filter (fun x => decide (x.req ≠ i))
    sb := t.sb.filter (fun x => decide (x.req ≠ i))
    consumed := t.consumed.filter (fun x => decide (x.1 ≠ i))
    queue := t.queue.filter (fun q => decide (q ≠ i))
    batchPc := t.batchPc.filter (fun x => decide (x.1 ≠ i))
    rotReady := t.rotReady.filter (fun q => decide (q ≠ i))
    pc := if front then t.pcOf ((t.queue.filter (fun q => decide (q ≠ i))).headD i) else t.pc }
  let s := ((List.range 64).filter (fun m => decide ((s.mac n m).step.isSome) && decide ((s.mac n m).workReq = i))).foldl (fun s m =>
    s.updMac n m (fun x => { x with step := none, insole := [], work := [], count := 0, swapDue := false, finalDue := false })) s
  (((List.range 64).filter (fun m => !(s.mac n m).shadow.isEmpty && decide ((s.mac n m).shadowReq = i))).foldl (fun s m =>
    s.updMac n m Macro.clearShadow) s).syncBoard n

/-- Everything a request holds on one tile, discarded. -/
def State.discardOnTile (s : State) (n i : Nat) : State :=
  ((((((s.discardSlots n i).discardScatter n i).discardCirc n i).discardMarkers n i).discardChunks n i).discardSteps n i)

/-- A frame's binding to a unit, its map and its bytes, freed (R207). -/
def ThUnit.freeFrame (x : ThUnit) (i : Nat) : ThUnit :=
  { x with frames := x.frames.filter (fun j => decide (j ≠ i))
           changed := x.changed.filter (fun c => decide (c.1 ≠ i))
           source := x.source.filter (fun c => decide (c.1 ≠ i)) }

/-- The toe-heel entries of a request still queued, discarded (R202); its frame's map is freed. The entry a unit runs leaves
it at TOEHEEL_ENTRY_DONE. -/
def State.discardTh (s : State) (u i : Nat) : State :=
  let x := s.thUnit u
  let k := (x.queue.filter (fun e => decide (e.req = i))).length
  if k = 0 ∧ x.frames.contains i = false then s else
    ((s.setTh u ({ x with queue := x.queue.filter (fun e => decide (e.req ≠ i)) }.freeFrame i)).tally (Off.th u 0xC) k).untally
      (Off.th u 0x10) k

/-- The incomplete layer digests of a request, discarded (R328). -/
def State.discardDigests (s : State) (i : Nat) (w : Nat) : State :=
  let k := (s.audit.digests.filter (fun d => decide (d.req = i))).length
  ({ s with audit := { s.audit with digests := s.audit.digests.filter (fun d => decide (d.req ≠ i)) } }).tally
    (Off.dig w 0x5C) k

/-- Everything a request holds, discarded: on every tile, in the toe-heel queues, in the digest engines. -/
def State.discardReq (s : State) (i : Nat) (secure : Bool) : State :=
  let s := (s.tiles.map (·.1)).foldl (fun s n => s.discardOnTile n i) s
  let s := (List.range 16).foldl (fun s u => s.discardTh u i) s
  s.discardDigests i (worldNum secure)

/-- A request ends: its status is the first given (R293), it waits for its final record, and when it did not end
OK its open state is discarded. -/
def State.endReq (s : State) (i : Nat) (st : Status) : State :=
  match s.req? i with
  | none => s
  | some r =>
    if r.phase = .finished then s
    else
      let s := s.setReq i { r with phase := .finished, status := st, held := false, aux := 0 }
      if st.isOk then s else s.discardReq i r.secure

/-- A request ends with a status other than OK and files its job-class record (R293), which `f` fills in. -/
def State.failReq (s : State) (i : Nat) (st : Status) (reason : Reason) (f : ErrRec → ErrRec) : State :=
  match s.req? i with
  | none => s
  | some r =>
    if r.phase = .finished then s
    else (s.endReq i st).fileError [worldNum r.secure] (f (ErrRec.ofReq reason r st))

/-- A request ends by a toll refusal or an uncorrectable line: ADDRESS names the lowest refused address (R490), KIND, INDEX and DETAIL the unit
(R494), LAYER that of the step (R435); an error of host memory, whose address comes as a pointer, has no device address (R282). -/
def State.failAccessAt (s : State) (i layer : Nat) (st : Status) (a : Nat) : State :=
  let host := decide (2 ^ 62 ≤ a)
  let kind : Nat × Nat := if host then (0, 0) else match st, placeOf a with
    | .faultBankOff, .scratch n _ => (1, n)
    | .faultUncorrected, .scratch n _ => (1, n)
    | .faultUncorrected, .hbm => (3, s.causewayOf a)
    | _, _ => (0, 0)
  let det : Nat × Nat := if host then (0, 0) else match st, placeOf a with
    | .faultBankOff, .scratch n off => (n, off / 0x10000)
    | .faultUncorrected, .scratch n off => (n, off / 0x10000)
    | _, _ => (0, 0)
  s.failReq i st st.reason (fun e => { (e.unit kind.1 kind.2).details det.1 det.2 with address := if host then 0 else a, layer := layer })

/-- The same of an access that no step makes. -/
def State.failAccess (s : State) (i : Nat) (st : Status) (a : Nat) : State := s.failAccessAt i 0xFFFF st a

end Sys2Proof.Machine
end

