-- ==== Sys2Proof/Machine/Visible.lean ====
section
/-! DEFINITION. What software sees of BAR0: the registers of each world, and the word a read shows (R10, R178, R360, R383, R483, R484 to
R486). -/

namespace Sys2Proof.Machine

/-! ### Roles and blocks -/

/-- IX_ROLE: a confirmed manager, a sub-manager (R340). -/
def State.confirmed (s : State) : Bool := s.regBit (Off.ix 0) 4
def State.isManager (s : State) : Bool := s.regBit (Off.ix 0) 1 && s.confirmed
def State.isSub (s : State) : Bool := s.regBit (Off.ix 0) 3 && s.confirmed && !s.isManager

/-- Register and bit of a block, in the order tiles, toe-heel units, ports, engines (R433). -/
def worldPlace (b : Nat) : Nat × Nat :=
  if b < 1024 then (Off.sec (0x100 + 4 * (b / 32)), b % 32)
  else if b < 1040 then (Off.sec 0x180, b - 1024)
  else if b < 1056 then (Off.sec 0x184, b - 1040)
  else (Off.sec (0x1A0 + 4 * ((b - 1056) / 32)), (b - 1056) % 32)

/-- The first block of a word of the world map and how many it holds; the words between the fields hold none. -/
def worldWord (k : Nat) : Nat × Nat :=
  if k < 32 then (32 * k, 32)
  else if k = 32 then (1024, 16)
  else if k = 33 then (1040, 16)
  else if 40 ≤ k ∧ k < 48 then (1056 + 32 * (k - 40), 32)
  else (0, 0)

/-- The world a block has now. -/
def State.blockSecure (s : State) (b : Nat) : Bool := s.regBit (worldPlace b).1 (worldPlace b).2

/-! ### Streams that are not closed -/

def Cx.generation : Nat := 0x04
def Cx.base : Nat := 0x08
def Cx.units : Nat := 0x10

/-- STATE of a stream: 0 closed, 1 open, 2 closing; and KEY_PENDING. -/
def State.streamState (s : State) (st : Nat) : Nat := s.ctx st 0 4 % 4
def State.keyPending (s : State) (st : Nat) : Bool := (s.ctx st 0 4).testBit 3
def State.setStreamState (s : State) (st v : Nat) : State := s.setCtx st 0 4 (putBits (s.ctx st 0 4) 0 2 v)
def State.setKeyPending (s : State) (st : Nat) (b : Bool) : State := s.setCtx st 0 4 (putBit (s.ctx st 0 4) 3 b)

/-- The streams that are not closed: a listed first byte of the context table whose STATE is not 0. -/
def State.openStreams (s : State) : List Nat :=
  let b := s.areaBase 0
  (s.mem.filter (fun e => decide (b ≤ e.1) && decide (e.1 < b + 0x2000000) && decide ((e.1 - b) % 128 = 0) &&
    decide (e.2.toNat % 4 ≠ 0))).map (fun e => (e.1 - b) / 128)

/-- The area of a world's delta state: base and units (R242, R413). -/
def State.deltaArea (s : State) (secure : Bool) : Nat × Nat :=
  let n := if secure then 6 else 7
  (s.areaBase n, s.areaSize n / 0x200000)

/-- The units the streams of a world hold, but for one stream. -/
def State.unitsHeld (s : State) (secure : Bool) (but : Nat) : List (Nat × Nat) :=
  (s.openStreams.filter (fun st => (s.streamSecure st == secure) && decide (st ≠ but))).map
    (fun st => (s.ctx st Cx.base 8, s.ctx st Cx.base 8 + s.ctx st Cx.units 4 * 0x200000))

/-! ### Where registers lie -/

/-- Whether an offset is in `[lo, hi)`. -/
def offIn (off lo hi : Nat) : Bool := decide (lo ≤ off) && decide (off < hi)

/-- Whether an offset is a secure-only register, or in the block of a unit or window of the secure world (R10, R484). -/
def State.secureReg (s : State) (off : Nat) : Bool :=
  offIn off (Off.sq 4096 0) (Off.sq 4160 0) || offIn off (Off.cq 4096 0) (Off.cq 4160 0) || offIn off (Off.wrb 1 0) (Off.wrb 2 0) ||
  offIn off (Off.dig 1 0) (Off.dig 2 0) || offIn off (Off.mb 1 0) (Off.mb 2 0) || offIn off (Off.mem 0) (Off.mem 4) ||
  offIn off (Off.mem 0x20) (Off.mem 0xA0) || offIn off (Off.park 8) (Off.park 0xC) || offIn off (Off.ix 0) (Off.ix 4) ||
  offIn off (Off.pwr 4) (Off.pwr 8) || offIn off (Off.pwr 0x14) (Off.pwr 0x18) || offIn off (Off.ms 8) (Off.ms 0x10) ||
  offIn off (Off.sec 0x10) (Off.sec 0x18) || offIn off (Off.sec 0x8C) (Off.sec 0x98) || offIn off (Off.sec 0x100) (Off.sec 0x188) ||
  offIn off (Off.sec 0x1A0) (Off.sec 0x1C0) || offIn off (Off.sec 0x200) (Off.sec 0x2A4) ||
  offIn off (Off.region 0) (Off.region 1024) || offIn off (Off.err 0) (Off.err 8) || offIn off (Off.err 0x60) (Off.err 0x64) ||
  offIn off (Off.snapAddr 1) (Off.snapAddr 2) || offIn off (Off.snapData 1) (Off.snapData 2) ||
  (offIn off (Off.tile 0 0) (Off.tile 1024 0) && s.tileSecure ((off - Off.tile 0 0) / 0x1000)) ||
  (offIn off (Off.th 0 0) (Off.th 16 0) && s.thSecure ((off - Off.th 0 0) / 0x100)) ||
  (offIn off (Off.ixp 0 0) (Off.ixp 16 0) && s.portSecure ((off - Off.ixp 0 0) / 0x200)) ||
  (offIn off (Off.win 0 0) (Off.win 256 0) && s.regBit (Off.win ((off - Off.win 0 0) / 0x40) 0) 3)

/-- Whether an offset is the low half of a 64-bit register that software writes (R483). -/
def rw64 (off : Nat) : Bool :=
  (offIn off (Off.sq 0 0) (Off.sq 4160 0) && decide (off % 0x40 = 0)) || (offIn off (Off.cq 0 0) (Off.cq 4160 0) && decide (off % 0x40 = 0)) ||
  [Off.wrb 0 0, Off.wrb 0 0x40, Off.wrb 1 0, Off.wrb 1 0x40, Off.dig 0 0, Off.dig 0 0x28, Off.dig 0 0x40, Off.dig 1 0, Off.dig 1 0x28,
    Off.dig 1 0x40, Off.ms 8, Off.mb 0 8, Off.mb 1 8, Off.snapAddr 0, Off.snapAddr 1].contains off ||
  (offIn off (Off.memBase 0) (Off.memProt 8) && decide (off % 8 = 0)) ||
  (offIn off (Off.map 0 0) (Off.map 1024 0) && decide (off % 0x20 = 8)) || (offIn off (Off.pwr 0x80) (Off.pwr 0xC0) && decide (off % 8 = 0)) ||
  (offIn off (Off.ms 0x200) (Off.ms 0x240) && decide (off % 0x10 = 8)) || (offIn off (Off.region 0) (Off.region 1024) && decide (off % 8 = 0))

/-- Whether an offset is the low half of a 64-bit register. -/
def isLow64 (off : Nat) : Bool :=
  rw64 off ||
  [Off.idSerial, Off.stream 8, Off.stream 0x10, Off.stream 0x20, Off.stream 0x28, Off.awl 8, Off.mem 0x18, Off.hl 0x28, Off.park 0x10,
    Off.ix 0x18, Off.ms 0, Off.ms 0x20, Off.rdy 8, Off.sec 0x10, Off.sec 0x90].contains off ||
  (offIn off (Off.slotState 0) (Off.slotState 8) && [0x8, 0x10, 0x18].contains (off % 0x20)) ||
  (offIn off (Off.ixp 0 0) (Off.ixp 16 0) && decide (off % 0x200 = 8)) ||
  (offIn off (Off.win 0 0) (Off.win 256 0) && [0x8, 0x10].contains (off % 0x40)) ||
  (offIn off (Off.pwr 0x28) (Off.pwr 0x50) && decide (off % 8 = 0)) ||
  (offIn off (Off.ms 0x100) (Off.ms 0x200) && decide (off % 0x20 = 0x10)) ||
  (offIn off (Off.tile 0 0) (Off.tile 1024 0) && [0x220, 0x228, 0x230, 0xC10].contains (off % 0x1000))

/-- Whether the I3C port reaches an offset (R471). -/
def i3cReach (off : Nat) : Bool :=
  offIn off (Off.pwr 0) (Off.pwr 0x10000) || offIn off (Off.ms 0) (Off.ms 0x10000) || offIn off (Off.rdy 0) (Off.rdy 0x10000) ||
  decide (off = Off.sec 0) || offIn off (Off.err 0x10) (Off.err 0x58) || [Off.err 0x5C, Off.err 0x64, Off.err 0x68, Off.err 0x6C].contains off

/-! ### What a read shows -/

/-- A 64-bit value shown by the half at an offset. -/
def halfOf (v off low : Nat) : Nat := if off = low then v % 2 ^ 32 else v / 2 ^ 32 % 2 ^ 32

/-- A world map word reads back as it was written, pending blocks included (R485). -/
def State.mapWord (s : State) (off : Nat) : Nat :=
  let (first, n) := worldWord ((off - Off.sec 0x100) / 4)
  ofSetBits ((List.range n).filter (fun i => match s.sec.wantMap.find? (fun e => decide (e.1 = first + i)) with
    | some e => e.2
    | none => s.blockSecure (first + i)))

/-- The generation whose values a global register shows, where they are hidden from the non-secure world (R486). -/
def State.hiddenGen (s : State) (off : Nat) : Bool :=
  if off = Off.genActive then s.regBit Off.genFlags 3
  else if off = Off.genPending then (match s.slotOf (s.reg Off.genPending) with
    | some e => e.2.secure
    | none => false)
  else offIn off (Off.slotState 0) (Off.slotState 8) && decide (4 ≤ off % 0x20) && s.regBit (off / 0x20 * 0x20) 3

/-- Whether a device lies in a sub-manager's own subtree: itself, and those its map holds. -/
def State.inSubtree (s : State) (d : Nat) : Bool := decide (d = s.regBits (Off.ix 4) 0 10) || decide (s.regBits (Off.map d 0) 0 2 ≠ 0)

/-- A group table's word on a sub-manager: the members of its own subtree, and of GRP_STATUS their number (R360). -/
def State.subtreeWord (s : State) (off : Nat) : Nat :=
  if off < Off.grpStatus 0 then
    let first := 32 * ((off - Off.grp 0 0) / 4 % 32)
    ofSetBits ((List.range 32).filter (fun i => (s.reg off).testBit i && s.inSubtree (first + i)))
  else
    let g := (off - Off.grpStatus 0) / 4
    let n := ((List.range 1024).filter (fun d => s.regBit (Off.grp g (4 * (d / 32))) (d % 32) && s.inSubtree d)).length
    putBits (s.reg off) 16 11 n

/-- The word a read of a world shows at an offset (R10, R360, R383, R484, R485, R486). -/
def State.visibleWord (s : State) (secure : Bool) (off : Nat) : Nat :=
  if !secure && s.secureReg off then (if off = Off.ix 0 then s.reg off &&& 0x11 else 0)
  else if offIn off (Off.tile 0 0) (Off.tile 1024 0) && s.unbacked ((off - Off.tile 0 0) / 0x1000) then 0
  else if !secure && s.hiddenGen off then 0
  else if offIn off (Off.map 0 0) (Off.grpStatus 256) && !(s.isManager || s.isSub) then 0
  else if s.isSub && offIn off (Off.grp 0 0) (Off.grpStatus 256) then s.subtreeWord off
  else if offIn off (Off.ms 0) (Off.ms 8) then halfOf s.now off (Off.ms 0)
  else if off = Off.stream 0 then (s.openStreams.filter (fun st => (s.streamSecure st == secure) && decide (s.streamState st = 1))).length
  else if off = Off.stream 0x18 then
    (s.deltaArea secure).2 - sumNat ((s.unitsHeld secure 262144).map (fun r => (r.2 - r.1) / 0x200000))
  else if offIn off (Off.stream 0x20) (Off.stream 0x28) then halfOf (s.areaSize 3 / 1024) off (Off.stream 0x20)
  else if offIn off (Off.awl 8) (Off.awl 0x10) then halfOf (s.areaBase 2) off (Off.awl 8)
  else if offIn off (Off.sec 0x100) (Off.sec 0x1C0) then s.mapWord off
  else s.reg off

end Sys2Proof.Machine
end

