-- ==== Sys2Proof/Machine/Ranges.lean ====
section
/-! DEFINITION. The range transfers of the movers (R490): the lines of a range, the errors a read meets (R246), register accesses (R482). -/

namespace Sys2Proof.Machine

/-! ### Range transfers of the movers (R490) -/

/-- How a range transfer ended: in full, at a refusal or an error (status and lowest address), or before a
line that waits. -/
inductive Stop where
  | none
  | refused (st : Status) (addr : Nat)
  | waits
deriving DecidableEq, Repr

/-- The lines of a range: address and bytes of each, in increasing order. -/
def linePieces (a len : Nat) : List (Nat × Nat) :=
  if len = 0 then [] else
    (List.range ((a + len - 1) / 64 - a / 64 + 1)).map (fun i =>
      let lo := max a ((a / 64 + i) * 64)
      let hi := min (a + len) ((a / 64 + i + 1) * 64)
      (lo, hi - lo))

/-! ### The units of HBM as a read finds them (R246) -/

/-- A corrected unit (R246): counted, a record filed in both worlds. -/
def State.correctUnit (s : State) (a : Nat) : State :=
  let c := s.causewayOf a
  (s.tally (Off.cway c 0) 1).fileError bothWorlds { (ErrRec.of .memCorrected).unit 3 c with address := a / 64 * 64 }

/-- A unit poisoned (R246, R248). -/
def State.poisonUnit (s : State) (a : Nat) : State :=
  if s.hbm.poison.contains (a / 64) then s
  else ({ s with hbm := { s.hbm with poison := s.hbm.poison ++ [a / 64] } }).tally (Off.cway (s.causewayOf a) 8) 1

/-- A unit whose stored bits have changed, met by a read: corrected and written back, or poisoned. -/
def State.meetFlip (s : State) (f : Nat × Bool) : State :=
  let s := { s with hbm := { s.hbm with flips := s.hbm.flips.filter (fun g => decide (g.1 ≠ f.1)) } }
  if f.2 then s.poisonUnit (64 * f.1) else s.correctUnit (64 * f.1)

/-- The changed units of a range met by a read. -/
def State.meet (s : State) (a len : Nat) : State :=
  (s.hbm.flips.filter (fun f => decide (0 < len) && decide (a / 64 ≤ f.1) && decide (f.1 ≤ (a + len - 1) / 64))).foldl
    (fun s f => s.meetFlip f) s

/-- The poisoned unit of lowest address in a range of HBM that the device reads for itself (R246). -/
def State.poisonIn (s : State) (a n : Nat) : Option Nat :=
  ((s.hbm.poison.filter (fun u => decide (a < 64 * u + 64) && decide (64 * u < a + n))).foldl
    (fun (m : Option Nat) u => some (match m with
      | some v => min v u
      | none => u)) none).map (fun u => max a (64 * u))

/-- Bytes below a refusal put back: what a range that may not be written in part holds. -/
def State.putBack (s t : State) (ptr k : Nat) : State :=
  if ptrSpace ptr = 1 then t.setHostBytes (ptrAddr ptr) (s.hostBytes (ptrAddr ptr) k)
  else t.setMemBytes (ptrAddr ptr) (s.memBytes (ptrAddr ptr) k)

/-- Whether whole regions that pass a test cover an address range: one entry after the other. -/
def coveredBy (l : List (Nat × Nat)) (ok : Nat → Bool) (hi : Nat) : Nat → Nat → Bool
  | 0, _ => false
  | k + 1, a =>
    if hi ≤ a then true
    else match l.find? (fun e => Region.covers e.2 a) with
      | some e => ok e.2 && coveredBy l ok hi k ((Region.base e.2 + Region.size e.2) * 2 ^ 21)
      | none => false

/-! ### Register accesses of the movers (R482) -/

/-- Whether an access of BAR0 has a size and a place that R482 accepts. -/
def bar0Fits (off len : Nat) : Bool := (decide (len = 4) || decide (len = 8)) && decide (off % len = 0)

/-- One register of an access that the other world may not make, counted (R10). -/
def State.noteSecret (s : State) (secure : Bool) (off : Nat) : State :=
  if !secure && s.secureReg off then s.countViolation false 0 (0x030000000000 + off) else s

/-- A mover's read of BAR0 (R482): the registers as its world sees them, or zeros where the access is refused and counted. -/
def State.readRegs (s : State) (secure : Bool) (off len : Nat) : State × List Byte :=
  if bar0Fits off len = false then (s.tally Off.badAccess (if len = 8 then 2 else 1), List.replicate len 0)
  else
    let offs := (List.range (len / 4)).map (fun i => off + 4 * i)
    (offs.foldl (fun s o => s.noteSecret secure o) s, offs.flatMap (fun o => natLe 4 (s.visibleWord secure o)))

/-- A mover's write of BAR0 (R482): made before the command ends, or counted and lost. -/
def State.writeRegs (s : State) (secure : Bool) (off : Nat) (bs : List Byte) : State :=
  if bar0Fits off bs.length = false then s.tally Off.badAccess (if bs.length = 8 then 2 else 1)
  else { s with regWrites := s.regWrites ++ [{ off := off, size := bs.length, value := leNat bs, secure := secure }] }

/-! ### Lines and ranges -/

/-- The offset in BAR0 of a device address in the set-up range. -/
def bar0Off (a : Nat) : Nat := a - 0x030000000000

/-- SLEEP_STATUS: the package's state and how many tiles are in Doze and in Nap (R405). -/
def State.syncSleep (s : State) : State :=
  let pkg := match s.sleep.pkg with
    | .awake => 0
    | .rest => 3
    | .deep => 4
  let count := fun (z : TileSleep) => (s.tiles.filter (fun e => decide (e.2.sleep = z))).length
  s.setReg (Off.ms 0x38) (pkg + 2 ^ 4 * count .doze + 2 ^ 16 * count .nap)

/-- Whether a unit is under test (R442): its event KIND and index. -/
def State.isTested (s : State) (kind index : Nat) : Bool :=
  s.errs.underTest.any (fun x => decide (x.1 = kind) && decide (x.2.1 = index))

/-- Whether another tile of a tile's readiness group is under test (R443). -/
def State.mateTested (s : State) (n : Nat) : Bool :=
  s.errs.underTest.any (fun x => decide (x.1 = 1) && decide (x.2.1 / 16 = n / 16) && decide (x.2.1 ≠ n))

/-- The end of a frame gap of a tile noted (R443): in Doze, with no other tile of its readiness group under test. -/
def State.noteGap (s : State) (n : Nat) : State :=
  if (s.tile n).sleep = .doze ∧ s.mateTested n = false then s.updTile n (fun t => { t with gapLast := s.now }) else s

/-- A tile's sleep state changed. -/
def State.setSleep (s : State) (n : Nat) (z : TileSleep) : State :=
  ((s.noteGap n).updTile n (fun t => { t with sleep := z, sleepSince := s.now })).syncSleep

/-- A sleeping tile woken (R388). -/
def State.wakeTile (s : State) (n : Nat) : State := if (s.tile n).sleep = .awake then s else s.setSleep n .awake

/-- An access over the mesh to a tile's scratchpad wakes the tile (R388). -/
def State.wakeAt (s : State) (a : Nat) : State :=
  match placeOf a with
  | .scratch n _ => s.wakeTile n
  | _ => s

/-- The tally of an uncorrectable read or merge (R231, R246). -/
def State.countUncorrected (s : State) (a : Nat) : State :=
  match placeOf a with
  | .hbm => s.tally (Off.cway (s.causewayOf a) 4) 1
  | .scratch n off => s.tally (Off.tile n (if (s.tile n).weightClass off then 0x914 else 0x90C)) 1
  | _ => s

/-- A read of HBM ranges that the device makes for itself (R246): the changed units it meets are corrected or poisoned; the first poisoned
unit it meets, whose detection is counted (R253). -/
def State.ownReads (s : State) (l : List (Nat × Nat)) : State × Option Nat :=
  let t := l.foldl (fun (s : State) (p : Nat × Nat) => s.meet p.1 p.2) s
  match l.findSome? (fun p => t.poisonIn p.1 p.2) with
  | some a => (t.countUncorrected a, some a)
  | none => (t, none)

/-- One line read by a mover: after the toll check, a protection error ends the read (R246, R232). -/
def State.readLine (s : State) (secure tableRead : Bool) (a len : Nat) : State × List Byte × Stop :=
  let v := s.toll secure false false tableRead a len
  match v with
  | .wait => (s, [], .waits)
  | .admitted =>
    let s := ((s.wakeAt a).snoopLine a).meet a len
    if s.lineBad a len then (s.countUncorrected a, [], .refused .faultUncorrected a)
    else (s, s.loadLine a len, .none)
  | .bar0 =>
    let r := s.readRegs secure (bar0Off a) len
    (r.1, r.2, .none)
  | v => (s.countRefusal v secure 0 a, [], .refused v.status a)

/-- A range read line by line up to its first refusal: the bytes below it and how it ended. -/
def State.readLines (s : State) (secure tableRead : Bool) : List (Nat × Nat) → State × List Byte × Stop
  | [] => (s, [], .none)
  | (a, n) :: r =>
    match s.readLine secure tableRead a n with
    | (s, bs, .none) =>
      let (s, rest, st) := s.readLines secure tableRead r
      (s, bs ++ rest, st)
    | (s, _, st) => (s, [], st)

/-- The first address of a range of host memory that the host answers with an error or with poison (R282). -/
def State.hostStop (s : State) (a len : Nat) : Option Nat :=
  (linePieces a len).findSome? (fun p => if s.hostBad.contains (p.1 / 64) then some p.1 else none)

/-- A range read through a descriptor pointer. -/
def State.readRange (s : State) (secure tableRead : Bool) (ptr len : Nat) : State × List Byte × Stop :=
  if ptrSpace ptr = 1 then
    match s.hostStop (ptrAddr ptr) len with
    | some b => (s, s.hostBytes (ptrAddr ptr) (b - ptrAddr ptr), .refused .faultUncorrected (2 ^ 62 + b))
    | none => (s, s.hostBytes (ptrAddr ptr) len, .none)
  else s.readLines secure tableRead (linePieces (ptrAddr ptr) len)

/-- One line written by a mover. -/
def State.writeLine (s : State) (secure : Bool) (a : Nat) (bs : List Byte) : State × Stop :=
  let v := s.toll secure false true false a bs.length
  match v with
  | .wait => (s, .waits)
  | .admitted =>
    let s := (s.wakeAt a).snoopLine a
    let s := if s.mergesUnit a bs.length then s.meet a bs.length else s
    if s.mergeBad a bs.length then (s.countUncorrected a, .refused .faultUncorrected a)
    else (s.storeLine a bs, .none)
  | .bar0 => (s.writeRegs secure (bar0Off a) bs, .none)
  | v => (s.countRefusal v secure 0 a, .refused v.status a)

/-- A range written line by line up to its first refusal: the bytes stored and how it ended. -/
def State.writeLines (s : State) (secure : Bool) (bs : List Byte) :
    List (Nat × Nat) → State × Nat × Stop
  | [] => (s, 0, .none)
  | (a, n) :: r =>
    match s.writeLine secure a (bs.take n) with
    | (s, .none) =>
      let (s, k, st) := s.writeLines secure (bs.drop n) r
      (s, n + k, st)
    | (s, st) => (s, 0, st)

/-- A range written through a descriptor pointer: the bytes stored and how it ended. -/
def State.writeRange (s : State) (secure : Bool) (ptr : Nat) (bs : List Byte) : State × Nat × Stop :=
  if ptrSpace ptr = 1 then
    match s.hostStop (ptrAddr ptr) bs.length with
    | some b => (s.setHostBytes (ptrAddr ptr) (bs.take (b - ptrAddr ptr)), b - ptrAddr ptr, .refused .faultUncorrected (2 ^ 62 + b))
    | none => (s.setHostBytes (ptrAddr ptr) bs, bs.length, .none)
  else s.writeLines secure bs (linePieces (ptrAddr ptr) bs.length)

/-- The lines of a destination beyond a refusal that an earlier-issued write may have reached: each admitted
line holds old or new bytes, a free choice (R8, R490; log entry 12). The lowest refused line is the first. -/
def State.mixLines (s : State) (secure : Bool) (bs : List Byte) : List (Nat × Nat) → State
  | [] => s
  | (a, n) :: r =>
    let s := if s.toll secure false true false a n = .admitted ∧ s.mergeBad a n = false ∧ (Config.freeByte s.free).getLsbD 0 then
      ((s.wakeAt a).snoopLine a).storeLine a (bs.take n) else s
    ({ s with free := s.free + 1 }).mixLines secure (bs.drop n) r

/-- A destination range whose content the spec calls undefined and which nothing bounds: free bytes on every
line the toll check admits (R8; log entry 12). -/
def State.freeLines (s : State) (secure : Bool) : List (Nat × Nat) → State
  | [] => s
  | (a, n) :: r =>
    let s := if s.toll secure false true false a n = .admitted then
      ((s.wakeAt a).snoopLine a).storeLine a ((List.range n).map (fun i => Config.freeByte (s.free + i))) else s
    ({ s with free := s.free + n }).freeLines secure r

/-- The rest of a destination range left undefined: free bytes through a descriptor pointer. -/
def State.freeRange (s : State) (secure : Bool) (ptr off len : Nat) : State :=
  if ptrSpace ptr = 1 then
    { (s.setHostBytes (ptrAddr ptr + off) ((List.range (len - off)).map (fun i => Config.freeByte (s.free + i))))
      with free := s.free + (len - off) }
  else s.freeLines secure (linePieces (ptrAddr ptr + off) (len - off))

end Sys2Proof.Machine
end

