-- ==== Sys2Proof/Machine/Operands.lean ====
section
/-! DEFINITION. The operand forms of a step: the step record (R32), region handles (R33), region plan entries
and their views (R223 to R225), and the step's accesses to a scratchpad. -/

namespace Sys2Proof.Machine

/-! ### The step record (R32 Table 9), as a number of 256 bits -/

def Step.opcode (w : Nat) : Nat := bitsAt w 0 8
def Step.vary (w : Nat) : Bool := w.testBit 8
def Step.seam (w : Nat) : Bool := w.testBit 9
def Step.predict (w : Nat) : Nat := bitsAt w 10 2
def Step.delta (w : Nat) : Bool := w.testBit 12
def Step.digest (w : Nat) : Bool := w.testBit 13
def Step.awidth (w : Nat) : Nat := bitsAt w 16 5
def Step.asigned (w : Nat) : Bool := w.testBit 21
def Step.wcode (w : Nat) : Nat := bitsAt w 24 2
def Step.wsigned (w : Nat) : Bool := w.testBit 26
def Step.transpose (w : Nat) : Bool := w.testBit 27
def Step.tag (w : Nat) : Nat := bitsAt w 28 4
def Step.src (w : Nat) : Nat := bitsAt w 32 16
def Step.dst (w : Nat) : Nat := bitsAt w 48 16
def Step.aux (w : Nat) : Nat := bitsAt w 64 16
def Step.ptab (w : Nat) : Nat := bitsAt w 80 4
def Step.scale (w : Nat) : Nat := bitsAt w 88 8
def Step.mfirst (w : Nat) : Nat := bitsAt w 96 6
def Step.mcount (w : Nat) : Nat := bitsAt w 102 6
def Step.layer (w : Nat) : Nat := bitsAt w 112 16
def Step.count0 (w : Nat) : Nat := bitsAt w 128 32
def Step.count1 (w : Nat) : Nat := bitsAt w 160 32
def Step.count2 (w : Nat) : Nat := bitsAt w 192 32
def Step.arg (w : Nat) : Nat := bitsAt w 224 32

/-- Macros the step uses, M = MCOUNT + 1 (R76). -/
def Step.m (w : Nat) : Nat := Step.mcount w + 1

/-- Opcodes of Table 10 (R33). -/
def Op.cimDense : Nat := 0x01
def Op.cimMatch : Nat := 0x02
def Op.cimScatter : Nat := 0x03
def Op.awlScan : Nat := 0x04
def Op.shank : Nat := 0x05
def Op.toeheel : Nat := 0x06
def Op.requant : Nat := 0x07
def Op.compress : Nat := 0x08
def Op.reduce : Nat := 0x09
def Op.scatterMerge : Nat := 0x0A
def Op.collect : Nat := 0x0B
def Op.waitRange : Nat := 0x0C
def Op.seam : Nat := 0x0D
def Op.end_ : Nat := 0x0F

/-- Whether a step is one of the three CIM steps. -/
def Step.isCim (w : Nat) : Bool := decide (1 ≤ Step.opcode w) && decide (Step.opcode w ≤ 3)

/-- The outputs per macro of a CIM step: 512/w, 256 transposed (R41, R76). -/
def Step.outputs (w : Nat) : Nat := if Step.transpose w then 256 else 512 / wBits (Step.wcode w)

/-- The exponent e and the spill interval N of a CIM step (R71). -/
def spillE (a : Nat) (asigned : Bool) (wb : Nat) (wsigned : Bool) : Nat :=
  a + wb - 2 + (!asigned).toNat + (!wsigned).toNat
def Step.e (w : Nat) : Nat := spillE (Step.awidth w) (Step.asigned w) (wBits (Step.wcode w)) (Step.wsigned w)
def Step.k (w : Nat) : Nat := if Step.transpose w then 512 / wBits (Step.wcode w) else 256
def Step.spill (w : Nat) : Nat := max 1 ((2 ^ 31 - 1) / (Step.k w * 2 ^ Step.e w))

/-! ### Region handles and plan entries (R33, R223) -/

def hTile (h : Nat) : Nat := h / 64
def hIdx (h : Nat) : Nat := h % 64

def Rg.kind (e : Nat) : Nat := bitsAt e 0 4
def Rg.base (e : Nat) : Nat := bitsAt e 4 9
def Rg.size (e : Nat) : Nat := bitsAt e 13 9
def Rg.lo (e : Nat) : Nat := 4096 * Rg.base e
def Rg.bytes (e : Nat) : Nat := 4096 * Rg.size e
def Rg.hi (e : Nat) : Nat := Rg.lo e + Rg.bytes e
/-- LINEAR and WSTAGE (Table 4); no other kind has a MODE. -/
def Rg.mode (e : Nat) : Nat := if Rg.kind e ≤ 2 then bitsAt e 22 2 else 0
def Rg.elem (e : Nat) : Nat := bitsAt e 24 2
def Rg.stride (e : Nat) : Nat := bitsAt e 26 20
def Rg.rows (e : Nat) : Nat := bitsAt e 46 5 + 1
def Rg.cols (e : Nat) : Nat := bitsAt e 51 5 + 1
/-- EYELET (Table 5). -/
def Rg.table (e : Nat) : Nat := bitsAt e 22 4
def Rg.bits (e : Nat) : Nat := bitsAt e 26 2
def Rg.channels (e : Nat) : Nat := bitsAt e 28 16
def Rg.width (e : Nat) : Nat := bitsAt e 44 16
def Rg.kh (e : Nat) : Nat := bitsAt e 60 4
def Rg.kw (e : Nat) : Nat := bitsAt e 64 4
def Rg.sh (e : Nat) : Nat := bitsAt e 68 2 + 1
def Rg.sw (e : Nat) : Nat := bitsAt e 70 2 + 1
def Rg.ph (e : Nat) : Nat := bitsAt e 72 3
def Rg.pw (e : Nat) : Nat := bitsAt e 75 3
def Rg.first (e : Nat) : Nat := bitsAt e 78 32
def Rg.pstep (e : Nat) : Nat := bitsAt e 110 16
def Rg.balance (e : Nat) : Bool := e.testBit 126
/-- LEDGER and CIRCULAR (Table 6). -/
def Rg.lbase (e : Nat) : Nat := bitsAt e 22 12
def Rg.llength (e : Nat) : Nat := bitsAt e 34 13
def Rg.slices (e : Nat) : Nat := bitsAt e 47 6 + 1
def Rg.depth (e : Nat) : Nat := bitsAt e 53 8 + 1
def Rg.cq (e : Nat) : Nat := bitsAt e 22 4
def Rg.recsize (e : Nat) : Nat := bitsAt e 26 10
/-- Records a circular region holds (R229). -/
def Rg.cap (e : Nat) : Nat := Rg.size e * 512 / Rg.recsize e

/-- Region kinds of Table 3. -/
def Kind.none : Nat := 0
def Kind.linear : Nat := 1
def Kind.wstage : Nat := 2
def Kind.circular : Nat := 3
def Kind.eyelet : Nat := 4
def Kind.ledger : Nat := 5

/-- Whether an entry holds data that steps of other tiles write in place: LINEAR, WSTAGE or EYELET. -/
def Rg.isData (e : Nat) : Bool := [Kind.linear, Kind.wstage, Kind.eyelet].contains (Rg.kind e)

/-- The plan entry of a region index of a tile. -/
def Tile.entry (t : Tile) (i : Nat) : Nat := (t.plan.getD i 0).toNat

/-- The plan entry a handle names: on the owning tile (R33). -/
def State.entryOf (s : State) (h : Nat) : Nat := (s.tile (hTile h)).entry (hIdx h)

/-- Where byte `j` of a read through an entry lies from the region's start; none reads as zero (R225). -/
def Rg.viewOff (e j : Nat) : Option Nat :=
  let es := 2 ^ Rg.elem e
  if Rg.mode e = 0 then (if j < Rg.bytes e then some j else none)
  else if Rg.mode e = 1 then
    let o := j / es * Rg.stride e + j % es
    if o < Rg.bytes e then some o else none
  else
    let k := j / es
    if k < Rg.rows e * Rg.cols e then
      let o := k % Rg.rows e * Rg.stride e + k / Rg.rows e * es + j % es
      if o < Rg.bytes e then some o else none
    else none

/-- `n` bytes from byte `off` on of a region as a step reads it, through its view. -/
def State.viewBytes (s : State) (h off n : Nat) : List Byte :=
  let e := s.entryOf h
  let b := spBase (hTile h) + Rg.lo e
  (List.range n).map (fun i =>
    match Rg.viewOff e (off + i) with
    | some o => sget zeroByte s.mem (b + o)
    | none => 0)

/-- The pieces of scratchpad a read of `n` bytes from `off` through an entry touches, in reading order, as offsets of the tile and
lengths: one piece of a linear entry, the elements of a view. -/
def Rg.touched (e off n : Nat) : List (Nat × Nat) :=
  if n = 0 then []
  else if Rg.mode e = 0 then [(Rg.lo e + off, min n (Rg.bytes e - off))]
  else
    let es := 2 ^ Rg.elem e
    (List.range ((off + n - 1) / es + 1 - off / es)).filterMap (fun k =>
      (Rg.viewOff e ((off / es + k) * es)).map (fun o => (Rg.lo e + o, es)))

/-! ### A step's accesses (R218, R232, R234) -/

/-- The words a range touches, whole (R218: the scratchpad is word-addressed). -/
def wordRange (off len : Nat) : Nat × Nat := (off / 4 * 4, roundUp 4 (off + len) - off / 4 * 4)

/-- The first line of a step's access that the toll check does not admitted, or that a read finds bad: what the
line's verdict is and its address; none when the whole access is good. -/
def State.stepRefusal (s : State) (secure write : Bool) (n off len : Nat) : Option (Verdict × Nat) :=
  let w := wordRange off len
  (linePieces (spBase n + w.1) (if len = 0 then 0 else w.2)).findSome? (fun p =>
    let v := s.toll secure false write false p.1 p.2
    if v ≠ .admitted then some (v, p.1)
    else if (if write then s.mergeBad p.1 p.2 else s.lineBad p.1 p.2) then some (.admitted, p.1) else none)

/-- A step's request ended by a refused or bad access of a step of tile `n` (R490, R494). -/
def State.failStep (s : State) (n i layer : Nat) (secure : Bool) (r : Verdict × Nat) : State :=
  match r.1 with
  | .admitted =>
    let s := match placeOf r.2 with
      | .scratch k off => s.tally (Off.tile k (if (s.tile k).weightClass off then 0x914 else 0x90C)) 1
      | _ => s
    s.failAccessAt i layer .faultUncorrected r.2
  | .bankOff k b => (s.countRefusal (.bankOff k b) secure 1 r.2).failAccessAt i layer .faultBankOff r.2
  | v => (s.countRefusal v secure 1 r.2).failReq i v.status v.status.reason
      (fun e => { e.unit 1 n with address := r.2, layer := layer })

/-- The tiles of some regions woken by an access to them (R388). -/
def State.wakeHandles (s : State) (hs : List Nat) : State := hs.foldl (fun s h => s.wakeTile (hTile h)) s

/-- Bytes written by a step into a scratchpad. -/
def State.spWrite (s : State) (n off : Nat) (bs : List Byte) : State :=
  ((s.updTile n (fun t => t.heal off bs.length)).loseTags (spBase n + off) bs.length).setMemBytes (spBase n + off) bs

/-- Bytes a step writes into the region a handle names, from byte `off` of the region on; a refused line ends its
request. -/
def State.stepWrite (s : State) (n i layer : Nat) (secure : Bool) (h off : Nat) (bs : List Byte) : State :=
  let a := Rg.lo (s.entryOf h) + off
  match s.stepRefusal secure true (hTile h) a bs.length with
  | some v => s.failStep n i layer secure v
  | none => if bs.isEmpty then s else (s.wakeTile (hTile h)).spWrite (hTile h) a bs

/-- Whether a step's read of `len` bytes of a region, through its view, meets a refusal or a bad word. -/
def State.stepReadBad (s : State) (secure : Bool) (h off len : Nat) : Option (Verdict × Nat) :=
  (Rg.touched (s.entryOf h) off len).findSome? (fun p => s.stepRefusal secure false (hTile h) p.1 p.2)

/-- Bytes of a scratchpad. -/
def State.spBytes (s : State) (n off len : Nat) : List Byte := s.memBytes (spBase n + off) len

end Sys2Proof.Machine
end

