-- ==== Sys2Proof/Machine/DescCheck.lean ====
section
/-! DEFINITION. The form of a descriptor: header, body fields, pointers and stated ranges (R282, R283, R284,
R285, R287, R301, R350, R351, R355, R445). -/

namespace Sys2Proof.Machine

/-- Opcodes of descriptors (R284 Table 3). -/
def Dop.run : Nat := 0x01
def Dop.loadPass : Nat := 0x02
def Dop.dropPass : Nat := 0x03
def Dop.save : Nat := 0x04
def Dop.restore : Nat := 0x05
def Dop.copy : Nat := 0x06
def Dop.fill : Nat := 0x07
def Dop.digest : Nat := 0x08
def Dop.fence : Nat := 0x09
def Dop.barrier : Nat := 0x0A
def Dop.windowOpen : Nat := 0x0B
def Dop.windowClose : Nat := 0x0C
def Dop.remoteCopy : Nat := 0x0D
def Dop.collective : Nat := 0x0E
def Dop.streamOpen : Nat := 0x0F
def Dop.streamClose : Nat := 0x10
def Dop.keyframe : Nat := 0x11
def Dop.test : Nat := 0x12
def Dop.nop : Nat := 0x13

/-- The body bytes an opcode names: offset and size of each field (R284, R285, R287). -/
def bodyFields (op : Nat) : List (Nat × Nat) :=
  match op with
  | 0x01 => [(0x08, 56)]
  | 0x02 => [(0x08, 4), (0x0C, 4), (0x10, 8), (0x18, 8), (0x20, 1)]
  | 0x03 => [(0x08, 4)]
  | 0x04 | 0x05 => [(0x08, 1), (0x0C, 4), (0x10, 8), (0x18, 8)]
  | 0x06 | 0x0D => [(0x10, 8), (0x18, 8), (0x20, 4)]
  | 0x07 | 0x08 => [(0x10, 8), (0x18, 8), (0x20, 4)]
  | 0x09 | 0x0C => [(0x08, 1)]
  | 0x0A => [(0x08, 4), (0x0C, 2)]
  | 0x0B => [(0x08, 1), (0x09, 1), (0x0A, 2), (0x10, 8), (0x18, 8)]
  | 0x0E => [(0x08, 1), (0x0A, 2), (0x10, 8), (0x18, 8), (0x20, 4)]
  | 0x0F => [(0x08, 4), (0x0C, 4), (0x10, 2), (0x12, 1), (0x13, 1), (0x14, 2), (0x16, 2), (0x18, 2), (0x1A, 2), (0x20, 8)]
  | 0x10 | 0x11 => [(0x08, 4)]
  | 0x12 => [(0x08, 1), (0x0C, 4), (0x10, 8)]
  | _ => []

/-- The pointer fields of an opcode. -/
def pointerFields (op : Nat) : List Nat :=
  match op with
  | 0x01 => [0x18, 0x28, 0x38]
  | 0x02 | 0x04 | 0x05 => [0x10]
  | 0x06 | 0x0D | 0x0E | 0x08 => [0x10, 0x18]
  | 0x07 => [0x10]
  | 0x0F => [0x20]
  | 0x12 => [0x10]
  | _ => []

/-- Whether a pointer keeps R282: no SPACE 3, its other bits zero, SPACE 2 only where it may stand. -/
def pointerGood (allowWindow : Bool) (p : Nat) : Bool :=
  match ptrSpace p with
  | 0 => decide (bitsAt p 48 14 = 0)
  | 1 => decide (bitsAt p 52 10 = 0)
  | 2 => allowWindow && decide (bitsAt p 48 14 = 0)
  | _ => false

/-- The first of a list of faults: offset of a byte and whether it offends. -/
def firstBad (l : List (Nat × Bool)) : Option Nat :=
  (l.filter (fun e => e.2)).foldl (fun m e => match m with
    | none => some e.1
    | some x => some (min x e.1)) none

/-- The ranges and reserved bits of an opcode's fields. -/
def fieldFaults (d : List Byte) : List (Nat × Bool) :=
  let f := fieldAt d
  match f 0 1 with
  | 0x01 => [(0x0C, decide (bitsAt (f 0x0C 4) 18 13 ≠ 0)), (0x34, decide (f 0x34 4 / 4 ≠ 0))]
  | 0x02 => [(0x18, decide (f 0x0C 4 = 0) && (decide (f 0x18 8 < 4096) || decide (64 * 2 ^ 30 < f 0x18 8))),
             (0x20, decide (1 < f 0x20 1))]
  | 0x04 => [(0x08, decide (2 < f 0x08 1))]
  | 0x05 => [(0x08, decide (1 < f 0x08 1))]
  | 0x06 => [(0x20, decide (f 0x20 4 = 0))]
  | 0x07 => [(0x20, decide (f 0x20 4 % 8 ≠ 0))]
  | 0x09 => [(0x08, decide (1 < f 0x08 1))]
  | 0x0A => [(0x0C, decide (255 < f 0x0C 2))]
  | 0x0B => [(0x09, decide (3 < f 0x09 1)), (0x10, decide (f 0x10 8 % 4096 ≠ 0)),
             (0x18, decide (f 0x18 8 % 4096 ≠ 0) || decide (f 0x18 8 = 0) || decide (512 * 2 ^ 30 < f 0x18 8))]
  | 0x0D =>
    let w := fun (p : Nat) => decide (ptrSpace p = 2)
    [(0x10, w (f 0x10 8) == w (f 0x18 8)), (0x20, decide (f 0x20 4 = 0))]
  | 0x0E =>
    let size := [4, 8, 4, 4, 4, 2, 1, 1, 16].getD (f 0x08 1) 1
    [(0x08, decide (8 < f 0x08 1)), (0x0A, decide (255 < f 0x0A 2)), (0x10, decide (ptrSpace (f 0x10 8) ≠ 0)),
     (0x18, decide (ptrSpace (f 0x18 8) ≠ 0)), (0x20, decide (f 0x20 4 = 0) || decide (f 0x20 4 % size ≠ 0))]
  | 0x0F => [(0x08, decide (f 0x08 4 / 2 ^ 18 ≠ 0)), (0x10, decide (4095 < f 0x10 2)),
             (0x18, decide (f 0x13 1 ≠ 8) && decide (1023 < f 0x18 2)), (0x1A, decide (1024 < f 0x1A 2))]
  | 0x10 | 0x11 => [(0x08, decide (f 0x08 4 / 2 ^ 18 ≠ 0))]
  | 0x12 =>
    let units := [1024, 16, 4, 1024, 0, 2].getD (f 0x08 1) 0
    [(0x08, decide (5 < f 0x08 1)), (0x0C, decide (f 0x0C 4 ≠ 0xFFFFFFFF) && decide (units ≤ f 0x0C 4))]
  | _ => []

/-- The lowest offending byte offset of a descriptor, none for a well-formed one (R283). -/
def descCheck (d : List Byte) : Option Nat :=
  let op := fieldAt d 0 1
  let fl := fieldAt d 1 1
  if op = 0 ∨ 0x13 < op then some 0
  else
    let named := bodyFields op
    let body := (List.range 56).map (fun k =>
      let o := 8 + k
      (o, !named.any (fun e => decide (e.1 ≤ o) && decide (o < e.1 + e.2)) && decide (d.getD o 0 ≠ 0)))
    let ptrs := (pointerFields op).map (fun o =>
      (o, !pointerGood (decide (op = 0x0D) || decide (op = 0x0E)) (fieldAt d o 8)))
    firstBad ([(1, decide (32 ≤ fl) || (fl.testBit 4 && decide (op ≠ 0x01) && decide (op ≠ 0x0E))),
               (6, decide (fieldAt d 6 2 ≠ 0))] ++ body ++ ptrs ++ fieldFaults d)

/-- Opcodes that post interim records (R284, R289). -/
def postsInterim (op len : Nat) : Bool :=
  op == 0x02 || op == 0x04 || op == 0x05 || op == 0x12 || ((op == 0x06 || op == 0x0D) && decide (2 ^ 20 ≤ len))

end Sys2Proof.Machine
end

