-- ==== Sys2Proof/Machine/Keccak.lean ====
section
/-! DEFINITION. SHAKE256 with a 32-byte output (FIPS 202, the standard the spec names for every digest, R21,
R284, R327) and CRC-64 (PRESUMED, log entry 8: written from the published standards, outside the spec). -/

namespace Sys2Proof.Machine

/-- A sponge state: 25 words of 64 bits as numbers, word x + 5y. -/
abbrev Sponge := List Nat

/-- A 64-bit word turned left by `k`. -/
def turnLeft (k v : Nat) : Nat := v * 2 ^ (k % 64) % 2 ^ 64 + v / 2 ^ (64 - k % 64)

/-- Five neighbours of a word list from `i` on, around the ring of five. -/
def aroundFive (row : List Nat) (i : Nat) : Nat := row.getD (i % 5) 0

/-- The bits of the shift register from which FIPS 202 takes its round constants. -/
def constBits : Nat → Nat → List Bool
  | 0, _ => []
  | n + 1, r => r.testBit 0 :: constBits n (if 128 ≤ r then (2 * r) ^^^ 0x171 else 2 * r)

/-- The constant of a round: its seven register bits stand at the places 2^j - 1. -/
def roundConst (bits : List Bool) : Nat :=
  sumNat ((bits.zipIdx).map (fun b => if b.1 then 2 ^ (2 ^ b.2 - 1) else 0))

/-- The path of the words through the plane from (1, 0) on: where a word comes from, where it goes, and by how much it is turned, the
triangle number of its place on the path. -/
def wordPath : Nat → Nat → Nat × Nat → List (Nat × Nat × Nat)
  | 0, _, _ => []
  | n + 1, t, (x, y) =>
    let next := (y, (2 * x + 3 * y) % 5)
    (x + 5 * y, next.1 + 5 * next.2, t * (t + 1) / 2) :: wordPath n (t + 1) next

/-- Every word with what two columns beside it hold in all their rows. -/
def mixColumns (a : Sponge) : Sponge :=
  let parity := (chunksOf 5 a).foldl (List.zipWith (· ^^^ ·)) (List.replicate 5 0)
  a.zipIdx.map (fun e => e.1 ^^^ aroundFive parity (e.2 + 4) ^^^ turnLeft 1 (aroundFive parity (e.2 + 1)))

/-- Every word turned and moved on along the path. -/
def moveWords (a : Sponge) : Sponge :=
  (wordPath 24 1 (1, 0)).foldl (fun b m => b.set m.2.1 (turnLeft m.2.2 (a.getD m.1 0))) a

/-- The row map: a word changes where its right neighbour is 0 and the next one is 1. -/
def mixRow (row : List Nat) : List Nat :=
  row.zipIdx.map (fun e => e.1 ^^^ ((2 ^ 64 - 1 - aroundFive row (e.2 + 1)) &&& aroundFive row (e.2 + 2)))

/-- The permutation: 24 rounds, each with seven bits of the register. -/
def permute (a : Sponge) : Sponge :=
  (chunksOf 7 (constBits 168 1)).foldl (fun a bits =>
    let b := (chunksOf 5 (moveWords (mixColumns a))).flatMap mixRow
    b.set 0 (b.getD 0 0 ^^^ roundConst bits)) a

/-- A message with the suffix of SHAKE, filled up to whole blocks of 136 bytes; the last byte closes with its top bit. -/
def shakeBlocks (m : List Byte) : List (List Byte) :=
  let body := padTo (roundUp 136 (m.length + 1)) (m ++ [0x1F])
  chunksOf 136 (body.dropLast ++ [body.getLastD 0 ||| 0x80])

/-- The 32-byte SHAKE256 output over a message. -/
def shake256 (m : List Byte) : List Byte :=
  let a := (shakeBlocks m).foldl (fun a b => permute (List.zipWith (· ^^^ ·) a ((chunksOf 8 b).map leNat ++ List.replicate 8 0))) (List.replicate 25 0)
  (a.take 4).flatMap (natLe 8)

/-- The CRC-64 of one byte: the ECMA-182 polynomial, most significant bit first. -/
def crc64Byte (c : BitVec 64) (b : Byte) : BitVec 64 :=
  (List.range 8).foldl
    (fun c _ => if c.msb then (c <<< 1) ^^^ 0x42F0E1EBA9EA3693 else c <<< 1)
    (c ^^^ ((b.setWidth 64) <<< 56))

/-- CRC-64 over a message, starting from zero. -/
def crc64 (m : List Byte) : BitVec 64 := m.foldl crc64Byte 0

end Sys2Proof.Machine
end

