-- ==== Sys2Proof/Machine/Program.lean ====
section
/-! DEFINITION. The program of a pass as its steps and plans give it: what each step reads and writes, the slot size
and the positions of a ledger range, contributing steps, writer counts (R33, R76, R84, R161, R162, R228,
R491). Staging reads a program from an image, the running machine from its tiles. -/

namespace Sys2Proof.Machine

/-- A tile's part of a program. -/
structure PTile where
  tile : Nat
  steps : List Nat
  plan : List Nat
  scales : List Nat
  pattern : List Nat
deriving DecidableEq, Repr

/-- A program: the tiles that take part. -/
abbrev Prog := List PTile

/-- The tile `n` of a program. -/
def Prog.tile? (p : Prog) (n : Nat) : Option PTile := p.find? (fun t => decide (t.tile = n))

/-- The plan entry a handle names. -/
def Prog.entry (p : Prog) (h : Nat) : Nat :=
  match p.tile? (hTile h) with
  | some t => t.plan.getD (hIdx h) 0
  | none => 0

/-- Every step with its tile and its index. -/
def Prog.all (p : Prog) : List (Nat × Nat × Nat) :=
  (p.map (fun t => t.steps.zipIdx.map (fun x => (t.tile, x.2, x.1)))).flatten

/-- The program the tiles hold for the active pass. -/
def State.prog (s : State) : Prog :=
  match s.activePass with
  | none => []
  | some p => p.tileUse.map (fun n =>
      let t := s.tile n
      { tile := n, steps := t.steps.map (·.toNat), plan := t.plan.map (·.toNat),
        scales := t.scales.map (·.toNat), pattern := t.pattern.map (·.toNat) })

/-- A number placed in a rising list without repeats. -/
def insNat (x : Nat) : List Nat → List Nat
  | [] => [x]
  | y :: r => if x < y then x :: y :: r else if x = y then y :: r else y :: insNat x r

/-- A list sorted without repeats. -/
def sortNat (l : List Nat) : List Nat := l.foldr insNat []

/-! ### What a step reads and writes -/

/-- Whether a CIM step works on deltas, and so sends to a scatter accumulator (R161). -/
def Step.scatters (w : Nat) : Bool := Step.isCim w && (Step.delta w || decide (Step.opcode w = Op.cimScatter))

/-- SHANK argument (R211). -/
def Shk.func (w : Nat) : Nat := bitsAt (Step.arg w) 0 8
def Shk.ifmt (w : Nat) : Nat := bitsAt (Step.arg w) 8 4
def Shk.ofmt (w : Nat) : Nat := bitsAt (Step.arg w) 12 4
def Shk.param (w : Nat) : Nat := bitsAt (Step.arg w) 16 16
/-- TOEHEEL argument (R201). -/
def Th.kernel (w : Nat) : Nat := bitsAt (Step.arg w) 0 8
def Th.unit (w : Nat) : Nat := bitsAt (Step.arg w) 8 4
def Th.any (w : Nat) : Bool := (Step.arg w).testBit 12
def Th.pdelta (w : Nat) : Bool := (Step.arg w).testBit 13
def Th.pblk (w : Nat) : Nat := bitsAt (Step.arg w) 14 18
/-- Whether a code of R203 Table 4 names an integer format; bytes of the accumulator of a product (R199 Table 1). -/
def intCode (c : Nat) : Bool := decide (c = 0) || decide (c = 1) || decide (c = 7)
def accBytes (ifmt wfmt : Nat) : Nat := if intCode ifmt && intCode wfmt && !(decide (ifmt = 0) && decide (wfmt = 0)) then 8 else 4
/-- REDUCE argument (R88). -/
def Red.kind (w : Nat) : Nat := bitsAt (Step.arg w) 0 4
def Red.inf (w : Nat) : Nat := bitsAt (Step.arg w) 4 2
def Red.float (w : Nat) : Bool := (Step.arg w).testBit 6
def Red.osigned (w : Nat) : Bool := (Step.arg w).testBit 7
def Red.shift (w : Nat) : Nat := bitsAt (Step.arg w) 8 6
def Red.outw (w : Nat) : Nat := bitsAt (Step.arg w) 14 2
def Red.group (w : Nat) : Nat := bitsAt (Step.arg w) 16 16
/-- COLLECT argument (R81). -/
def Col.count (w : Nat) : Nat := bitsAt (Step.arg w) 0 11
def Col.float (w : Nat) : Bool := (Step.arg w).testBit 16

/-- Whether a SHANK function takes AUX (R211). -/
def Shk.usesAux (w : Nat) : Bool := [1, 2, 3, 6, 7, 9, 12].contains (Shk.func w)

/-- Whether a step is a pixel kernel (R286). -/
def Step.isPixel (w : Nat) : Bool :=
  decide (Step.opcode w = Op.toeheel) && (decide (Th.kernel w = 1) || decide (Th.kernel w = 2))

/-- The region handle of SRC, where the opcode reads one. A pixel kernel reads the source frame (R286). -/
def Step.srcHandle (w : Nat) : List Nat :=
  let op := Step.opcode w
  if (decide (1 ≤ op) && decide (op ≤ 9) && !Step.isPixel w) || op == Op.collect || op == Op.waitRange
  then [Step.src w] else []

/-- The region handle of DST, where it names a region: a scattering CIM step names an accumulator (R162). -/
def Step.dstHandle (w : Nat) : List Nat :=
  let op := Step.opcode w
  if decide (1 ≤ op) && decide (op ≤ 0x0B) && !Step.scatters w then [Step.dst w] else []

/-- The region handle of AUX. -/
def Step.auxHandle (w : Nat) : List Nat :=
  let op := Step.opcode w
  if op == Op.cimMatch || (op == Op.shank && Shk.usesAux w) || (op == Op.reduce && decide (Red.kind w = 4))
  then [Step.aux w] else []

/-- The handles a step names. -/
def Step.handles (w : Nat) : List Nat := Step.srcHandle w ++ Step.dstHandle w ++ Step.auxHandle w

/-- Whether a step writes delta form and so a twin one index above its DST (R159). -/
def Step.writesTwin (w : Nat) : Bool :=
  (decide (Step.opcode w = Op.compress) && Step.delta w) ||
  (decide (Step.opcode w = Op.toeheel) && decide (Th.kernel w = 1) && Th.pdelta w)

/-- The handles a step reads data from: SRC, AUX, the twin of a delta CIM step, and DST where the step adds to what
stands there (UPDATE, FSUM with ACCUM, FSCATTER). -/
def Step.reads (w : Nat) : List Nat :=
  (if Step.opcode w = Op.waitRange then [] else Step.srcHandle w) ++ Step.auxHandle w ++
  (if Step.scatters w then [Step.src w + 1] else []) ++
  (if (Step.opcode w = Op.reduce ∧ Red.kind w = 4) ∨
      (Step.opcode w = Op.shank ∧ ((Shk.func w = 0x0B ∧ (Shk.param w).testBit 0) ∨ Shk.func w = 0x0C))
    then [Step.dst w] else [])

/-- The handles a step writes. -/
def Step.writes (w : Nat) : List Nat :=
  Step.dstHandle w ++ (if Step.writesTwin w then [Step.dst w + 1] else [])

/-- The tile whose accumulator a scattering step sends to (R162). -/
def Step.scatterTile (w : Nat) : Nat := hTile (Step.dst w)

/-! ### Ledger ranges (R76, R491) -/

/-- The slices of the ledger range a CIM step drains into; 1 where its DST is no ledger range (R132). -/
def Prog.stepSlices (p : Prog) (w : Nat) : Nat :=
  let e := p.entry (Step.dst w)
  if Step.scatters w then
    let src := p.entry (Step.src w)
    if Rg.kind src = Kind.eyelet then (Rg.channels src + 255) / 256 else 1
  else if Rg.kind e = Kind.ledger then Rg.slices e else 1

/-- Entries per slot of a CIM step. -/
def Prog.stepB (p : Prog) (w : Nat) : Nat := Step.m w / p.stepSlices w * Step.outputs w

/-- The CIM steps that drain into a ledger range, on any tile. -/
def Prog.drainers (p : Prog) (h : Nat) : List (Nat × Nat × Nat) :=
  p.all.filter (fun x => Step.isCim x.2.2 && !Step.scatters x.2.2 && decide (Step.dst x.2.2 = h))

/-- The COLLECT step that writes a range. -/
def Prog.collector (p : Prog) (h : Nat) : Option Nat :=
  (p.all.find? (fun x => decide (Step.opcode x.2.2 = Op.collect) && decide (Step.dst x.2.2 = h))).map (·.2.2)

/-- The slot size B of a range; `fuel` bounds a chain of COLLECT steps. -/
def Prog.rangeB (p : Prog) (fuel : Nat) (h : Nat) : Nat :=
  match p.drainers h with
  | x :: _ => p.stepB x.2.2
  | [] =>
    match fuel, p.collector h with
    | fuel + 1, some w => p.rangeB fuel (Step.src w)
    | _, _ => let e := p.entry h; Rg.llength e / Rg.depth e

/-- The positions of a CIM step, in its order. -/
def Prog.stepPositions (p : Prog) (w : Nat) : List Nat :=
  let e := p.entry (Step.src w)
  if Rg.kind e = Kind.eyelet then
    (List.range (Step.count0 w)).map (fun n => Rg.first e + n * Rg.pstep e)
  else List.range (Step.count0 w)

/-- The positions of a range in increasing order; none for a range with no contributing step, whose positions are
0, 1, 2 and so on. -/
def Prog.positions (p : Prog) (fuel : Nat) (h : Nat) : Option (List Nat) :=
  match p.drainers h with
  | x :: r => some (sortNat ((x :: r).map (fun y => p.stepPositions y.2.2)).flatten)
  | [] =>
    match fuel, p.collector h with
    | fuel + 1, some w => p.positions fuel (Step.src w)
    | _, _ => none

/-- The `k`-th position of a range. -/
def Prog.position (p : Prog) (h k : Nat) : Option Nat :=
  match p.positions 64 h with
  | some l => l[k]?
  | none => some k

/-- How many contributing steps a range has: ARG of the COLLECT that reads it, else one for a range some CIM step
drains into, else none (R78). -/
def Prog.contributors (p : Prog) (h : Nat) : Nat :=
  match p.all.find? (fun x => decide (Step.opcode x.2.2 = Op.collect) && decide (Step.src x.2.2 = h)) with
  | some x => Col.count x.2.2
  | none => if (p.drainers h).isEmpty then 0 else 1

/-- The most terms a slot of a ledger range can come to hold (R82): at each position what every CIM step that drains there adds, S·K·COUNT1
a step, and what the COLLECT that writes the range brings. -/
def Prog.termsMost (p : Prog) (fuel : Nat) (h : Nat) : Nat :=
  let l := p.drainers h
  let at_ := fun (n : Nat) => sumNat ((l.filter (fun x => (p.stepPositions x.2.2).contains n)).map (fun x =>
    p.stepSlices x.2.2 * (Step.k x.2.2 * Step.count1 x.2.2)))
  let own := ((l.flatMap (fun x => p.stepPositions x.2.2)).map at_).foldl max 0
  match fuel, p.collector h with
  | fuel + 1, some w => own + p.termsMost fuel (Step.src w)
  | _, _ => own

/-! ### Writers, networks and counters -/

/-- The writer count of a region: the steps of other tiles that write its data (R228); what reaches a ledger range or a circular region
sends no marker. -/
def Prog.writerCount (p : Prog) (h : Nat) : Nat :=
  if Rg.isData (p.entry h) = false then 0
  else (p.all.filter (fun x => decide (x.1 ≠ hTile h) && (Step.writes x.2.2).contains h)).length

/-- The steps that send to a tile's accumulator for a LAYER (R162). -/
def Prog.contributing (p : Prog) (tile layer : Nat) : List (Nat × Nat × Nat) :=
  p.all.filter (fun x => Step.scatters x.2.2 && decide (Step.scatterTile x.2.2 = tile) &&
    decide (Step.layer x.2.2 = layer))

/-- The tiles a step names beside its own. -/
def Step.tilesNamed (w : Nat) : List Nat :=
  (Step.handles w).map hTile ++ (if Step.scatters w then [Step.scatterTile w] else [])

/-- The network of a tile: every tile a chain of named handles joins to it (R34). -/
def Prog.spread (p : Prog) (fuel : Nat) (l : List Nat) : List Nat :=
  match fuel with
  | 0 => l
  | k + 1 =>
    let next := sortNat (l ++ (p.all.filter (fun x => l.contains x.1 || (Step.tilesNamed x.2.2).any (l.contains ·))).flatMap
      (fun x => x.1 :: Step.tilesNamed x.2.2))
    if next = l then l else p.spread k next

def Prog.network (p : Prog) (n : Nat) : List Nat := p.spread p.length [n]

/-- Whether two handles name bytes in common: one region, or two data regions of a tile, one perhaps a view, that overlap (R224). -/
def Prog.meets (p : Prog) (h g : Nat) : Bool :=
  let e := p.entry h
  let f := p.entry g
  decide (h = g) || (decide (hTile h = hTile g) && Rg.isData e && Rg.isData f && decide (Rg.lo e < Rg.hi f) && decide (Rg.lo f < Rg.hi e) &&
    (Rg.touched e 0 (Rg.bytes e)).any (fun x => (Rg.touched f 0 (Rg.bytes f)).any (fun y =>
      decide (x.1 < y.1 + y.2) && decide (y.1 < x.1 + x.2))))

/-- The LAYERs a VARY step reaches (R325): what a reached LAYER writes reaches every LAYER that reads some of its bytes. -/
def Prog.reachStep (p : Prog) (l : List Nat) : List Nat :=
  let handles := (p.all.filter (fun x => l.contains (Step.layer x.2.2))).flatMap (fun x => Step.writes x.2.2)
  let scat := (p.all.filter (fun x => l.contains (Step.layer x.2.2) && Step.scatters x.2.2)).map
    (fun x => Step.layer x.2.2)
  sortNat (l ++ scat ++ ((p.all.filter (fun x => (Step.reads x.2.2).any (fun h => handles.any (p.meets h)))).map (fun x => Step.layer x.2.2)))

def Prog.reachN (p : Prog) (fuel : Nat) (l : List Nat) : List Nat :=
  match fuel with
  | 0 => l
  | k + 1 => let n := p.reachStep l; if n = l then l else p.reachN k n

def Prog.reach (p : Prog) : List Nat :=
  p.reachN p.all.length (sortNat ((p.all.filter (fun x => Step.vary x.2.2)).map (fun x => Step.layer x.2.2)))

/-- The LAYERs of a program, rising; END has none (R32). -/
def Prog.layers (p : Prog) : List Nat :=
  sortNat ((p.all.filter (fun x => decide (Step.opcode x.2.2 ≠ Op.end_))).map (fun x => Step.layer x.2.2))

/-! ### Pattern tables and scale entries (R97, R104) -/

/-- Entries of one pattern table: 256 words; control bits stand in entry 0. -/
def Pt.entry (pat : List Nat) (tab i : Nat) : Nat := pat.getD (256 * tab + i) 0
def Pt.valid (pat : List Nat) (tab : Nat) : Bool := (Pt.entry pat tab 0).testBit 31
def Pt.lsigned (pat : List Nat) (tab : Nat) : Bool := (Pt.entry pat tab 0).testBit 30
def Pt.n256 (pat : List Nat) (tab : Nat) : Bool := (Pt.entry pat tab 0).testBit 29
def Pt.size (pat : List Nat) (tab : Nat) : Nat := if Pt.n256 pat tab then 256 else 16
def Pt.level (pat : List Nat) (tab i : Nat) : Int :=
  let v := bitsAt (Pt.entry pat tab i) 0 12
  if Pt.lsigned pat tab then signedOf 12 v else (v : Int)
def Pt.thresh (pat : List Nat) (tab i : Nat) : Int := signedOf 13 (bitsAt (Pt.entry pat tab i) 16 13)

/-- The top entry of a code width b in bits. -/
def topOf (b : Nat) : Nat := 2 ^ b - 1

def Sc.mult (e : Nat) : Nat := bitsAt e 0 24
def Sc.shift (e : Nat) : Nat := bitsAt e 24 6
def Sc.nl (e : Nat) : Nat := bitsAt e 30 2
def Sc.relu (e : Nat) : Bool := decide (Sc.nl e = 1)
def Sc.offset (e : Nat) : Int := signedOf 13 (bitsAt e 32 13)
def Sc.bits (e : Nat) : Nat := 2 ^ bitsAt e 45 2
def Sc.smode (e : Nat) : Nat := bitsAt e 48 2
def Sc.window (e : Nat) : Nat := bitsAt e 50 6

/-- The target T of R107. -/
def Sc.target (pat : List Nat) (tab e : Nat) : Int :=
  let lo := Pt.level pat tab 0
  let hi := Pt.level pat tab (topOf (Sc.bits e))
  if Sc.relu e || decide (0 ≤ lo) then hi else min (-lo) hi

end Sys2Proof.Machine
end

