-- ==== Sys2Proof/Machine/Ready.lean ====
section
/-! DEFINITION. Time by the reference clock (R383) and the readiness map (R397, R398, R401). -/

namespace Sys2Proof.Machine

/-- The nominal rate word: 40 ns with a 32-bit fraction (R383). -/
def nominalRate : Nat := 40 * 2 ^ 32

/-- One reference period: time advances by the rate word (R383). With the reference stopped the counter runs on
the Milestone clock, at 30,517.578125 ns per period (R385). -/
def State.tickClock (s : State) : State :=
  let step := if s.clock.refOk then s.clock.rate else 131072000000000
  let f := s.clock.frac + step
  { s with clock := { s.clock with ns := (s.clock.ns + f / 2 ^ 32) % 2 ^ 64, frac := f % 2 ^ 32 } }

/-- What a step on an empty queue does: one tick of the reference clock; while PORST_N is held low the Milestone
block is in reset and time stands (log entry 1). -/
def State.idleTick (s : State) : State := if s.pins.porstLow then s else s.tickClock

/-- The register and the bit of a unit's code (R406). `kind` is the event KIND of the unit; KIND 0 numbers the
Milestone block 1, secure boot 2, the UCIe link 3 and the treads 4 and 5 (R404); KIND 1 takes a logical tile and
gives its group. -/
def readyPlace (kind index : Nat) : Option (Nat × Nat) :=
  if kind = 0 then
    if index = 1 then some (Off.rdy 4, 0)
    else if index = 2 then some (Off.rdy 4, 2)
    else if index = 3 then some (Off.rdy 4, 4)
    else if index = 4 then some (Off.rdy 4, 16)
    else if index = 5 then some (Off.rdy 4, 18)
    else none
  else if kind = 1 then some (Off.rdy (0x10 + 4 * (index / 16 / 16)), 2 * (index / 16 % 16))
  else if kind = 2 then some (Off.rdy 0x20, 2 * index)
  else if kind = 3 then some (Off.rdy 4, 8 + 2 * index)
  else if kind = 4 then some (Off.rdy (8 + 4 * (index / 16)), 2 * (index % 16))
  else if kind = 5 then some (Off.rdy 0x24, 2 * index)
  else none

/-- A unit's code in the readiness map: 0 not yet ready, 1 ready, 2 failed, 3 absent (R397). -/
def State.readyCode (s : State) (kind index : Nat) : Nat :=
  match readyPlace kind index with
  | some (off, lo) => s.regBits off lo 2
  | none => 0

/-- Whether the Milestone block is ready (R397). -/
def State.msReady (s : State) : Bool := decide (s.readyCode 0 1 = 1)

/-- The units of the readiness map (R404): Milestone, secure boot, link, treads, causeways, groups, stacks,
toe-heel units, ports. -/
def readyUnits : List (Nat × Nat) :=
  [(0, 1), (0, 2), (0, 3), (0, 4), (0, 5)] ++ (List.range 64).map (fun g => (1, 16 * g)) ++
  (List.range 16).map (fun u => (2, u)) ++ (List.range 4).map (fun c => (3, c)) ++
  (List.range 24).map (fun k => (4, k)) ++ (List.range 16).map (fun p => (5, p))

/-- How many units read code 1. -/
def State.readyCount (s : State) : Nat :=
  (readyUnits.filter (fun u => decide (s.readyCode u.1 u.2 = 1))).length

/-- The minimum service set (R401). -/
def State.serviceSet (s : State) : Bool :=
  decide (s.readyCode 0 1 = 1) && decide (s.readyCode 0 2 = 1) && decide (s.readyCode 0 3 = 1) &&
  (List.range 4).any (fun c => decide (s.readyCode 3 c = 1)) &&
  (List.range 2).any (fun t => decide (s.readyCode 0 (4 + t) = 1) &&
    decide (4 ≤ ((List.range 32).filter (fun g => decide (s.readyCode 1 (512 * t + 16 * g) = 1))).length))

/-- RDY_SERVICE reads service once the minimum set is ready; it is judged only until bring-up settles (R401). -/
def State.judgeService (s : State) : State :=
  if s.regBit (Off.rdy 0) 2 = false ∧ s.serviceSet = true then s.setRegBits (Off.rdy 0) 0 2 2 else s

/-- Whether the device offers management only (R401). -/
def State.managementOnly (s : State) : Bool := decide (s.regBits (Off.rdy 0) 0 2 = 1)

/-- A unit's code changes: counted, and READY raised in every world on a change to 1 (R398); TH_STATE follows (R216). -/
def State.setReady (s : State) (kind index code : Nat) : State :=
  match readyPlace kind index with
  | none => s
  | some (off, lo) =>
    if s.regBits off lo 2 = code then s
    else
      let s := (s.setRegBits off lo 2 code).tally (Off.rdy 0x28) 1
      let s := if kind = 2 then s.setRegBits (Off.th index 0) 0 2 ([0, 1, 3].getD code 0) else s
      let s := if code = 1 then
          s.postEvent bothWorlds Ev.ready kind (if kind = 1 then index / 16 * 16 else if kind = 0 then 0 else index)
            [BitVec.ofNat 8 (if kind = 0 then index else 0), 1]
        else s
      s.judgeService

/-- The readiness of a logical tile: that of its group, absent and failed tiles apart (R4, R15, R397). -/
def State.tileReady (s : State) (n : Nat) : Nat :=
  if !s.present n then 3
  else if s.unbacked n then (if s.readyCode 1 n = 0 then 0 else 2)
  else s.readyCode 1 n

end Sys2Proof.Machine
end

