-- ==== Sys2Proof/Machine/Records.lean ====
section
/-! DEFINITION. What waits to enter a host-memory ring: handled error records, provenance leaves, closed
batches, layer digest log entries (R296, R328, R331, R334). -/

namespace Sys2Proof.Machine

/-- The worlds' audit state. -/
def State.auditWorld (s : State) (w : Nat) : AuditWorld := if w = 0 then s.audit.ns else s.audit.sec
def State.setAuditWorld (s : State) (w : Nat) (x : AuditWorld) : State :=
  if w = 0 then { s with audit := { s.audit with ns := x } } else { s with audit := { s.audit with sec := x } }

/-- IDENTITY: the digest of the identity key (R426), as the identity register holds it. -/
def State.identityDigest (s : State) : List Byte := s.regBytes (Off.sec 0x20) 32

/-! ### Error records (R296, R437) -/

/-- ERQ_WAITING: the handled records that wait for ring space. -/
def State.syncErq (s : State) (w : Nat) : State :=
  s.setReg (Off.wrb w 0x58) ((s.errs.queue.filter (fun e => e.handled && decide (e.world = w))).length)

/-- A handled record leaves: written to its ring and signalled at once, kept on die only when the ring is
disabled (counted as dropped, R437), left waiting while the ring is full or the link down. -/
def State.releaseError (s : State) (e : ErrRec) : State × Bool :=
  let r := RingId.erq e.world
  let c := e.reason.cls
  if !s.ringOn r then ((s.tally (Off.err (0x30 + 4 * c)) 1).untally (Off.err (0x40 + 4 * c)) 1, true)
  else if s.ringFull r || !s.link.up then (s, false)
  else
    (((s.pushEntry r e.bytes).signalRing r |>.tally (Off.err (0x20 + 4 * c)) 1).untally (Off.err (0x40 + 4 * c)) 1,
      true)

/-- The records of the die's overflow enter the queue as entries free (R440). -/
def State.refillErrors (s : State) : State :=
  let room := 256 - s.errs.queue.length
  { s with errs := { s.errs with
      queue := s.errs.queue ++ s.errs.overflow.take room
      overflow := s.errs.overflow.drop room } }

/-- The handled records of a world, oldest first, written while its ring has room (R296). -/
def State.flushErrors (s : State) (w : Nat) : State :=
  let todo := s.errs.queue.filter (fun e => e.handled && decide (e.world = w))
  let s := todo.foldl (fun s e =>
      match s.releaseError e with
      | (s, true) => { s with errs := { s.errs with queue := s.errs.queue.erase e } }
      | (s, false) => s) s
  (s.refillErrors).syncErq w

/-! ### Provenance leaves (R330, R331) -/

/-- Leaves that one open batch holds at most (R333). -/
def batchLeaves : Nat := 65536

/-- Leaves waiting on die join the open batch in SEQ order, as far as it has room and fewer than 16 closed batches wait (R333, R334);
OPENED is the time of the batch's first leaf. -/
def AuditWorld.join (a : AuditWorld) : AuditWorld :=
  let k := if a.waiting.length < 16 then min a.unbatched (batchLeaves - a.openLeaves.length) else 0
  let l := (a.buffer.drop (a.buffer.length - a.unbatched)).take k
  { a with
    openLeaves := a.openLeaves ++ l
    unbatched := a.unbatched - k
    openedAt := match a.openLeaves, l with
      | [], x :: _ => fieldAt x 0x10 8
      | _, _ => a.openedAt }

/-- Leaves that a batch holds are written to the provenance log while it has room; each is signalled under R328. -/
def State.drainLeavesN (s : State) (w : Nat) : Nat → State
  | 0 => s
  | k + 1 =>
    let r := RingId.plog w
    let a := s.auditWorld w
    match a.buffer with
    | [] => s
    | leaf :: rest =>
      if !s.ringOn r || s.ringFull r || !s.link.up || decide (a.buffer.length ≤ a.unbatched) then s
      else
        let s := s.setAuditWorld w { a with buffer := rest }
        let s := (s.pushEntry r (fun ph => overlay leaf 1 [(leaf.getD 1 0) ||| BitVec.ofNat 8 (128 * ph.toNat)])).signalRing r
        (s.untally (Off.dig w 0x1C) 1).drainLeavesN w k

/-- The buffered leaves batched and written as far as there is room. -/
def State.drainLeaves (s : State) (w : Nat) : State :=
  (s.setAuditWorld w (s.auditWorld w).join).drainLeavesN w (s.auditWorld w).buffer.length

/-- Whether a leaf can be taken: the on-die buffer of 4,096 leaves has room (R331). -/
def State.leafRoom (s : State) (w : Nat) : Bool := decide ((s.auditWorld w).buffer.length < 4096)

/-- A leaf formed: `mk` gives its bytes for its SEQ. It joins the open batch and the log as far as they have room, and waits on die
otherwise (R331, R333, R334). -/
def State.formLeaf (s : State) (w : Nat) (mk : Nat → List Byte) : State :=
  let a := s.auditWorld w
  let a := { a with seq := a.seq + 1, buffer := a.buffer ++ [mk a.seq], unbatched := a.unbatched + 1 }
  (((s.setAuditWorld w a).tally (Off.dig w 0x18) 1).tally (Off.dig w 0x1C) 1).drainLeaves w

/-! ### Batches (R333, R334) -/

/-- The next level of the Merkle tree: pairs hashed, an unpaired node carried up unchanged. -/
def merkleUp : List (List Byte) → List (List Byte)
  | a :: b :: r => shake256 (1 :: (a ++ b)) :: merkleUp r
  | [a] => [a]
  | [] => []

/-- The root of a level, with enough rounds for 65,536 leaves. -/
def merkleRoot (k : Nat) (l : List (List Byte)) : List Byte :=
  match k with
  | 0 => l.headD []
  | k + 1 => if l.length ≤ 1 then l.headD [] else merkleRoot k (merkleUp l)

/-- ROOT of a batch (R333). -/
def batchRoot (leaves : List (List Byte)) : List Byte :=
  merkleRoot 17 (leaves.map (fun x => shake256 (0 :: x)))

/-- Bytes 0x00 to 0x7F of a batch record with PHASE 0 (R334 Table 7). -/
def State.batchHead (s : State) (w : Nat) (b : Batch) (sigLen : Nat) : List Byte :=
  natLe 4 0x48435442 ++ [BitVec.ofNat 8 w, BitVec.ofNat 8 ((sigLen = 0 : Bool).toNat + 2 * b.early.toNat)] ++
  natLe 2 sigLen ++ natLe 8 b.index ++ natLe 8 b.firstSeq ++ natLe 4 b.leaves.length ++
  natLe 4 (s.reg (Off.sec 4)) ++ natLe 8 b.opened ++ natLe 8 b.closed ++ padTo 32 (batchRoot b.leaves) ++
  s.identityDigest ++ List.replicate 16 0

/-- The 8 KiB batch record. -/
def State.batchRecord (s : State) (w : Nat) (b : Batch) (sig : List Byte) (phase : Bool) : List Byte :=
  let h := s.batchHead w b sig.length
  padTo 8192 (overlay h 5 [(h.getD 5 0) ||| BitVec.ofNat 8 (128 * phase.toNat)] ++ sig)

/-- Closed batches whose signature is decided are written while the batch ring has room (R334). -/
def State.drainBatchesN (s : State) (w : Nat) : Nat → State
  | 0 => s
  | k + 1 =>
    let r := RingId.pbat w
    let a := s.auditWorld w
    match a.waiting with
    | [] => s
    | b :: rest =>
      match b.sig with
      | none => s
      | some sig =>
        if !s.ringOn r || s.ringFull r || !s.link.up then s
        else
          let rec_ := s.batchRecord w b sig
          let s := s.setAuditWorld w { a with waiting := rest }
          let s := (s.pushEntry r rec_).signalRing r
          let s := if sig.isEmpty then s.tally (Off.dig w 0x3C) 1 else s
          s.drainBatchesN w k

/-- The waiting batches written as far as the ring has room; leaves that waited for one of the 16 go on. -/
def State.drainBatches (s : State) (w : Nat) : State := (s.drainBatchesN w (s.auditWorld w).waiting.length).drainLeaves w

/-! ### Layer digest log (R328) -/

/-- An entry of the layer digest log: counted, and written, or dropped on a full or disabled log. -/
def State.logDigest (s : State) (w : Nat) (mk : Bool → List Byte) : State :=
  let r := RingId.dlog w
  let s := s.tally (Off.dig w 0x54) 1
  if !s.ringOn r || s.ringFull r then s.tally (Off.dig w 0x58) 1
  else (s.pushEntry r mk).signalRing r

end Sys2Proof.Machine
end

