-- ==== Sys2Proof/Machine/Image.lean ====
section
/-! DEFINITION. The pass image (R21, R22, R23): its header, its sections, the program they hold, the staging checks
of Table 6 (R24) and of the other chapters, and what staging computes of a pass (R151, R152, R165, R325). -/

namespace Sys2Proof.Machine

/-- A pass image in a slot of the pass-image area. -/
structure Img where
  base : Nat
  flags : Nat
  awlLen : Nat
  batch : Nat
  feature : Nat
  length : Nat
  use : List Nat
  rotating : List Nat
  secs : List Section
  prog : Prog
deriving DecidableEq, Repr

/-- The bits set in a 128-byte map. -/
def mapBits (bs : List Byte) : List Nat :=
  (List.range 1024).filter (fun i => (bs.getD (i / 8) 0).getLsbD (i % 8))

/-- Section `i` of the section table (R22 Table 4). -/
def sectionOf (e : List Byte) : Section where
  typ := fieldAt e 0 1
  sflags := fieldAt e 1 1
  tile := fieldAt e 2 2
  index := fieldAt e 4 2
  offset := fieldAt e 8 8
  length := fieldAt e 0x10 8
  digest := (e.drop 0x20).take 32

/-- Whether a section is read from host memory (R22). -/
def Section.host (x : Section) : Bool := x.sflags.testBit 0

/-- A section's content (R22). -/
def State.secBytes (s : State) (base : Nat) (x : Section) : List Byte :=
  if x.host then s.hostBytes (ptrAddr x.offset) x.length else s.memBytes (base + x.offset) x.length

/-- The words of `n` bytes a byte string is cut into. -/
def wordsOf (n : Nat) (bs : List Byte) : List Nat := (chunksOf n bs).map leNat

/-- The section table of an image. -/
def State.imgSecs (s : State) (base : Nat) : List Section :=
  (List.range (s.memNat (base + 0x18) 4)).map (fun i => sectionOf (s.memBytes (base + 0x1000 + 64 * i) 64))

/-- The first section of a type, tile and index. -/
def findSec (l : List Section) (typ tile index : Nat) : Option Section :=
  l.find? (fun x => decide (x.typ = typ) && decide (x.tile = tile) && decide (x.index = index))

/-- The content of a section, empty where there is none. -/
def State.secOr (s : State) (base : Nat) (l : List Section) (typ tile index : Nat) : List Byte :=
  match findSec l typ tile index with
  | some x => s.secBytes base x
  | none => []

/-- A tile's part of an image's program. -/
def State.imgTile (s : State) (base : Nat) (l : List Section) (n : Nat) : PTile where
  tile := n
  steps := wordsOf 32 (s.secOr base l 4 n 0)
  plan := wordsOf 16 (s.secOr base l 5 n 0)
  scales := wordsOf 8 (s.secOr base l 6 n 0)
  pattern := wordsOf 4 (s.secOr base l 2 n 0)

/-- The image at an address. -/
def State.img (s : State) (base : Nat) : Img :=
  let use := mapBits (s.memBytes (base + 0xA0) 128)
  let secs := s.imgSecs base
  { base := base
    flags := s.memNat (base + 6) 2
    awlLen := s.memNat (base + 0xA) 1
    batch := s.memNat (base + 0xB) 1
    feature := s.memNat (base + 0xC) 4
    length := s.memNat (base + 0x10) 8
    use := use
    rotating := mapBits (s.memBytes (base + 0x120) 128)
    secs := secs
    prog := use.map (fun n => s.imgTile base secs n) }

/-- Rotations of a tile (R23). -/
def Img.rotations (g : Img) (n : Nat) : Nat := (g.secs.filter (fun x => decide (x.typ = 7) && decide (x.tile = n))).length

/-- The rotations that may be in force when step `i` of a list runs, `none` for the tile's own sections: each way through the list takes
one more rotation at each SEAM flag, in order and round (R30), so `k` ways leave `k * F + f` of them behind. -/
def Img.rotationsAt (g : Img) (t : PTile) (i : Nat) : List (Option Nat) :=
  let all := (t.steps.filter Step.seam).length
  let f := ((t.steps.take (i + 1)).filter Step.seam).length
  let r := g.rotations t.tile
  if !g.rotating.contains t.tile || decide (r = 0) || decide (all = 0) then [none]
  else (List.range (r + 1)).map (fun k => let n := k * all + f; if n = 0 then none else some ((n - 1) % r))

/-- Every rotation a tile can have in force, its own sections among them. -/
def Img.allRotations (g : Img) (t : PTile) : List (Option Nat) :=
  none :: (if g.rotating.contains t.tile then (List.range (g.rotations t.tile)).map some else [])

/-- The section in force under a rotation: the rotation's spill section where there is one, else the tile's own (R30). -/
def Img.secIn (g : Img) (t : PTile) (spill own : Nat) (rot : Option Nat) : Option Section :=
  match rot.bind (fun r => findSec g.secs spill t.tile r) with
  | some x => some x
  | none => findSec g.secs own t.tile 0

/-- Macros a tile's WEIGHTS section covers (R68, R69). -/
def Img.macrosOf (g : Img) (t : PTile) : Nat :=
  match findSec g.secs 1 t.tile 0 with
  | some x => x.length / 16384
  | none => 0

/-- The pattern tables, scale entries and Awl store a rotation puts in force (R30). -/
def State.patternIn (s : State) (g : Img) (t : PTile) (rot : Option Nat) : List Nat :=
  match rot.bind (fun r => findSec g.secs 8 t.tile r) with
  | some x => wordsOf 4 (s.secBytes g.base x)
  | none => t.pattern
def State.scalesIn (s : State) (g : Img) (t : PTile) (rot : Option Nat) : List Nat :=
  match rot.bind (fun r => findSec g.secs 9 t.tile r) with
  | some x => wordsOf 8 (s.secBytes g.base x)
  | none => t.scales
def State.awlIn (s : State) (g : Img) (t : PTile) (rot : Option Nat) : List Byte :=
  match g.secIn t 10 3 rot with
  | some x => s.secBytes g.base x
  | none => []

/-- Whether every scale entry a step of a tile may find in force passes a test (R30, R69, R196). -/
def State.scaleAll (s : State) (g : Img) (t : PTile) (i k : Nat) (f : Nat → Bool) : Bool :=
  (g.rotationsAt t i).all (fun rot => f ((s.scalesIn g t rot).getD k 0))

/-! ### Header and section rules (R21, R22, R23, Table 6) -/

/-- Whether the header is refused before the rest of the image is read (R24). -/
def lengthBad (len secs limit : Nat) : Bool := decide (limit < len) || decide (len < 0x1000 + 64 * secs)

/-- Whether MAGIC, VERSION, a reserved field or a field's range is wrong. -/
def State.headerBad (s : State) (g : Img) : Bool :=
  decide (s.memNat g.base 4 ≠ 0x53415050) || decide (s.memNat (g.base + 4) 2 ≠ 1) || decide (4 ≤ g.flags) ||
  decide (s.memNat (g.base + 8) 2 ≠ g.use.length) || decide (g.use.length = 0) || decide (3 < g.awlLen) ||
  (!g.flags.testBit 0 && decide (g.batch ≠ 0)) || !allZero (s.memBytes (g.base + 0x1C) 4) ||
  !allZero (s.memBytes (g.base + 0x1A0) 0xE60) || !g.rotating.all (g.use.contains ·) ||
  (g.flags.testBit 0 == g.rotating.isEmpty)

/-- Whether one section entry breaks its format, its size or its place (R22, R23). -/
def State.sectionBad (s : State) (g : Img) (i : Nat) (x : Section) : Bool :=
  let e := s.memBytes (g.base + 0x1000 + 64 * i) 64
  let spill := decide (7 ≤ x.typ)
  decide (x.typ = 0) || decide (10 < x.typ) || decide (2 ≤ x.sflags) || !allZero ((e.drop 6).take 2) ||
  !allZero ((e.drop 0x18).take 8) || !g.use.contains x.tile || (!spill && decide (x.index ≠ 0)) ||
  (spill && !g.rotating.contains x.tile) ||
  (x.host && !(decide (x.typ = 7) && g.flags.testBit 1)) ||
  (if x.typ = 1 ∨ x.typ = 7 then decide (x.length % 16384 ≠ 0) || decide (0x100000 < x.length)
   else if x.typ = 2 ∨ x.typ = 8 then decide (x.length ≠ 16384)
   else if x.typ = 3 ∨ x.typ = 10 then decide (0x40000 < x.length)
   else if x.typ = 4 then decide (x.length % 32 ≠ 0) || decide (0x10000 < x.length)
   else if x.typ = 5 then decide (x.length ≠ 1024)
   else decide (x.length ≠ 2048)) ||
  (if x.host then decide (ptrSpace x.offset ≠ 1) || decide (bitsAt x.offset 52 10 ≠ 0)
   else decide (x.offset % 4096 ≠ 0) || decide (x.offset < 0x1000 + 64 * g.secs.length) ||
     decide (g.length < x.offset + x.length) ||
     (g.secs.zipIdx.any (fun y => decide (y.2 ≠ i) && !y.1.host && decide (y.1.offset < x.offset + x.length) &&
       decide (x.offset < y.1.offset + y.1.length))))

/-- How many sections of a type a tile has. -/
def Img.count (g : Img) (typ n : Nat) : Nat :=
  (g.secs.filter (fun x => decide (x.typ = typ) && decide (x.tile = n))).length

/-- Whether a tile's set of sections breaks R23. -/
def Img.setBad (g : Img) (t : PTile) : Bool :=
  let n := t.tile
  let awl := t.steps.any (fun w => decide (Step.opcode w = Op.awlScan) || decide (Step.predict w = 2))
  !([1, 2, 4, 5, 6].all (fun k => decide (g.count k n = 1))) || decide (g.count 3 n ≠ awl.toNat) ||
  (g.rotating.contains n &&
    (let r := g.count 7 n
     decide (r = 0) || !((List.range r).all (fun i => (findSec g.secs 7 n i).isSome)) ||
     [8, 9, 10].any (fun k => g.secs.any (fun x => decide (x.typ = k) && decide (x.tile = n) && decide (r ≤ x.index)) ||
       (List.range r).any (fun i => decide (1 < (g.secs.filter (fun x =>
         decide (x.typ = k) && decide (x.tile = n) && decide (x.index = i))).length)))))

/-! ### Digests (R21, R22) -/

/-- The bytes of the image that PROGRAM_DIGEST covers: the digest fields as zero, the weight sections left out. -/
def State.programBytes (s : State) (g : Img) : List Byte :=
  let all := overlay (s.memBytes g.base g.length) 0x40 (List.replicate 96 0)
  let out := g.secs.filter (fun x => !x.host && (decide (x.typ = 1) || decide (x.typ = 7)))
  (all.zipIdx.filter (fun b => !out.any (fun x => decide (x.offset ≤ b.2) && decide (b.2 < x.offset + x.length)))).map (·.1)

/-- The bytes WEIGHTS_DIGEST covers: WEIGHTS by tile, then SPILL_WEIGHTS by tile and index. -/
def State.weightBytes (s : State) (g : Img) : List Byte :=
  (g.use.flatMap (fun n => s.secOr g.base g.secs 1 n 0)) ++
  (g.use.flatMap (fun n => (List.range (g.rotations n)).flatMap (fun i => s.secOr g.base g.secs 7 n i)))

/-- The digests of the header that differ, as check numbers; and the sections whose DIGEST differs. -/
def State.digestBad (s : State) (g : Img) : Bool :=
  let prog := s.memBytes (g.base + 0x60) 32
  let wts := s.memBytes (g.base + 0x80) 32
  decide (shake256 (s.programBytes g) ≠ prog) || decide (shake256 (s.weightBytes g) ≠ wts) ||
  decide (shake256 (prog ++ wts) ≠ s.memBytes (g.base + 0x40) 32)
def State.sectionDigestBad (s : State) (g : Img) (x : Section) : Bool :=
  decide (shake256 (s.secBytes g.base x) ≠ x.digest)

/-! ### Step rules (R32 to R35) -/

/-- The bits of a step record that its opcode uses beside OPCODE, flags and LAYER (R33 Table 10). -/
def usedBits (op : Nat) : List (Nat × Nat) :=
  let cim := [(16, 5), (21, 1), (24, 2), (26, 1), (27, 1), (28, 4), (32, 16), (48, 16), (96, 6), (102, 6), (128, 32), (160, 32)]
  match op with
  | 0x01 => cim
  | 0x02 => cim ++ [(64, 16)]
  | 0x03 => cim ++ [(192, 32)]
  | 0x04 => [(16, 5), (32, 16), (48, 16), (96, 6), (102, 6), (128, 32)]
  | 0x05 => [(32, 16), (48, 16), (64, 16), (128, 32), (160, 32), (192, 32), (224, 32)]
  | 0x06 => [(32, 16), (48, 16), (128, 32), (224, 32)]
  | 0x07 => [(28, 4), (32, 16), (48, 16), (80, 4), (88, 8), (128, 32)]
  | 0x08 => [(32, 16), (48, 16), (128, 32)]
  | 0x09 => [(32, 16), (48, 16), (64, 16), (128, 32), (224, 32)]
  | 0x0A => [(48, 16), (128, 32)]
  | 0x0B => [(32, 16), (48, 16), (128, 32), (224, 32)]
  | 0x0C => [(32, 16), (128, 32)]
  | 0x0D => [(28, 4)]
  | _ => []

/-- A step word with every bit its opcode uses cleared; what is left must be zero. -/
def unusedOf (w : Nat) : Nat :=
  let fields := usedBits (Step.opcode w) ++ [(0, 8)] ++ (if Step.opcode w = Op.end_ then [] else [(8, 6), (112, 16)])
  fields.foldl (fun v f => putBits v f.1 f.2 0) w

/-- A step record that breaks R32 to R34 by itself. -/
def Img.stepFormBad (g : Img) (w : Nat) : Bool :=
  let op := Step.opcode w
  decide (op = 0) || decide (op = 0x0E) || decide (0x0F < op) || decide (unusedOf w ≠ 0) ||
  ((Step.isCim w || decide (op = Op.awlScan)) &&
    (decide (Step.awidth w = 0) || decide (16 < Step.awidth w) || decide (63 < Step.mfirst w + Step.mcount w))) ||
  (Step.handles w).any (fun h => !g.use.contains (hTile h) || decide (Rg.kind (g.prog.entry h) = Kind.none)) ||
  (Step.scatters w && (!g.use.contains (Step.scatterTile w) || decide (hIdx (Step.dst w) ≠ 0)))

/-- Whether a step's sum varies by R35, R81, R89, R212, R324: a floating-point sum over data of more than one tile, or a
scatter-add. Data is a region's whatever entry names it: a view or an overlapping entry reads the same bytes (R224). -/
def Prog.mustVary (p : Prog) (tile w : Nat) : Bool :=
  let writers := fun (h : Nat) => sortNat ((p.all.filter (fun x => (Step.writes x.2.2).any (p.meets h))).map (·.1))
  if Step.opcode w = Op.shank then
    decide (Shk.func w = 0x0C) ||
    (decide (Shk.func w = 0x0B) && (Shk.param w).testBit 0 &&
      p.all.any (fun x => decide (x.1 ≠ tile) && decide (Step.opcode x.2.2 = Op.shank) && decide (Shk.func x.2.2 = 0x0B) &&
        (Shk.param x.2.2).testBit 0 && p.meets (Step.dst w) (Step.dst x.2.2)))
  else if Step.opcode w = Op.toeheel then decide (Th.kernel w = 0x20) || decide (Th.kernel w = 0x21)
  else if Step.opcode w = Op.reduce then Red.float w && decide (1 < (writers (Step.src w)).length)
  else decide (Step.opcode w = Op.collect) && Col.float w

/-- A flag that breaks R35, or a VARY on a step that R324 Table 3 does not list; `before` holds the earlier steps of the list. -/
def Prog.flagsBad (p : Prog) (tile : Nat) (before : List Nat) (w : Nat) : Bool :=
  let op := Step.opcode w
  (decide (Step.predict w ≠ 0) && !Step.isCim w) || decide (Step.predict w = 3) ||
  (decide (Step.predict w = 2) && !before.any (fun v => decide (Step.opcode v = Op.awlScan) && decide (Step.layer v = Step.layer w))) ||
  (Step.delta w && !(Step.isCim w || op == Op.requant || op == Op.compress)) ||
  (Step.digest w && !(op == Op.compress || op == Op.toeheel)) ||
  (p.mustVary tile w != Step.vary w)

/-- Whether the steps of one LAYER of a tile's list lie on tiles of two networks (R34). -/
def Prog.networkBad (p : Prog) (t : PTile) : Bool :=
  let net := p.network t.tile
  t.steps.any (fun w => decide (Step.opcode w ≠ Op.end_) &&
    p.all.any (fun x => decide (Step.layer x.2.2 = Step.layer w) && decide (Step.opcode x.2.2 ≠ Op.end_) && !net.contains x.1))

/-! ### CIM rules (R63, R66, R69, R72, R76, R84, R99, R160, R161, R171, R491, R492) -/

/-- The weight width and signedness the list gives a macro (R492): those of a CIM step that names it; WCODE 3 with
WSIGNED set where none does. An AWL_SCAN has no width field of its own (R33); its paired step's count. -/
def macroWidth (steps : List Nat) (m : Nat) : Nat × Bool :=
  match steps.find? (fun w => Step.isCim w && decide (Step.mfirst w ≤ m) && decide (m ≤ Step.mfirst w + Step.mcount w)) with
  | some w => (Step.wcode w, Step.wsigned w)
  | none => (3, true)

/-- Whether two CIM steps of the list name one macro with different widths (R69, R492). -/
def widthClash (steps : List Nat) : Bool :=
  (List.range 64).any (fun m => steps.any (fun w => Step.isCim w && decide (Step.mfirst w ≤ m) &&
    decide (m ≤ Step.mfirst w + Step.mcount w) && decide ((Step.wcode w, Step.wsigned w) ≠ macroWidth steps m)))

/-- The REQUANT steps of a tile that read a range for a LAYER, with their index. -/
def PTile.requants (t : PTile) (h layer : Nat) : List (Nat × Nat) :=
  t.steps.zipIdx.filter (fun x => decide (Step.opcode x.1 = Op.requant) && decide (Step.src x.1 = h) &&
    decide (Step.layer x.1 = layer))

/-- Whether a REQUANT of the owning tile finds a scale entry that marks a ReLU, in every rotation that may be in force there (R69, R104). -/
def State.reluFor (s : State) (g : Img) (t : PTile) (h layer after : Nat) : Bool :=
  (t.requants h layer).any (fun x => decide (after ≤ x.2) && s.scaleAll g t x.2 (Step.scale x.1) Sc.relu)

/-- The rules of R69 and R72 on one CIM step; `i` is its index. -/
def State.cimBad (s : State) (g : Img) (t : PTile) (i w : Nat) : Bool :=
  let op := Step.opcode w
  let e := g.prog.entry (Step.dst w)
  let pr := Step.predict w
  decide (Step.count1 w = 0) || decide (g.macrosOf t ≤ Step.mfirst w + Step.mcount w) ||
  decide (hTile (Step.src w) ≠ t.tile) ||
  (Step.transpose w && (decide (op ≠ Op.cimDense) || decide (pr ≠ 0) || Step.delta w)) ||
  (decide (pr = 1) &&
    (decide (op ≠ Op.cimDense) || Step.delta w || Step.transpose w || decide (Rg.kind e ≠ Kind.ledger) ||
      decide (Rg.slices e ≠ 1) || decide (Step.spill w < Step.count1 w) ||
      decide (1 < (g.prog.drainers (Step.dst w)).length) ||
      !(match g.prog.tile? (hTile (Step.dst w)) with
        | some o => s.reluFor g o (Step.dst w) (Step.layer w) (if o.tile = t.tile then i + 1 else 0)
        | none => false))) ||
  (!Step.transpose w && decide (Step.e w = 24)) ||
  (op == Op.cimMatch && !(pr == 0 || pr == 2))

/-- The rules of R76 and R491 on a CIM step's ledger range. -/
def Prog.rangeBad (p : Prog) (w : Nat) : Bool :=
  let e := p.entry (Step.dst w)
  if Step.scatters w then false
  else if Rg.kind e ≠ Kind.ledger then true
  else
    decide (Step.m w % Rg.slices e ≠ 0) || decide (Rg.llength e < Rg.depth e * p.stepB w) ||
    (p.drainers (Step.dst w)).any (fun x => decide (p.stepB x.2.2 ≠ p.stepB w))

/-- Two ledger ranges of a tile that overlap (R76). -/
def PTile.ledgerOverlap (t : PTile) : Bool :=
  let l := (t.plan.zipIdx.filter (fun x => decide (Rg.kind x.1 = Kind.ledger)))
  l.any (fun x => l.any (fun y => decide (x.2 ≠ y.2) && decide (Rg.lbase x.1 < Rg.lbase y.1 + Rg.llength y.1) &&
    decide (Rg.lbase y.1 < Rg.lbase x.1 + Rg.llength x.1)))

/-- The record of the tag table for a tag: the CIM fields and the SCALE entry (R84). -/
def tagFields (w : Nat) : List Nat :=
  [Step.awidth w, (Step.asigned w).toNat, Step.wcode w, (Step.wsigned w).toNat, (Step.transpose w).toNat]

/-- Whether the tags of a list break R84. -/
def Prog.tagsBad (p : Prog) (t : PTile) : Bool :=
  let cims := t.steps.filter Step.isCim
  let rqs := t.steps.filter (fun w => decide (Step.opcode w = Op.requant))
  cims.any (fun w => cims.any (fun v => decide (Step.tag v = Step.tag w) && decide (tagFields v ≠ tagFields w))) ||
  rqs.any (fun w => rqs.any (fun v => decide (Step.tag v = Step.tag w) && decide (Step.scale v ≠ Step.scale w))) ||
  rqs.any (fun w =>
    let h := Step.src w
    decide (Rg.kind (p.entry h) = Kind.ledger) &&
    !p.all.any (fun x => decide (x.1 = t.tile) && decide (Step.opcode x.2.2 = Op.reduce) && decide (Red.kind x.2.2 = 6) &&
      decide (Step.dst x.2.2 = h)) &&
    !(p.drainers h ++ (match p.collector h with
        | some c => p.drainers (Step.src c)
        | none => [])).any (fun x => decide (Step.tag x.2.2 = Step.tag w))) ||
  ((List.range t.steps.length).any (fun i =>
    let w := t.steps.getD i 0
    Step.isCim w &&
    (let before := t.steps.take i
     match (before.zipIdx.filter (fun x => Step.isCim x.1)).getLast? with
     | none => false
     | some v => decide (Step.tag v.1 ≠ Step.tag w) &&
        !(before.drop (v.2 + 1)).any (fun u => decide (Step.opcode u = Op.seam) && decide (Step.tag u = Step.tag w)))))

/-- Whether a COUNT0 that counts entries is no multiple of B (R491, R88). -/
def Prog.countBad (p : Prog) (w : Nat) : Bool :=
  let op := Step.opcode w
  let bad := fun (h : Nat) =>
    let b := p.rangeB 64 h
    decide (b = 0) || decide (Step.count0 w % b ≠ 0)
  let led := fun (h : Nat) => decide (Rg.kind (p.entry h) = Kind.ledger)
  if op = Op.requant then led (Step.src w) && bad (Step.src w)
  else if op = Op.reduce then
    (led (Step.src w) && bad (Step.src w)) || (decide (Red.kind w = 6) && bad (Step.dst w))
  else false

/-- Whether a range that nothing drains into has no whole B (R491). -/
def Prog.wholeBad (p : Prog) (t : PTile) : Bool :=
  t.plan.zipIdx.any (fun x => decide (Rg.kind x.1 = Kind.ledger) &&
    (p.drainers (64 * t.tile + x.2)).isEmpty && (p.collector (64 * t.tile + x.2)).isNone &&
    decide (Rg.llength x.1 % Rg.depth x.1 ≠ 0))

/-- Whether a ledger range of a tile may come to hold a sum of more than 2^40 − 1 terms (R82). -/
def Prog.termsBad (p : Prog) (t : PTile) : Bool :=
  t.plan.zipIdx.any (fun x => decide (Rg.kind x.1 = Kind.ledger) && decide (2 ^ 40 - 1 < p.termsMost 64 (64 * t.tile + x.2)))

/-- The rules of R160, R161 and R171 on a delta CIM step, and of R162 on its DST; `pat` is the tile's pattern. -/
def Prog.deltaCimBad (p : Prog) (pat : List Nat) (w : Nat) : Bool :=
  let src := p.entry (Step.src w)
  let twin := p.entry (Step.src w + 1)
  let tab := Rg.table src
  let lo := Pt.level pat tab 0
  let hi := Pt.level pat tab (topOf (wBits (Rg.bits src)))
  let s := (Rg.channels src + 255) / 256
  (decide (Step.opcode w = Op.cimScatter) && !Step.delta w) ||
  (Step.scatters w &&
    (decide (Step.count1 w ≠ 1) || decide (Rg.kind src ≠ Kind.eyelet) || !Step.asigned w ||
      decide ((2 : Int) ^ (Step.awidth w - 1) - 1 < max (hi - lo) (max lo.natAbs hi.natAbs)) ||
      decide (63 ≤ hIdx (Step.src w)) || decide (Rg.kind twin ≠ Kind.eyelet) || decide (src / 2 ^ 22 ≠ twin / 2 ^ 22) ||
      (if Step.opcode w = Op.cimScatter then
        decide (Step.count2 w ≠ Rg.kh src * Rg.kw src) || decide (Step.count2 w = 0) || decide (Step.m w % (Step.count2 w * s) ≠ 0)
       else decide (Rg.kh src ≠ 1) || decide (Rg.kw src ≠ 1) || decide (Step.m w % s ≠ 0))))

/-- A LAYER whose delta CIM steps lack a SCATTER_MERGE or a DELTA REQUANT, or the reverse (R171). -/
def Prog.mergeBad (p : Prog) (layer : Nat) : Bool :=
  let at_ := fun (f : Nat → Bool) => p.all.any (fun x => decide (Step.layer x.2.2 = layer) && f x.2.2)
  let sc := at_ Step.scatters
  (sc != at_ (fun w => decide (Step.opcode w = Op.scatterMerge))) ||
  (sc && !at_ (fun w => decide (Step.opcode w = Op.requant) && Step.delta w))

/-! ### Tables, scales and regions (R98, R99, R105, R127, R159, R224) -/

/-- A valid pattern table whose levels or thresholds do not rise as R98 says. -/
def tableBad (pat : List Nat) (tab : Nat) : Bool :=
  Pt.valid pat tab &&
  ((List.range (Pt.size pat tab - 1)).any (fun k =>
    let i := k + 1
    decide (Pt.level pat tab i ≤ Pt.level pat tab (i - 1)) || decide (Pt.thresh pat tab i ≤ Pt.level pat tab (i - 1)) ||
    decide (Pt.level pat tab i < Pt.thresh pat tab i)) ||
   (List.range 256).any (fun i => decide (bitsAt (Pt.entry pat tab i) 12 4 ≠ 0) ||
     (decide (0 < i) && decide (bitsAt (Pt.entry pat tab i) 29 3 ≠ 0)) ||
     (decide (i = 0) && decide (bitsAt (Pt.entry pat tab i) 16 13 ≠ 0)) ||
     (decide (Pt.size pat tab ≤ i) && decide (Pt.entry pat tab i ≠ 0))))

/-- Whether a code width b does not fit a table (R99). -/
def widthBad (pat : List Nat) (tab b : Nat) : Bool := !Pt.valid pat tab || (Pt.n256 pat tab != decide (b = 8))

/-- Whether a scale entry uses a reserved bit or value (R104). -/
def Sc.reserved (e : Nat) : Bool := decide (1 < Sc.nl e) || e.testBit 47 || decide (Sc.smode e = 3) || decide (bitsAt e 56 8 ≠ 0)

/-- The rules of R98, R99 and R105 on a REQUANT step. -/
def Img.requantBad (g : Img) (pat scales : List Nat) (t : PTile) (w : Nat) : Bool :=
  let e := scales.getD (Step.scale w) 0
  let src := g.prog.entry (Step.src w)
  let mode := Sc.smode e
  widthBad pat (Step.ptab w) (Sc.bits e) || decide (Sc.mult e = 0) || Sc.reserved e ||
  (decide (mode ≠ 2) && decide (Sc.window e ≠ 0)) ||
  (decide (mode ≠ 0) && (decide (Sc.offset e ≠ 0) || decide (Sc.target pat (Step.ptab w) e ≤ 0))) ||
  (decide (mode = 1) &&
    (Step.delta w ||
      g.prog.all.any (fun x => Step.isCim x.2.2 && decide (Step.layer x.2.2 = Step.layer w) && decide (Step.predict x.2.2 = 1)) ||
      g.prog.all.any (fun x => decide (Step.opcode x.2.2 = Op.requant) && decide (Step.layer x.2.2 = Step.layer w) &&
        decide (x.1 ≠ t.tile)) ||
      (decide (Rg.kind src = Kind.ledger) &&
        decide (Rg.depth src * g.prog.rangeB 64 (Step.src w) < Step.count0 w))))

/-- A region entry whose kind, fields or ranges break R223, R224 or R127. -/
def planEntryBad (pat : List Nat) (e : Nat) : Bool :=
  let k := Rg.kind e
  decide (5 < k) ||
  (if k = 0 then decide (e ≠ 0)
   else if k = 5 then
     decide (Rg.base e ≠ 0) || decide (Rg.size e ≠ 0) || decide (Rg.llength e = 0) || decide (4096 < Rg.llength e) ||
     decide (4096 < Rg.lbase e + Rg.llength e) || decide (e / 2 ^ 61 ≠ 0)
   else
     decide (Rg.size e = 0) || decide (384 < Rg.base e + Rg.size e) ||
     (if k = 4 then
        decide (Rg.channels e = 0) || decide (Rg.width e = 0) || decide (Rg.kh e = 0) || decide (Rg.kw e = 0) ||
        decide (Rg.pstep e = 0) || e.testBit 127 || widthBad pat (Rg.table e) (wBits (Rg.bits e)) ||
        decide (196608 < Rg.kh e * (Rg.width e + Rg.pw e) * Rg.channels e) ||
        (Rg.balance e && (decide (Rg.kh e ≠ 1) || decide (Rg.kw e ≠ 1)))
      else if k = 3 then decide (Rg.recsize e = 0) || decide (e / 2 ^ 37 ≠ 0)
      else
        decide (Rg.mode e = 3) || decide (Rg.elem e = 3) || decide (e / 2 ^ 56 ≠ 0) ||
        (if Rg.mode e = 0 then decide (bitsAt e 24 32 ≠ 0)
         else if Rg.mode e = 1 then decide (Rg.stride e % 2 ^ Rg.elem e ≠ 0) || decide (bitsAt e 46 10 ≠ 0)
         else decide (Rg.bytes e < (Rg.rows e - 1) * Rg.stride e + Rg.cols e * 2 ^ Rg.elem e))))

/-- A CIRCULAR or WSTAGE region that overlaps another, or two that share a CQ (R224). -/
def PTile.planBad (t : PTile) : Bool :=
  let l := t.plan.zipIdx.filter (fun x => decide (1 ≤ Rg.kind x.1) && decide (Rg.kind x.1 ≤ 4))
  l.any (fun x => l.any (fun y => decide (x.2 ≠ y.2) &&
    (((decide (Rg.kind x.1 = 2) || decide (Rg.kind x.1 = 3)) && decide (Rg.base x.1 < Rg.base y.1 + Rg.size y.1) &&
        decide (Rg.base y.1 < Rg.base x.1 + Rg.size x.1)) ||
     (decide (Rg.kind x.1 = 3) && decide (Rg.kind y.1 = 3) && decide (Rg.cq x.1 = Rg.cq y.1)))))

/-- Whether a step uses a circular region otherwise than Table 7 says (R230): which producers and consumers, with which record size, and
the consumer on the owning tile. -/
def Prog.circularBad (p : Prog) (tile w : Nat) : Bool :=
  let op := Step.opcode w
  let rec_ := fun (h k : Nat) => decide (Rg.recsize (p.entry h) = k)
  (Step.handles w).any (fun h => decide (Rg.kind (p.entry h) = Kind.circular) &&
    !((decide (h = Step.dst w) && (Step.dstHandle w).contains h &&
        ((op == Op.scatterMerge && rec_ h 33) || (op == Op.requant && Step.delta w && rec_ h 9) || (op == Op.awlScan && rec_ h 4))) ||
      (decide (h = Step.src w) && (Step.srcHandle w).contains h && decide (hTile h = tile) &&
        ((op == Op.requant && Step.delta w && rec_ h 33) || (op == Op.compress && Step.delta w && rec_ h 9)))))

/-- The AWL_SCAN a PREDICT = 2 step is paired with: the latest earlier one of the same fields (R179). -/
def awlPair (before : List Nat) (w : Nat) : Option Nat :=
  (before.filter (fun v => decide (Step.opcode v = Op.awlScan) && decide (Step.layer v = Step.layer w) &&
    decide (Step.mfirst v = Step.mfirst w) && decide (Step.mcount v = Step.mcount w) &&
    decide (Step.src v = Step.src w) && decide (Step.count0 v = Step.count0 w))).getLast?

/-- The handles a step reads data from, the class map of a PREDICT = 2 step among them (R179); `before` holds the earlier steps. -/
def readsWithMap (before : List Nat) (w : Nat) : List Nat :=
  Step.reads w ++ (if Step.predict w = 2 then ((awlPair before w).map Step.dst).toList else [])

/-- The rules of R127, R159, R167, R168, R33, R102 and R224 on the regions a step names; `before` holds the earlier
steps of its list. -/
def Prog.regionsBad (p : Prog) (tile : Nat) (before : List Nat) (w : Nat) : Bool :=
  let op := Step.opcode w
  let k := fun (h : Nat) => Rg.kind (p.entry h)
  let flat := fun (h : Nat) => k h == 1 || k h == 2
  -- views are for reading
  (Step.dstHandle w).any (fun h => flat h && decide (Rg.mode (p.entry h) ≠ 0)) ||
  -- data of another tile that a step of the pass writes
  ((if op = Op.waitRange then [] else Step.srcHandle w) ++ Step.auxHandle w).any (fun h =>
    decide (hTile h ≠ tile) && (flat h || k h == 4) && p.all.any (fun x => (Step.writes x.2.2).contains h)) ||
  -- a region another tile's steps write needs an earlier WAIT_RANGE
  (readsWithMap before w).any (fun h => (flat h || k h == 4) &&
    p.all.any (fun x => decide (x.1 ≠ tile) && (Step.writes x.2.2).contains h) &&
    !before.any (fun v => decide (Step.opcode v = Op.waitRange) && decide (Step.src v = h))) ||
  (Step.isCim w && !(k (Step.src w) == 4 || (flat (Step.src w) && decide (Step.awidth w ≤ 8)))) ||
  (op == Op.cimMatch && (decide (Rg.kh (p.entry (Step.src w)) ≠ 1) || decide (Rg.kw (p.entry (Step.src w)) ≠ 1)) && k (Step.src w) == 4) ||
  (op == Op.compress && k (Step.dst w) != 4) ||
  (Step.writesTwin w && (decide (63 ≤ hIdx (Step.dst w)) || k (Step.dst w + 1) != 4 ||
    decide (p.entry (Step.dst w) / 2 ^ 22 ≠ p.entry (Step.dst w + 1) / 2 ^ 22))) ||
  (op == Op.scatterMerge && k (Step.dst w) != 3) || p.circularBad tile w ||
  (op == Op.waitRange && (decide (hTile (Step.src w) ≠ tile) || decide (Step.count0 w % 4 ≠ 0))) ||
  (op == Op.collect && (decide (hTile (Step.src w) ≠ tile) || k (Step.src w) != 5 || decide (Col.count w = 0) ||
    decide (1024 < Col.count w) || decide (bitsAt (Step.arg w) 11 5 ≠ 0) || decide (Step.arg w / 2 ^ 17 ≠ 0)))

/-! ### REDUCE, SHANK, TOEHEEL arguments (R88, R211, R212, R214) -/

/-- A REDUCE argument that breaks R88. -/
def Prog.reduceBad (p : Prog) (w : Nat) : Bool :=
  let k := Red.kind w
  let inf := Red.inf w
  let src := p.entry (Step.src w)
  let aux := p.entry (Step.aux w)
  decide (6 < k) ||
  (decide (k ≤ 2) && (decide (Red.group w = 0) || decide (Step.count0 w % Red.group w ≠ 0))) ||
  (decide (2 < k) && (Red.float w || decide (Red.group w ≠ 0))) ||
  ((k == 1 || k == 2) && decide (inf = 3)) || ((k == 3 || k == 5) && decide (inf ≠ 3)) ||
  (k == 4 && decide (inf < 2)) || (k == 6 && decide (inf ≠ 2)) ||
  (Red.float w && (decide (inf = 0) || decide (inf = 3))) ||
  (k != 3 && k != 4 && decide (Red.shift w ≠ 0)) || (k != 4 && (Red.osigned w || decide (Red.outw w ≠ 0))) ||
  (if k = 4 then !(Rg.kind aux == 1 || Rg.kind aux == 2) || decide (Rg.bytes aux < (Step.count0 w + 7) / 8)
   else decide (Step.aux w ≠ 0)) ||
  (decide (inf = 3) != decide (Rg.kind src = Kind.ledger))

/-- A SHANK argument that breaks R211. -/
def shankBad (w : Nat) : Bool :=
  decide (Shk.func w = 0) || decide (0x0C < Shk.func w) || decide (7 < Shk.ifmt w) || decide (7 < Shk.ofmt w)

/-- Whether a DENSE or CONV block with `n` products a sum breaks the limits of R214 on its accumulator. -/
def State.kernelSumBad (s : State) (a n : Nat) : Bool :=
  let inf := s.memNat (a + 1) 1
  let wf := s.memNat (a + 2) 1
  let dim0 := s.memNat (a + 4) 4
  (intCode inf && intCode wf && decide (65536 < n)) ||
  (decide (inf = 0) && decide (wf = 0) && (List.range dim0).any (fun o =>
    decide (2 ^ 31 - 1 < 2 ^ 14 * n + (signedOf 32 (s.memNat (a + 32 + 4 * o) 4)).natAbs)))

/-- Whether the resize fields of a pixel kernel's block break R205. -/
def State.resizeBad (s : State) (a : Nat) : Bool := decide (1 < s.memNat (a + 0x24) 1) || decide (s.memNat (a + 0x25) 3 ≠ 0)

/-- Whether a PIX_FIRST block breaks R205, R208 or R214. -/
def State.pixelBlockBad (s : State) (a dst : Nat) : Bool :=
  let d2 := s.memNat (a + 0xC) 4
  let cout := s.memNat (a + 4) 4
  let cin := s.memNat (a + 8) 4
  let sc := s.memNat (a + 0x28) 8
  let tab := wordsOf 4 (s.memBytes (a + 0x80) 1024)
  let width : Int := ((s.memNat (a + 0x20) 2 : Int) + 2 * bitsAt d2 15 3 - bitsAt d2 4 4) / (bitsAt d2 10 2 + 1) + 1
  decide (s.memNat (a + 1) 3 ≠ 1) || decide (cout = 0) || decide (256 < cout) ||
  decide (s.memNat (a + 0x10) 4 < 0x460 + 4 * cout + cout * (bitsAt d2 0 4 * bitsAt d2 4 4) * cin) ||
  s.resizeBad a || !allZero (s.memBytes (a + 0x48) 56) ||
  decide (Sc.smode sc ≠ 0) || Sc.reserved sc || decide (Sc.window sc ≠ 0) || widthBad tab 0 (Sc.bits sc) || tableBad tab 0 ||
  decide (Rg.kind dst ≠ Kind.eyelet) || decide (Rg.channels dst ≠ cout) || decide (wBits (Rg.bits dst) ≠ Sc.bits sc) ||
  decide ((Rg.width dst : Int) ≠ width)

/-- A TOEHEEL argument or parameter block that breaks R214. -/
def State.toeheelBad (s : State) (g : Img) (w : Nat) : Bool :=
  let kn := Th.kernel w
  let off := 4096 * Th.pblk w
  let blk := s.memBytes (g.base + off) 32
  let body := fieldAt blk 0x10 4
  let dim0 := fieldAt blk 4 4
  let dim1 := fieldAt blk 8 4
  let d2 := fieldAt blk 0xC 4
  let size := fun (f : Nat) => [1, 2, 2, 2, 4, 1, 1, 4].getD f 4
  let kk := bitsAt d2 0 4 * bitsAt d2 4 4
  let acc := accBytes (fieldAt blk 1 1) (fieldAt blk 2 1)
  let dst := g.prog.entry (Step.dst w)
  !([1, 2, 0x10, 0x11, 0x18, 0x19, 0x1A, 0x1B, 0x1C, 0x20, 0x21, 0x30].contains kn) ||
  (Th.any w && decide (Th.unit w ≠ 0)) || (!Th.any w && decide (kn ≤ 2)) || (Th.pdelta w && decide (kn ≠ 1)) ||
  (if Th.pblk w = 0 then decide (kn ≤ 2) || kn == 0x10 || kn == 0x11
   else
    decide (g.length < off + 32 + body) || decide (off < 0x1000 + 64 * g.secs.length) ||
    g.secs.any (fun x => !x.host && decide (x.offset < off + 32 + body) && decide (off < x.offset + x.length)) ||
    decide (fieldAt blk 0 1 ≠ kn) || decide (7 < fieldAt blk 1 1) || decide (7 < fieldAt blk 2 1) || decide (7 < fieldAt blk 3 1) ||
    !allZero ((blk.drop 0x18).take 8) || decide (d2 / 2 ^ 18 ≠ 0) ||
    (if kn = 0x10 then decide (body < dim0 * acc + dim0 * dim1 * size (fieldAt blk 2 1)) ||
        s.kernelSumBad (g.base + off) dim1
     else if kn = 0x11 then decide (body < dim0 * acc + dim0 * dim1 * kk * size (fieldAt blk 2 1)) ||
        s.kernelSumBad (g.base + off) (dim1 * kk)
     else if kn = 1 then s.pixelBlockBad (g.base + off) dst
     else if kn = 2 then decide (body < 0x28) || s.resizeBad (g.base + off)
     else false))

/-! ### Awl rules (R179, R184, R196) -/

/-- The image of a macro in an Awl store (R184): its offset, 0 for none, and its length for a width code. -/
def awlOffset (store : List Byte) (m : Nat) : Nat := fieldAt store (4 * m) 4
def awlImageLen (wcode : Nat) : Nat := 8 + 4 * (512 / wBits wcode) + 192 / wBits wcode * 256

/-- Whether a macro's image is missing or breaks R184 for a width code. -/
def awlImageBad (store : List Byte) (m wcode : Nat) : Bool :=
  let o := awlOffset store m
  let h := fieldAt store o 8
  decide (o = 0) || decide (store.length < o + awlImageLen wcode) || decide (bitsAt h 24 2 ≠ wcode) ||
  decide (putBits (putBits (putBits (putBits h 0 6 0) 8 6 0) 16 6 0) 24 2 0 ≠ 0) ||
  (List.range (512 / wBits wcode)).any (fun j => decide (fieldAt store (o + 8 + 4 * j) 2 = 0)) ||
  (let cp := o + 8 + 4 * (512 / wBits wcode)
   (List.range 256).any (fun r =>
     let row := fieldAt store (cp + r * (192 / wBits wcode)) (192 / wBits wcode)
     (List.range (512 / wBits wcode)).any (fun j => decide (bitsAt row (3 * j) 3 = 4))))

/-- Whether the images of a block of macros do not share header and output words (R184). -/
def awlBlockBad (store : List Byte) (first count slices wcode : Nat) : Bool :=
  (List.range count).any (fun k =>
    let a := awlOffset store (first + k / slices * slices)
    let b := awlOffset store (first + k)
    let n := 8 + 4 * (512 / wBits wcode)
    decide ((store.drop a).take n ≠ (store.drop b).take n))

/-- Two images of a store that overlap, or one outside it. -/
def awlStoreBad (store : List Byte) : Bool :=
  let l := (List.range 64).filterMap (fun m =>
    let o := awlOffset store m
    if o = 0 then none else some (o, awlImageLen (bitsAt (fieldAt store o 8) 24 2)))
  decide (0 < store.length ∧ store.length < 256) ||
  l.any (fun x => decide (store.length < x.1 + x.2) || decide (x.1 < 256)) ||
  l.zipIdx.any (fun x => l.zipIdx.any (fun y => decide (x.2 ≠ y.2) && decide (x.1.1 < y.1.1 + y.1.2) && decide (y.1.1 < x.1.1 + x.1.2)))

/-- Whether a LEVEL of an EYELET source does not fit the AWIDTH of an AWL_SCAN (R179). -/
def awlLevelBad (pat : List Nat) (src scan : Nat) : Bool :=
  decide (Rg.kind src = Kind.eyelet) && (List.range (Pt.size pat (Rg.table src))).any (fun c =>
    decide (2 ^ Step.awidth scan ≤ (Pt.level pat (Rg.table src) c).natAbs))

/-- The rules of R179 and R196 on step `i` under one rotation. A is the AWIDTH of the AWL_SCAN, whose ASIGNED R33 leaves no bit but
zero. -/
def State.awlBad (s : State) (g : Img) (t : PTile) (i w : Nat) (rot : Option Nat) : Bool :=
  let pat := s.patternIn g t rot
  let store := s.awlIn g t rot
  if Step.predict w = 2 then
    let e := g.prog.entry (Step.dst w)
    let src := g.prog.entry (Step.src w)
    Step.delta w || decide (Step.opcode w = Op.cimScatter) || decide (Step.count1 w ≠ 1) || decide (Rg.kind e ≠ Kind.ledger) ||
    (match awlPair (t.steps.take i) w with
     | none => true
     | some v => awlLevelBad pat src v) ||
    !(g.prog.all.any (fun x => decide (Step.opcode x.2.2 = Op.requant) && decide (Step.layer x.2.2 = Step.layer w) &&
      (decide (x.1 ≠ t.tile) || decide (i < x.2.1)) &&
      (match g.prog.tile? x.1 with
       | some o => s.scaleAll g o x.2.1 (Step.scale x.2.2) (fun sc => Sc.relu sc && decide (Sc.smode sc ≠ 1))
       | none => false))) ||
    (List.range (Step.m w)).any (fun k => awlImageBad store (Step.mfirst w + k) (Step.wcode w)) ||
    awlBlockBad store (Step.mfirst w) (Step.m w) (Rg.slices e) (Step.wcode w)
  else if Step.opcode w = Op.awlScan then
    let e := g.prog.entry (Step.dst w)
    decide (hTile (Step.dst w) ≠ t.tile) || decide (hTile (Step.src w) ≠ t.tile) || decide (Rg.bytes e < 32 * Step.count0 w) ||
    awlLevelBad pat (g.prog.entry (Step.src w)) w || awlStoreBad store ||
    (List.range (Step.m w)).any (fun k =>
      let m := Step.mfirst w + k
      awlImageBad store m (bitsAt (fieldAt store (awlOffset store m) 8) 24 2))
  else false

/-- The Awl slots of a generation: its LAYERs with PREDICT = 2 steps, rising (R190). -/
def Prog.awlLayers (p : Prog) : List Nat :=
  sortNat ((p.all.filter (fun x => Step.isCim x.2.2 && decide (Step.predict x.2.2 = 2))).map (fun x => Step.layer x.2.2))

/-! ### Layer digests and seams (R327, R493) -/

/-- Whether a step is a PIX_FIRST. -/
def Step.firstLayer (w : Nat) : Bool := decide (Step.opcode w = Op.toeheel) && decide (Th.kernel w = 1)

/-- The rows or vectors a DIGEST step covers. -/
def Prog.digestRows (p : Prog) (w : Nat) : List Nat :=
  if Step.opcode w = Op.compress ∨ Step.firstLayer w = true then
    let e := p.entry (Step.dst w)
    (List.range (Step.count0 w)).map (fun r => Rg.first e + r)
  else List.range (Step.count0 w)

/-- DIGEST steps of one LAYER that overlap, or on both COMPRESS and non-pixel TOEHEEL steps (R327). -/
def Prog.digestStepsBad (p : Prog) (layer : Nat) : Bool :=
  let l := (p.all.filter (fun x => Step.digest x.2.2 && decide (Step.layer x.2.2 = layer))).map (·.2.2)
  (l.any (fun w => decide (Step.opcode w = Op.compress)) &&
    l.any (fun w => decide (Step.opcode w = Op.toeheel) && !Step.isPixel w)) ||
  l.zipIdx.any (fun x => l.zipIdx.any (fun y => decide (x.2 < y.2) && (p.digestRows x.1).any ((p.digestRows y.1).contains ·)))

/-- Positions of a ledger range a step consumes (R491). -/
def Prog.consumes (p : Prog) (w h : Nat) : Nat :=
  let op := Step.opcode w
  if (op = Op.requant ∨ (op = Op.reduce ∧ Red.kind w ≠ 6)) ∧ Step.src w = h then Step.count0 w / p.rangeB 64 h
  else if op = Op.collect ∧ Step.src w = h then Step.count0 w else 0

/-- Slots of a ledger range that a step opens at the range's next positions: COLLECT one for each position, IMPORT and a SHANK sum as
many as their entries fill (R81, R83, R93). -/
def Prog.opens (p : Prog) (w h : Nat) : Nat :=
  let op := Step.opcode w
  let b := max 1 (p.rangeB 64 h)
  if Step.dst w ≠ h then 0
  else if op = Op.collect then Step.count0 w
  else if op = Op.reduce ∧ Red.kind w = 6 then Step.count0 w / b
  else if op = Op.shank ∧ Shk.func w = 9 then (max 1 (Step.count1 w) * Step.count2 w + b - 1) / b
  else if op = Op.shank ∧ Shk.func w = 0xB then (max 1 (Step.count1 w) + b - 1) / b
  else 0

/-- Whether a ledger slot, a scatter entry or a circular record that the first `f` steps produce on the tile is not
consumed by them (R493). -/
def Prog.seamBad (p : Prog) (t : PTile) (f : Nat) : Bool :=
  let before := t.steps.take f
  let here := fun (i : Nat) => 64 * t.tile + i
  t.plan.zipIdx.any (fun x =>
    let h := here x.2
    if Rg.kind x.1 = Kind.ledger then
      let made := sortNat ((before.filter (fun w => Step.isCim w && !Step.scatters w && decide (Step.dst w = h))).flatMap p.stepPositions)
      let opened := sumNat (before.map (fun w => p.opens w h))
      let used := sumNat (before.map (fun w => p.consumes w h))
      match p.positions 64 h with
      | some l => !(made ++ l.take opened).all ((l.take used).contains ·)
      | none => decide (used < opened)
    else if Rg.kind x.1 = Kind.circular then
      decide ((before.zipIdx.filter (fun x => (readsWithMap (before.take x.2) x.1).contains h)).length <
        (before.filter (fun w => (Step.writes w).contains h)).length)
    else false) ||
  before.any (fun w => Step.scatters w && decide (Step.scatterTile w = t.tile) &&
    !before.any (fun v => decide (Step.opcode v = Op.scatterMerge) && decide (Step.layer v = Step.layer w)))

/-- Whether a SEAM-flagged step of the list could stall (R493). -/
def Prog.seamsBad (p : Prog) (t : PTile) : Bool :=
  t.steps.zipIdx.any (fun x => Step.seam x.1 && p.seamBad t x.2)

/-! ### All of Table 6 -/

/-- The checks of one tile's list, plan, tables and scales, in this model's order; each is true where it fails. -/
def State.tileChecks (s : State) (g : Img) (t : PTile) : List Bool :=
  let p := g.prog
  let at_ := fun (f : Nat → Nat → Bool) => t.steps.zipIdx.any (fun x => f x.2 x.1)
  let under := fun (f : Nat → Nat → Option Nat → Bool) => at_ (fun i w => (g.rotationsAt t i).any (f i w))
  let tables := (g.allRotations t).map (s.patternIn g t)
  [ decide (2048 < t.steps.length) || decide (t.steps.getLast?.map Step.opcode ≠ some Op.end_),
    t.steps.any (fun w => g.stepFormBad w),
    at_ (fun i w => p.flagsBad t.tile (t.steps.take i) w),
    t.steps.any (fun w => decide (Step.opcode w = Op.end_) && Step.seam w),
    p.networkBad t,
    at_ (fun i w => Step.isCim w && s.cimBad g t i w),
    widthClash t.steps,
    t.steps.any (fun w => Step.isCim w && p.rangeBad w),
    t.ledgerOverlap,
    p.tagsBad t,
    t.steps.any (fun w => p.countBad w),
    p.wholeBad t,
    under (fun _ w rot => Step.isCim w && p.deltaCimBad (s.patternIn g t rot) w),
    tables.any (fun pat => (List.range 16).any (tableBad pat)),
    under (fun _ w rot => decide (Step.opcode w = Op.requant) && g.requantBad (s.patternIn g t rot) (s.scalesIn g t rot) t w),
    tables.any (fun pat => t.plan.any (planEntryBad pat)),
    t.planBad,
    at_ (fun i w => p.regionsBad t.tile (t.steps.take i) w),
    t.steps.any (fun w => decide (Step.opcode w = Op.reduce) && p.reduceBad w),
    t.steps.any (fun w => decide (Step.opcode w = Op.shank) && shankBad w),
    t.steps.any (fun w => decide (Step.opcode w = Op.toeheel) && s.toeheelBad g w),
    under (fun i w rot => s.awlBad g t i w rot),
    p.seamsBad t,
    p.termsBad t ]

/-- The checks of a LAYER over the whole pass. -/
def Prog.layerChecks (p : Prog) (layer : Nat) : List Bool := [p.mergeBad layer, p.digestStepsBad layer]

/-- The index of the first failing check of a list. -/
def firstTrue (l : List Bool) : Option Nat := l.findIdx? id

/-- A refusal of staging: status, and the items of its error record (R436 PASS_IMAGE): section index and check. -/
structure Refused where
  status : Status
  section_ : Nat
  check : Nat
deriving DecidableEq, Repr

/-- The section of a type of a tile, as an index of the table. -/
def Img.secIndex (g : Img) (typ n : Nat) : Nat := g.secs.findIdx (fun x => decide (x.typ = typ) && decide (x.tile = n))

/-- The FAULT_PASS_GENERATION checks, lowest first: header and table, then sections, then each tile's, then each
LAYER's, then the limit on Awl slots. -/
def State.formRefusal (s : State) (g : Img) : Option Refused :=
  let mk := fun (sec chk : Nat) => some (Refused.mk .faultPassGeneration sec chk)
  if s.headerBad g then mk 0xFFFFFFFF 1
  else match g.secs.zipIdx.find? (fun x => s.sectionBad g x.2 x.1) with
    | some x => mk x.2 2
    | none => match g.prog.find? (fun t => g.setBad t) with
      | some t => mk (g.secIndex 4 t.tile) 3
      | none => match g.prog.findSome? (fun t => (firstTrue (s.tileChecks g t)).map (fun c => (t.tile, c))) with
        | some x => mk (g.secIndex 4 x.1) (16 + x.2)
        | none => match g.prog.layers.findSome? (fun l => firstTrue (g.prog.layerChecks l)) with
          | some c => mk 0xFFFFFFFF (64 + c)
          | none => if 64 < g.prog.awlLayers.length then mk 0xFFFFFFFF 80 else none

/-- The macro a step names although it is retired (R449): tile and macro. -/
def State.retiredMacro (s : State) (p : Prog) : Option (Nat × Nat) :=
  p.all.findSome? (fun x =>
    if Step.isCim x.2.2 || decide (Step.opcode x.2.2 = Op.awlScan) then
      ((List.range (Step.m x.2.2)).find? (fun k => s.macRetired x.1 (Step.mfirst x.2.2 + k))).map
        (fun k => (x.1, Step.mfirst x.2.2 + k))
    else none)

/-! ### What staging computes (R151, R152, R165, R286) -/

/-- One entry of a layer directory to be laid out (R152): LAYER, KIND bits (0 SCALE, 1 PREACT, 2 CODES), and the
sizes of the pre-activations and of the code state. -/
structure DirEntry where
  layer : Nat
  kind : Nat
  preact : Nat
  codes : Nat
deriving DecidableEq, Repr

/-- Bytes of a segment with every position present and every block dense (R120, R123, R124, R152). -/
def denseSegment (rows width channels bits : Nat) : Nat :=
  16 + 4 * rows + rows * roundUp 4 (4 + width * (2 + (channels + 31) / 32 * (1 + 4 * bits)))

/-- The step of a LAYER whose output has a code state (R152). -/
def Prog.coder (p : Prog) (layer : Nat) : Option Nat :=
  (p.all.find? (fun x => decide (Step.layer x.2.2 = layer) && Step.writesTwin x.2.2)).map (·.2.2)

/-- Rows of a LAYER's code state: through the last row its steps write. -/
def Prog.codeRows (p : Prog) (layer : Nat) : Nat :=
  ((p.all.filter (fun x => decide (Step.layer x.2.2 = layer) && Step.writesTwin x.2.2)).map
    (fun x => Rg.first (p.entry (Step.dst x.2.2)) + Step.count0 x.2.2)).foldl max 0

/-- The scattering step of a LAYER. -/
def Prog.scatterer (p : Prog) (layer : Nat) : Option Nat :=
  (p.all.find? (fun x => decide (Step.layer x.2.2 = layer) && Step.scatters x.2.2)).map (·.2.2)

/-- W_out of a gather or a scatter through an EYELET entry (R132, R161). A KW above WIDTH + 2 PW, for which the formula gives none, counts as one
position (DESIGN CHOICE, log entry 68). -/
def Rg.wout (e : Nat) : Nat := (Rg.width e + 2 * Rg.pw e - Rg.kw e) / Rg.sw e + 1

/-- H_out of a LAYER: COUNT0 of its SCATTER_MERGE (R161). -/
def Prog.hout (p : Prog) (layer : Nat) : Nat :=
  ((p.all.filter (fun x => decide (Step.layer x.2.2 = layer) && decide (Step.opcode x.2.2 = Op.scatterMerge))).map
    (fun x => Step.count0 x.2.2)).foldl max 0

/-- Output channels of a delta LAYER: those of its coder's DST, else every output of its macros. -/
def Prog.cout (p : Prog) (layer : Nat) : Nat :=
  match p.coder layer, p.scatterer layer with
  | some w, _ => Rg.channels (p.entry (Step.dst w))
  | none, some w =>
    let taps := if Step.opcode w = Op.cimScatter then Step.count2 w else 1
    Step.m w / (taps * p.stepSlices w) * Step.outputs w
  | none, none => 0

/-- The directory entries of a generation beside the pixel entry, by LAYER (R152). -/
def Prog.dirEntries (p : Prog) : List DirEntry :=
  p.layers.filterMap (fun l =>
    let scale := p.all.any (fun x => decide (Step.layer x.2.2 = l) && decide (Step.opcode x.2.2 = Op.requant))
    let pre := match p.scatterer l with
      | some w => 4 * (p.hout l * Rg.wout (p.entry (Step.src w)) * p.cout l)
      | none => 0
    let codes := match p.coder l with
      | some w => let e := p.entry (Step.dst w)
                  denseSegment (p.codeRows l) (Rg.width e) (Rg.channels e) (wBits (Rg.bits e))
      | none => 0
    let kind := scale.toNat + 2 * (p.scatterer l).isSome.toNat + 4 * (p.coder l).isSome.toNat
    if kind = 0 then none else some { layer := l, kind := kind, preact := pre, codes := codes })

/-- The pass has a pixel kernel (R152, R286). -/
def Prog.pixel (p : Prog) : Bool := p.all.any (fun x => Step.isPixel x.2.2)

/-- Offsets of the parts of a state area: entry, scale record, pre-activations, codes, in directory order, and the
end. `at_` is where the next part may start. -/
def layParts (at_ : Nat) : List DirEntry → List (DirEntry × Nat × Nat × Nat) × Nat
  | [] => ([], at_)
  | d :: r =>
    let a := at_
    let b := if d.kind.testBit 0 then roundUp 64 (a + 576) else a
    let c := if d.kind.testBit 1 then roundUp 64 (b + d.preact) else b
    let e := if d.kind.testBit 2 then roundUp 64 (c + d.codes) else c
    let (rest, fin) := layParts e r
    ((d, if d.kind.testBit 0 then a else 0, if d.kind.testBit 1 then b else 0,
      if d.kind.testBit 2 ∨ d.kind.testBit 3 then c else 0) :: rest, fin)

/-- The entries of a generation's directory; the pixel entry first, holding `frame` bytes (R152). -/
def Prog.directory (p : Prog) (frame : Nat) : List DirEntry :=
  (if p.pixel then [{ layer := 0xFFFF, kind := 8, preact := 0, codes := frame }] else []) ++ p.dirEntries

/-- Parts and size of a state area with a pixel reference of `frame` bytes. The pixel reference takes the place of
the codes. -/
def Prog.layout (p : Prog) (frame : Nat) : List (DirEntry × Nat × Nat × Nat) × Nat :=
  let d := p.directory frame
  let start := roundUp 64 (32 * d.length)
  let pix := d.head?.map (fun e => decide (e.kind = 8)) = some true
  let (parts, fin) := layParts (if pix then roundUp 64 (start + frame) else start) (if pix then d.drop 1 else d)
  ((if pix then [({ layer := 0xFFFF, kind := 8, preact := 0, codes := frame }, 0, 0, start)] else []) ++ parts, fin)

/-- The state size of a generation (R151). A pixel reference's size is known of a stream, not of a generation: staging
counts a free value for it (log entry 10). -/
def Prog.stateNeed (p : Prog) (gen : Nat) : Nat := (p.layout (if p.pixel then Config.pixelNeed gen else 0)).2

/-- VERGE_NEED of a pass (R165). -/
def Prog.vergeNeed (p : Prog) : Nat :=
  (p.map (fun t => (p.layers.map (fun l =>
    sumNat ((p.contributing t.tile l).map (fun x =>
      272 * (Step.count0 x.2.2 * Step.m x.2.2 * 8 / wBits (Step.wcode x.2.2)))))).foldl max 0)).foldl max 0

/-- What a slot holds of a staged image. -/
def State.passInfo (s : State) (g : Img) (gen : Nat) (secure : Bool) : PassInfo where
  gen := gen
  flags := g.flags
  awlLen := g.awlLen
  batch := g.batch
  feature := g.feature
  length := g.length
  seed := s.memBytes (g.base + 0x20) 32
  passDigest := s.memBytes (g.base + 0x40) 32
  programDigest := s.memBytes (g.base + 0x60) 32
  weightsDigest := s.memBytes (g.base + 0x80) 32
  tileUse := g.use
  rotating := g.rotating
  sections := g.secs
  vary := g.prog.all.any (fun x => Step.vary x.2.2)
  reach := g.prog.reach
  pixel := g.prog.pixel
  need := g.prog.stateNeed gen
  vergeNeed := g.prog.vergeNeed
  base := g.base
  secure := secure

/-- The staging checks of Table 6 on an image that has been read (R24, R410): the refusal first by the time of
detection, the header before the rest, then by the lower code (R293; DEDUCED, log entry 16); none if it may be
staged. -/
def State.stagingRefusal (s : State) (g : Img) (gen : Nat) (secure : Bool) : Option Refused :=
  if s.headerBad g then some ⟨.faultPassGeneration, 0xFFFFFFFF, 1⟩
  else if s.reg (Off.sec 4) < g.feature then some ⟨.faultPassGeneration, 0xFFFFFFFF, 4⟩
  else if g.use.any (fun n => decide (2 ≤ s.tileReady n)) then some ⟨.faultNotReady, 0xFFFFFFFF, 5⟩
  else if g.use.any (fun n => s.tileSecure n != secure) then some ⟨.faultWorld, 0xFFFFFFFF, 6⟩
  else if g.prog.all.any (fun x => decide (Step.opcode x.2.2 = Op.toeheel) && !Th.any x.2.2 &&
      (s.thSecure (Th.unit x.2.2) != secure)) then some ⟨.faultWorld, 0xFFFFFFFF, 7⟩
  else if gen = 0 ∨ gen ≤ s.passes.lastGen then some ⟨.faultPassGeneration, 0xFFFFFFFF, 8⟩
  else match s.formRefusal g with
    | some r => some r
    | none =>
      if s.digestBad g then some ⟨.faultUncorrected, 0xFFFFFFFF, 9⟩
      else match g.secs.zipIdx.find? (fun x => s.sectionDigestBad g x.1) with
        | some x => some ⟨.faultUncorrected, x.2, 10⟩
        | none => match s.retiredMacro g.prog with
          | some m => some ⟨.faultDevice, m.1, m.2⟩
          | none => none

end Sys2Proof.Machine
end

