-- ==== Sys2Proof/Machine/DescBase.lean ====
section
/-! DEFINITION. What every descriptor shares: when it may start (R280, R302), its progress and interim records (R288,
R289), and its wait or failure for something not ready (R281). -/

namespace Sys2Proof.Machine

/-! ### Objects (R302) -/

/-- STREAM of a RUN: none when bit 31 is set (R285). -/
def Request.runStream (q : Request) : Option Nat :=
  if (q.fld 0x0C 4).testBit 31 then none else some (bitsAt (q.fld 0x0C 4) 0 18)

/-- Whether a request is a SAVE or a RESTORE. -/
def Request.saves (q : Request) : Bool := decide (q.opcode = Dop.save) || decide (q.opcode = Dop.restore)

/-- SCOPE and OBJECT of SAVE and RESTORE (R301). -/
def Request.scope (q : Request) : Nat := q.fld 8 1
def Request.object (q : Request) : Nat := if q.scope = 0 then bitsAt (q.fld 0x0C 4) 0 18 else q.fld 0x0C 4

/-- Whether a request uses a stream. -/
def Request.usesStream (q : Request) (st : Nat) : Bool :=
  if q.opcode = Dop.run then decide (q.runStream = some st)
  else if q.opcode = Dop.streamOpen ∨ q.opcode = Dop.streamClose ∨ q.opcode = Dop.keyframe then decide (q.fld 8 4 = st)
  else q.saves && decide (q.scope = 0) && decide (q.object = st)

/-- Whether a request uses a generation: LOAD_PASS and DROP_PASS their own, SAVE of SCOPE PASS its object. -/
def Request.usesGen (q : Request) (g : Nat) : Bool :=
  if q.opcode = Dop.loadPass ∨ q.opcode = Dop.dropPass then decide (q.fld 8 4 = g)
  else q.saves && decide (q.scope = 2) && decide (q.object = g)

/-- TILE_USE of the image a LOAD_PASS brings in (R21, R302): as its slot has it; as the header in its slot has it while the image is being
staged; and before the image has been copied, as the header at IMAGE or the slot it takes over has it. -/
def State.imageUse (s : State) (q : Request) : List Nat :=
  match if q.aux = 0 then none else (s.slot? (q.aux - 1)).filter (fun p => decide (p.gen = q.fld 8 4)) with
  | some p => if p.staging then mapBits (s.memBytes (p.base + 0xA0) 128) else p.tileUse
  | none =>
    if q.fld 0x0C 4 ≠ 0 then
      match s.slotOf (q.fld 0x0C 4) with
      | some e => e.2.tileUse
      | none => []
    else
      let ptr := q.fld 0x10 8
      mapBits (if ptrSpace ptr = 1 then s.hostBytes (ptrAddr ptr + 0xA0) 128 else s.memBytes (ptrAddr ptr + 0xA0) 128)

/-- The tiles of the active pass. -/
def State.activeUse (s : State) : List Nat :=
  match s.activePass with
  | some p => p.tileUse
  | none => []

/-- Whether a request uses a tile (R302): a RUN its pass's, a LOAD_PASS with ACTIVATE those it writes or clears, a DROP_PASS of the active
generation those it clears, SAVE and RESTORE of SCOPE TILE their object. -/
def State.usesTile (s : State) (q : Request) (n : Nat) : Bool :=
  if q.opcode = Dop.run then
    match s.slotOf q.gen with
    | some e => e.2.tileUse.contains n
    | none => false
  else if q.opcode = Dop.loadPass then
    (q.fld 0x20 1).testBit 0 && ((s.imageUse q).contains n || s.activeUse.contains n)
  else if q.opcode = Dop.dropPass then decide (q.fld 8 4 = s.genActive) && s.activeUse.contains n
  else q.saves && decide (q.scope = 1) && decide (q.object = n)

/-- Whether request `p` uses the object that the SAVE or RESTORE `q` holds. -/
def State.usesObject (s : State) (q p : Request) : Bool :=
  if q.scope = 0 then p.usesStream q.object
  else if q.scope = 1 then s.usesTile p q.object
  else p.usesGen q.object

/-- The requests accepted before `q` that have not completed. -/
def State.earlier (s : State) (q : Request) : List (Nat × Request) :=
  s.reqs.filter (fun e => decide (e.2.order < q.order))

/-- Whether a SAVE or RESTORE may take its hold: every earlier request of its world that uses the object has
completed. -/
def State.holdFree (s : State) (q : Request) : Bool :=
  !(s.earlier q).any (fun e => (e.2.secure == q.secure) && s.usesObject q e.2)

/-- Whether a FENCE's scope takes in a request (R280): its ring, or its world. -/
def Request.fences (f q : Request) : Bool :=
  if f.fld 8 1 = 0 then decide (q.ring = f.ring) else q.secure == f.secure

/-- The FENCEs that waited for a request, once it has completed: POSITION counts it (R284). -/
def State.passFences (s : State) (q : Request) : State :=
  { s with reqs := s.reqs.map (fun e =>
      if e.2.opcode = Dop.fence ∧ e.2.phase ≠ .finished ∧ q.order < e.2.order ∧ e.2.fences q = true then
        (e.1, { e.2 with pos := e.2.pos + 1 }) else e) }

/-- The treads a maintenance kind of TEST uses (R444). -/
def Request.maintTreads (q : Request) : List Nat :=
  let t := q.fld 0xC 4
  if q.fld 8 1 ≠ 3 ∧ q.fld 8 1 ≠ 5 then [] else if t = 0xFFFFFFFF then [0, 1] else if q.fld 8 1 = 5 then [t % 2] else [t / 512 % 2]

/-- The tread whose operating point a TEST_WINDOW record gives (R494): the rail's own, or the first that the test uses. -/
def Request.railTread (q : Request) (rail : Nat) : Nat := if rail < 2 then rail else q.maintTreads.headD 0

/-- Whether an earlier SAVE or RESTORE of its world holds something the request uses. -/
def State.behindHold (s : State) (q : Request) : Bool :=
  (s.earlier q).any (fun e => e.2.saves && (e.2.secure == q.secure) && s.usesObject e.2 q)

/-! ### Starting (R280) -/

/-- Whether an accepted request may start: not before earlier descriptors of its ring when ORDERED, not past a FENCE of
its ring, not past a hold, and not while parking or parked (R315) or asleep (R390). -/
def State.mayStart (s : State) (q : Request) : Bool :=
  decide (q.phase = .accepted) && decide (s.parkState = 0) && decide (s.sleep.pkg = .awake) &&
  !(q.ordered && (s.earlier q).any (fun e => decide (e.2.ring = q.ring))) &&
  !(s.earlier q).any (fun e => decide (e.2.ring = q.ring) && decide (e.2.opcode = Dop.fence)) &&
  !s.behindHold q

/-- Whether a request that has started goes on: it has not ended and the device is not parked. -/
def State.goesOn (s : State) (q : Request) : Bool := decide (q.phase = .running) && decide (s.parkState < 2)

/-- A row for a request of an opcode that may start; anything else changes nothing. -/
def State.starting (s : State) (i op : Nat) (f : State → Request → State) : State :=
  match s.req? i with
  | some q => if q.opcode = op ∧ s.mayStart q = true then f s q else s
  | none => s

/-- As `starting`, also for a request that has started and goes on. -/
def State.working (s : State) (i op : Nat) (f : State → Request → State) : State :=
  match s.req? i with
  | some q => if q.opcode = op ∧ (s.mayStart q || s.goesOn q) = true then f s q else s
  | none => s

/-- A request begins its work. -/
def State.begin_ (s : State) (i : Nat) : State := s.updReq i (fun q => { q with phase := .running })

/-- Something is not ready (R281): the request waits with WAIT set, else it ends with FAULT_NOT_READY and names the
unit. -/
def State.notReady (s : State) (i : Nat) (q : Request) (kind index : Nat) : State :=
  if q.wait then s else s.failReq i .faultNotReady .notReady (fun e => (e.unit kind index).details kind index)

/-- As `notReady` for a rule that ignores WAIT (R4, R165, R175, R410). -/
def State.neverReady (s : State) (i : Nat) (kind index : Nat) : State :=
  s.failReq i .faultNotReady .notReady (fun e => (e.unit kind index).details kind index)

/-! ### Records (R288, R289) -/

/-- The fraction done, in 1/65,536: the steps of a RUN, else POSITION over its total; at most 0xFFFE. -/
def Request.fraction (q : Request) : Nat :=
  let p := if q.opcode = Dop.run then q.stepsDone else q.pos
  if q.total = 0 then 0 else min 0xFFFE (p * 65536 / q.total)

/-- The 32 bytes of a completion record (R288 Table 6). -/
def State.recordBytes (s : State) (q : Request) (interim phase : Bool) : List Byte :=
  let run := decide (q.opcode = Dop.run)
  natLe 2 q.tag ++ natLe 2 (if interim then 0 else q.status.code) ++
  natLe 2 (q.ring % 8192 + 2 ^ 13 * interim.toNat + 2 ^ 14 * (q.digested && !interim).toNat + 2 ^ 15 * phase.toNat) ++
  natLe 2 (if !interim && q.status.isOk then 0xFFFF else q.fraction) ++
  natLe 4 (q.pos % 2 ^ 32) ++
  natLe 4 (min (q.energy / 1000) (2 ^ 31 - 1) + 2 ^ 31 * q.reconciled.toNat) ++
  natLe 8 s.now ++
  natLe 4 (if run then min q.skipped (2 ^ 32 - 1) else 0) ++
  natLe 2 (if run then min q.audited 65535 else 0) ++
  natLe 2 (if run then min q.misses 65535 else 0)

/-- An interim record: written if the completion ring has a free record that no final record will need (R279), else counted. -/
def State.postInterim (s : State) (q : Request) : State :=
  let r := RingId.cq q.cq
  if s.link.up ∧ 0 < s.cqRoom q.cq then
    s.pushEntry r (fun ph => s.recordBytes q true ph)
  else s.tally (Off.cq q.cq 0x20) 1

/-- Progress of a long operation: POSITION set, and one interim record when the fraction has crossed a multiple of the
grain since the last record and 100 µs have passed since it. -/
def State.progress (s : State) (i pos : Nat) : State :=
  match s.req? i with
  | none => s
  | some q =>
    let q := { q with pos := pos }
    let grain := if q.mileGrain = 0 then 4096 else q.mileGrain
    let marks := q.fraction / grain
    let due := match q.lastMile with
      | none => true
      | some t => decide (t + 100000 ≤ s.now)
    if q.mileposts && postsInterim q.opcode (q.fld 0x20 4) && decide (q.mileMarks < marks) && due then
      let q := { q with mileMarks := marks, lastMile := some s.now }
      (s.setReq i q).postInterim q
    else s.setReq i q

/-- A request ends OK at a POSITION. -/
def State.finishOk (s : State) (i pos : Nat) : State := (s.updReq i (fun q => { q with pos := pos })).endReq i .ok

/-- A refusal's status and address end a mover's request at a POSITION (R490). -/
def State.stopMove (s : State) (i pos : Nat) (st : Status) (a : Nat) : State :=
  (s.updReq i (fun q => { q with pos := pos })).failAccess i st a

end Sys2Proof.Machine
end

