-- ==== Sys2Proof/Machine/Repair.lean ====
section
/-! DEFINITION. What wears out and is replaced (R14, R54, R55, R67, R231, R388, R442, R447, R451): physical tiles and spares, repair
entries, the correction and the diagnosis of a macro, its self-check, spare rows, retired macros and tiles, and the waking of a
sleeping tile. -/

namespace Sys2Proof.Machine

/-- A soft repair noted for the repair list (R451); `spare` is the spare used. -/
def State.noteRepair (s : State) (kind n unit line spare : Nat) : State :=
  let phys := (tget s.passes.tileMap n).getD 0
  let r : Repair := { kind := kind, tread := n / 512, phys := phys % 544, unit := unit, line := line, spare := spare, time := s.now }
  ({ s with errs := { s.errs with repairs := s.errs.repairs ++ [r] } }).tally (Off.err 0x64) 1

/-- The repairs of a physical tile: the fused ones, then the soft ones (R447, R451). -/
def State.repairsOf (s : State) (phys : Nat) : List Repair :=
  (s.fuses.repairs ++ s.errs.repairs).filter (fun r => decide (544 * r.tread + r.phys = phys))

/-- Whether a physical tile is fused bad, at manufacture or by a fused repair (R14, R451). -/
def State.fusedBad (s : State) (phys : Nat) : Bool :=
  s.fuses.badTiles.contains phys || s.fuses.repairs.any (fun r => decide (r.kind = 2) && decide (544 * r.tread + r.phys = phys))

/-! ### Physical tiles (R14, R448) -/

/-- Physical tile at a place of the serpentine walk. -/
def walkTile (p : Nat) : Nat := let r := p / 32; 32 * r + (if r % 2 = 0 then p % 32 else 31 - p % 32)

/-- State of a physical tile. -/
def State.phys (s : State) (t n : Nat) : PhysState := sget (fun _ => .untested) s.passes.phys (544 * t + n)
def State.setPhys (s : State) (t n : Nat) (x : PhysState) : State :=
  { s with passes := { s.passes with phys := sput (fun _ => .untested) s.passes.phys (544 * t + n) x } }

/-- Whether a physical tile stands behind a logical one. -/
def State.physUsed (s : State) (t n : Nat) : Bool := s.passes.tileMap.any (fun e => decide (e.2 = 544 * t + n))

/-- The spares of a tread in serpentine order: neither mapped nor bad (R14, R448). -/
def State.spares (s : State) (t : Nat) : List Nat :=
  ((List.range 544).map walkTile).filter (fun n => !s.physUsed t n &&
    (decide (s.phys t n = .untested) || decide (s.phys t n = .passed)) && !s.fusedBad (544 * t + n))

/-! ### Spare columns and rows (R447) -/

/-- MAC_SPARES of a macro. -/
def State.syncSpares (s : State) (n m : Nat) : State :=
  s.setRegBits (Off.tile n (0x240 + 4 * (m / 8))) (4 * (m % 8)) 4 (s.mac n m).spares.length

/-- The spare columns and rows in use on the physical tile behind a logical one (R447: they belong to the physical tile). -/
def State.applyRepairs (s : State) (n : Nat) : State :=
  match tget s.passes.tileMap n with
  | none => s
  | some p =>
    let l := s.repairsOf p
    let rows := (l.filter (fun r => decide (r.kind = 1))).map (fun r => (r.unit, r.line))
    let s := s.updTile n (fun t => { t with rowSpares := rows })
    (List.range 64).foldl (fun s m =>
      let cols := (l.filter (fun r => decide (r.kind = 0) && decide (r.unit = m))).map (·.line)
      if (s.mac n m).spares = cols then s else (s.updMac n m (fun x => { x with spares := cols })).syncSpares n m) s

/-! ### Correction, diagnosis and retirement of a macro (R53 to R55, R58, R59) -/

/-- A stuck column takes the next free spare (R54): eight at most. -/
def State.fillSpare (s : State) (n m col : Nat) : State :=
  let x := s.mac n m
  if 8 ≤ x.spares.length then s
  else (((s.setMac n m { x with spares := x.spares ++ [col] }).tally (Off.tile n 0x208) 1).noteRepair 0 n m col x.spares.length).syncSpares n m

/-- The correctable words of a row corrected in place and the row read again: a bit that reads wrong again is a stuck cell, whose column
takes a spare while one is free (R54, R58). Answers how many words were corrected. -/
def State.correctRow (s : State) (n m r : Nat) : State × Nat :=
  let x := s.cellRow n m r
  let k := x.fixes.length
  if k = 0 then (s, 0)
  else
    let y := x.corrected
    let t := s.storeRow n m r y
    let bad := y.differs (t.cellRow n m r)
    if bad.isEmpty then (t, k) else ((bad.foldl (fun s c => s.fillSpare n m c) t).storeRow n m r y, k)

/-- A pending scrub correction carried out (R58): its words are counted and filed as a corrected error of the tile's world. -/
def State.correctPending (s : State) (n m r : Nat) : State :=
  let (s, k) := s.correctRow n m r
  let s := s.updMac n m (fun x => { x with corr := x.corr.filter (fun y => decide (y ≠ r)), passCorr := x.passCorr + k })
  if k = 0 then s
  else (s.tally (Off.tile n 0x20C) k).fileError [worldNum (s.tileSecure n)] (((ErrRec.of .macCorrected).unit 1 n).details m k)

/-- The pending scrub corrections of a macro carried out. -/
def State.correctAll (s : State) (n m : Nat) : State := (s.mac n m).corr.foldl (fun s r => s.correctPending n m r) s

/-- A macro with a word that no check can correct (R59): marked for reload, or, outside the active TILE_USE, invalid until it is
written again; the rows written since it became invalid count whatever scrub finds in the others. -/
def State.markReload (s : State) (n m : Nat) : State :=
  if s.inActiveUse n then s.updMac n m (fun x => { x with reload := true })
  else if s.macInvalid n m then s
  else (s.updMac n m (fun x => { x with rowsDone := [] })).setRegBit (Off.tile n (0x230 + 4 * (m / 32))) (m % 32) true

/-- The rows of a macro that hold anything; every other row is zero and agrees with its check words. -/
def State.usedRows (s : State) (n m : Nat) : List Nat :=
  let base := cimBase n + 0x4000 * m
  let l := (s.mem.filter (fun e => decide (base ≤ e.1) && decide (e.1 < base + 0x4000))).map (fun e => (e.1 - base) / 64)
  (l ++ (s.mac n m).rows.map (·.1)).eraseDups

/-- Diagnosis (R54): every row is read, its correctable words corrected; a row with a word that cannot be corrected stays as it reads
and the macro is marked for reload. Answers how many words were corrected. -/
def State.diagnose (s : State) (n m : Nat) : State × Nat :=
  let s := s.tally (Off.tile n 0x204) 1
  let (s, k, bad) := (s.usedRows n m).foldl (fun (x : State × Nat × Bool) r =>
    let (t, k) := x.1.correctRow n m r
    (t, x.2.1 + k, x.2.2 || decide ((t.cellRow n m r).badWords ≠ 0))) (s, 0, false)
  let s := (s.tally (Off.tile n 0x20C) k).updMac n m (fun x => { x with corr := [] })
  (if bad then s.markReload n m else s, k)

/-- A macro retired (R55): its bit set, the event posted, the request ended with the device record as its own. R55 gives the event's
payload no layout: it is free but for the macro it names (Config.packEvent; DESIGN CHOICE, log entry 10). -/
def State.retireMacro (s : State) (n m : Nat) (q : Option (Nat × Request)) : State :=
  let s := (s.setRegBit (Off.tile n (0x220 + 4 * (m / 32))) (m % 32) true).postEvent bothWorlds Ev.macroRetired 1 n
    (padTo 16 (Config.packEvent Ev.macroRetired [m]))
  match q with
  | some (i, r) =>
    if r.phase = .finished then s.fileError [worldNum (s.tileSecure n)] (((ErrRec.of .macroRetired).unit 1 n).details n m)
    else (s.endReq i .faultDevice).fileError [worldNum (s.tileSecure n)]
      ((((ErrRec.ofReq .macroRetired r .faultDevice)).unit 1 n).details n m)
  | none => s.fileError [worldNum (s.tileSecure n)] (((ErrRec.of .macroRetired).unit 1 n).details n m)

/-! ### The checks of an invocation (R51, R65, R67) -/

/-- By how much a row's weights as they read differ from its checksum word: what the row adds to check(b) in a plane that drives it
(R51). -/
def State.rowGap (s : State) (n m r : Nat) : Int :=
  let x := s.cellRow n m r
  let y := s.mac n m
  (if x.data = 0 then 0 else sumInt ((List.range (512 / wBits y.wcode)).map (weightOf x.data (wBits y.wcode) y.wsigned))) - x.sum

/-- By how much an output's weights as they read differ from its column checksum word (R65). -/
def State.colGap (s : State) (n m j : Nat) : Int :=
  let y := s.mac n m
  sumInt ((s.usedRows n m).map (fun r => weightOf (s.rowWord n m r) (wBits y.wcode) y.wsigned j)) - (sget ColWords.zero y.cols j).k

/-- The check of one plane: the gaps of the rows (transposed: the weights) it drives, with what disturbs the plane, modulo 2^16. -/
def planeBad (driven : List (Nat × Int)) (gap : Nat → Int) (b change : Nat) : Bool :=
  decide ((sumInt ((driven.filter (fun d => (twos 16 d.2).testBit b)).map (fun d => gap d.1)) + change) % 65536 ≠ 0)

/-- Whether the self-check invocation of a macro fails (R67): its fixed 16-plane pattern, which the spec does not give, is checked under
R51 and R65. Rows and outputs without a gap cannot make it fail. -/
def State.selfCheckFails (s : State) (n m : Nat) : Bool :=
  let rows := (s.usedRows n m).filter (fun r => decide (s.rowGap n m r ≠ 0))
  let cols := (List.range (512 / wBits (s.mac n m).wcode)).filter (fun j => decide (s.colGap n m j ≠ 0))
  (List.range 16).any (fun b =>
    planeBad (rows.map (fun r => (r, (Config.selfCheckRow r : Int)))) (s.rowGap n m) b 0 ||
    planeBad (cols.map (fun j => (j, (Config.selfCheckCol j : Int)))) (s.colGap n m) b 0)

/-- The self-check after a macro has been written (R67): one that fails goes to diagnosis, and the macro is retired where diagnosis
cannot repair it. A macro none of whose cells is stuck passes. -/
def State.selfCheck (s : State) (n m : Nat) : State :=
  if (s.stuckIn n m).isEmpty ∨ s.selfCheckFails n m = false then s
  else
    let t := (s.diagnose n m).1
    if t.selfCheckFails n m then t.retireMacro n m none else t

/-! ### Writing macros (R57, R59, R67, R492) -/

/-- The records of a reload (R59): the macro and the time of its last complete scrub pass, then one for each RUN completed on the tile
since, by its TAG. -/
def State.fileUnverified (s : State) (n m : Nat) : State :=
  let since := (s.mac n m).scrubStart
  let e := ((ErrRec.of .macUnverified).unit 1 n).details m since
  let s1 := s.fileError [worldNum (s.tileSecure n)] e
  ((s.tile n).doneRuns.filter (fun r => decide (since ≤ r.1))).foldl (fun s r =>
    s.fileError [worldNum (s.tileSecure n)] { e with tag := r.2 }) s1

/-- A macro written in full: a reload it waited for has been done with (R59), its scrub restarts at row 0 (R57). -/
def State.freshMacro (s : State) (n m : Nat) : State :=
  (if (s.mac n m).reload then s.fileUnverified n m else s).updMac n m (fun x =>
    { x with reload := false, corr := [], scrubRow := 0, rowsDone := [] })

/-- The macros of a tile take width and signedness from its list (R492). -/
def State.setWidths (s : State) (n : Nat) (steps : List Nat) : State :=
  (List.range 64).foldl (fun s m =>
    let w := macroWidth steps m
    s.updMac n m (fun x => { x with wcode := w.1, wsigned := w.2 })) s

/-- The bits of MAC_INVALID of a tile cleared. -/
def State.validateMacros (s : State) (n : Nat) : State :=
  (s.setReg (Off.tile n 0x230) 0).setReg (Off.tile n 0x234) 0

/-- The weights of a tile written for a list (R67, R68, R492): the cells, the rest cleared, what the device computes from them, the
self-check. Every macro is written and so valid. -/
def State.writeWeights (s : State) (n : Nat) (bs : List Byte) (steps : List Nat) : State :=
  let s := ((s.clearMem (cimBase n) (cimBase n + 0x100000)).setMemBytes (cimBase n) bs).setWidths n steps
  let s := ((List.range 64).foldl (fun s m => s.freshMacro n m) s).finishTile n
  (s.usedMacros n).foldl (fun s m => s.selfCheck n m) (s.validateMacros n)

/-- One macro written from its 16 KiB of an image (R67). -/
def State.writeMacro (s : State) (n m : Nat) (bs : List Byte) : State :=
  let base := cimBase n + 0x4000 * m
  let s := (((s.clearMem base (base + 0x4000)).setMemBytes base bs).freshMacro n m).finishMacro n m
  (s.setRegBit (Off.tile n (0x230 + 4 * (m / 32))) (m % 32) false).selfCheck n m

/-! ### Retired tiles, spare rows and sleep -/

/-- A logical tile retired (R442, R447, R451): its work waits for the move of R448. A device record says so. -/
def State.retireTile (s : State) (n : Nat) : State :=
  if (s.tile n).retired then s
  else (s.updTile n (fun t => { t with retired := true, testing := false })).fileError [worldNum (s.tileSecure n)]
    (((ErrRec.of .tileRetired).unit 1 n).details n 0)

/-- Rows of a bank that failed and got no spare. -/
def Tile.unsparedRows (t : Tile) (bank : Nat) : Nat :=
  (t.rowErrs.filter (fun r => decide (r.1 / 1024 = bank) && decide (2 ≤ r.2))).length

/-- A failing 64-byte row of a bank gets a spare row; the third of a bank with no spare left retires the tile (R447). -/
def State.spareRow (s : State) (n row : Nat) : State :=
  let t := s.tile n
  let bank := row / 1024
  let used := (t.rowSpares.filter (fun r => decide (r.1 = bank))).length
  if used < 16 then
    (((s.setTile n { t with
        rowErrs := t.rowErrs.filter (fun r => decide (r.1 ≠ row)), rowSpares := t.rowSpares ++ [(bank, row % 1024)] }).tally
      (Off.tile n 0xC0C) 1).noteRepair 1 n bank (row % 1024) used).fileError [worldNum (s.tileSecure n)]
      (((ErrRec.of .spRow).unit 1 n).details n (bank + 2 ^ 16 * (row % 1024)))
  else
    let s := s.setTile n { t with rowErrs := (row, 2) :: t.rowErrs.filter (fun r => decide (r.1 ≠ row)) }
    if 3 ≤ (s.tile n).unsparedRows bank then s.retireTile n else s

/-- A corrected or uncorrectable error in the 64-byte row that holds an offset (R447): the second brings in a spare row of
the bank; the third failing row of a bank that has no spare left retires the tile. -/
def State.rowError (s : State) (n off : Nat) : State :=
  let t := s.tile n
  let row := off / 64
  if t.rowErrs.any (fun r => decide (r.1 = row)) then s.spareRow n row else s.setTile n { t with rowErrs := (row, 1) :: t.rowErrs }

/-- The failing cells that a march of a tile finds, repaired (R445, R447): a spare column for each stuck one, the tile retired where a macro has
none left, and a spare row for each failing row of the scratchpad. -/
def State.marchRepair (s : State) (n : Nat) (rows : List Nat) : State :=
  let s := (List.range 64).foldl (fun s m =>
    let cols := ((s.stuckIn n m).map (·.col)).eraseDups.filter (fun c => !(s.mac n m).spares.contains c)
    if 8 < (s.mac n m).spares.length + cols.length then s.retireTile n else cols.foldl (fun s c => s.fillSpare n m c) s) s
  rows.foldl (fun s off => s.spareRow n (off / 64)) s

end Sys2Proof.Machine
end

