-- ==== Sys2Proof/Machine/Passes.lean ====
section
/-! DEFINITION. Passes: staging, activation, dropping, spill rotation (R14 to R39, R233, R244, R492, R493). -/

namespace Sys2Proof.Machine

/-! ### The registers that show passes (R151, R178, R486) -/

/-- Whether a generation is staged and not active. -/
def State.staged (s : State) (g : Nat) : Bool :=
  (s.slotOf g).isSome && decide (s.genActive ≠ g)

/-- Whether an activation of a generation is pending. -/
def State.actPending (s : State) (g : Nat) : Bool := s.passes.pending.any (fun a => decide (a.gen = g))

/-- SLOT_STATEk and its companions as the slot stands. -/
def State.syncSlot (s : State) (k : Nat) : State :=
  match s.slot? k with
  | none =>
    ((((s.setReg (Off.slotState k) 0).setReg (Off.slotGen k) 0).setReg64 (Off.slotBase k) 0).setReg64
      (Off.slotLength k) 0).setReg64 (Off.slotNeed k) 0
  | some p =>
    let st := if p.staging then 1 else if p.gen = s.genActive then 3 else 2
    ((((s.setReg (Off.slotState k) (st + 4 * (!p.staging && s.actPending p.gen).toNat + 8 * p.secure.toNat)).setReg
      (Off.slotGen k) p.gen).setReg64 (Off.slotBase k) p.base).setReg64 (Off.slotLength k) p.length).setReg64
      (Off.slotNeed k) p.need

/-- GEN_PENDING, GEN_FLAGS, the slots, the state sizes and VERGE_NEED as the passes stand. -/
def State.syncPasses (s : State) : State :=
  let head := (s.passes.pending.head?.map (·.gen)).getD 0
  let flags := match s.activePass with
    | some p => p.vary.toNat + 2 * (p.flags.testBit 0).toNat + 4 * (p.flags.testBit 1).toNat + 8 * p.secure.toNat
    | none => 0
  let need := fun (g : Nat) => match s.slotOf g with
    | some e => e.2.need
    | none => 0
  let s := (s.setReg Off.genPending head).setReg Off.genFlags (flags + 16 * (min 7 s.passes.pending.length))
  let s := (s.setReg64 (Off.stream 8) (need s.genActive)).setReg64 (Off.stream 0x10) (need head)
  let s := s.setReg64 (Off.stream 0x28) (match s.activePass with
    | some p => p.vergeNeed
    | none => 0)
  (List.range 8).foldl (fun s k => s.syncSlot k) s

/-- The passes changed, their registers following. -/
def State.setPasses (s : State) (p : Passes) : State := ({ s with passes := p }).syncPasses

/-! ### LOAD_PASS: staging (R24, R244) -/

/-- The runs of the pass-image area in use: start and end, whole 2 MiB units. -/
def State.slotRuns (s : State) : List (Nat × Nat) :=
  s.passes.slots.map (fun e => (e.2.base, e.2.base + roundUp (2 ^ 21) (max 1 e.2.length)))

/-- A free slot and the lowest 2 MiB-aligned free run that holds `len` bytes (R244). -/
def State.placeImage (s : State) (len : Nat) : Option (Nat × Nat) :=
  let runs := s.slotRuns
  let lo := s.areaBase 4
  let hi := lo + s.areaSize 4
  let size := roundUp (2 ^ 21) (max 1 len)
  let starts := sortNat (lo :: runs.map (·.2))
  match (List.range 8).find? (fun k => (s.slot? k).isNone),
    starts.find? (fun b => decide (b + size ≤ hi) && runs.all (fun r => decide (b + size ≤ r.1) || decide (r.2 ≤ b))) with
  | some k, some b => some (k, b)
  | _, _ => none

/-- What a slot holds while it is being staged. -/
def stagingInfo (gen base len : Nat) (secure : Bool) : PassInfo where
  gen := gen
  flags := 0
  awlLen := 0
  batch := 0
  feature := 0
  length := len
  seed := []
  passDigest := []
  programDigest := []
  weightsDigest := []
  tileUse := []
  rotating := []
  sections := []
  vary := false
  reach := []
  pixel := false
  need := 0
  vergeNeed := 0
  base := base
  secure := secure

/-- The LOAD_PASSes that wait hold each slot as soon as it is free, in the order they began to wait (R24). -/
def State.grantSlots (s : State) : State :=
  s.passes.slotWait.foldl (fun s w => match s.placeImage w.len with
    | none => s
    | some (k, b) => s.setPasses { s.passes with
        slots := sins k (stagingInfo w.gen b w.len w.secure) s.passes.slots
        slotWait := s.passes.slotWait.filter (fun x => decide (x.req ≠ w.req))
        slotHeld := s.passes.slotHeld ++ [(w.req, k)] }) s

/-- A slot freed (R24, R29). -/
def State.freeSlot (s : State) (k : Nat) : State :=
  (s.setPasses { s.passes with
    slots := sdel s.passes.slots k, slotHeld := s.passes.slotHeld.filter (fun e => decide (e.2 ≠ k)) }).grantSlots

/-- A LOAD_PASS that ends while it waits for a slot, or holds one it has not filled, gives it up. -/
def State.dropWait (s : State) (i : Nat) : State :=
  let held := s.passes.slotHeld.find? (fun e => decide (e.1 = i))
  let s := if s.passes.slotWait.any (fun w => decide (w.req = i)) then
    s.setPasses { s.passes with slotWait := s.passes.slotWait.filter (fun w => decide (w.req ≠ i)) } else s
  match held with
  | some e => s.freeSlot e.2
  | none => s

/-- The 4 KiB units of an image (R318). -/
def unitsOf (len : Nat) : Nat := (len + 4095) / 4096

/-- A LOAD_PASS whose image stands in slot `k` goes on to the staging checks. -/
def State.heldSlot (s : State) (i k gen base len : Nat) (secure : Bool) : State :=
  let s := s.setPasses { s.passes with slots := sins k (stagingInfo gen base len secure) s.passes.slots }
  (s.updReq i (fun q => { q with phase := .running, aux := k + 1, total := 2 * unitsOf len })).progress i (unitsOf len)

/-- A staging refusal ends the LOAD_PASS; its record names the section and the check (R24, R436). -/
def State.refuseImage (s : State) (i : Nat) (r : Refused) : State :=
  if r.status = .faultDevice then
    s.failReq i r.status .passImage (fun e => (e.unit 1 r.section_).details r.section_ r.check)
  else s.failReq i r.status .passImage (fun e => e.details r.section_ (Config.checkCode r.check))

/-- The slot and the place a LOAD_PASS has: those it holds, else those that are free (R24, R244). -/
def State.slotFor (s : State) (i len : Nat) : Option (Nat × Nat) :=
  match s.passes.slotHeld.find? (fun e => decide (e.1 = i)) with
  | some e => (s.slot? e.2).map (fun p => (e.2, p.base))
  | none => s.placeImage len

/-- A LOAD_PASS that finds no slot waits for one with WAIT set, else ends with FAULT_NOT_READY (R24, R281). -/
def State.awaitSlot (s : State) (i : Nat) (q : Request) (len : Nat) : State :=
  if q.wait = false ∨ s.passes.slotWait.any (fun w => decide (w.req = i)) = true then s.notReady i q 0 0
  else s.setPasses { s.passes with slotWait := s.passes.slotWait ++ [{ req := i, gen := q.fld 8 4, len := len, secure := q.secure }] }

/-- LOAD_PASS of an image at IMAGE: its header, the length check, a slot, then exactly LENGTH bytes. -/
def State.readImage (s : State) (i : Nat) (q : Request) : State :=
  let ptr := q.fld 0x10 8
  match s.readRange q.secure false ptr 4096 with
  | (s, _, .refused st a) => (s.stopMove i 0 st a).dropWait i
  | (_, _, .waits) => s
  | (s1, hdr, .none) =>
    let len := fieldAt hdr 0x10 8
    if lengthBad len (fieldAt hdr 0x18 4) (q.fld 0x18 8) then
      (s1.refuseImage i ⟨.faultPassGeneration, 0xFFFFFFFF, 0⟩).dropWait i
    else
      let s1 := s1.updReq i (fun q => { q with total := 2 * unitsOf len })
      match s1.slotFor i len with
      | none => s1.awaitSlot i q len
      | some (k, base) =>
        match s1.readRange q.secure false ptr len with
        | (s, bs, .refused st a) => (s.stopMove i (bs.length / 4096) st a).dropWait i
        | (_, _, .waits) => s
        | (s2, bs, .none) =>
          ({ s2 with passes := { s2.passes with slotHeld := s2.passes.slotHeld.filter (fun e => decide (e.1 ≠ i)) } }.fillMem base bs).heldSlot
            i k (q.fld 8 4) base len q.secure

/-- LOAD_PASS that takes over the slot of a staged generation (R39, R488; DEDUCED, log entry 17). -/
def State.reuseImage (s : State) (i : Nat) (q : Request) : State :=
  let from_ := q.fld 0x0C 4
  match s.slotOf from_ with
  | some (k, p) =>
    if s.staged from_ ∧ s.actPending from_ = false then s.heldSlot i k (q.fld 8 4) p.base p.length q.secure
    else s.failReq i .faultPassGeneration .generation (fun e => e.details from_ 0)
  | none => s.failReq i .faultPassGeneration .generation (fun e => e.details from_ 0)

/-- LOAD_PASS (R24): the command stages its image. -/
def execLoadPass (req : Nat) (s : State) : Host.Outcome State Fault Refusal :=
  answer s (s.starting req Dop.loadPass (fun s q =>
    if q.fld 0x0C 4 = 0 then s.readImage req q else s.reuseImage req q))

/-- The slot of a refused LOAD_PASS: freed, or given back to the generation it was taken from. -/
def State.returnSlot (s : State) (q : Request) (k : Nat) (p : PassInfo) : State :=
  if q.fld 0x0C 4 = 0 then s.freeSlot k
  else
    let old := s.passInfo (s.img p.base) (q.fld 0x0C 4) q.secure
    s.setPasses { s.passes with slots := sins k old s.passes.slots }

/-- The pending activations with a new one: in the order their LOAD_PASSes were accepted, behind one that has begun (R27). -/
def State.insertActivation (s : State) (a : Activation) : List Activation :=
  let order := fun (x : Activation) => ((s.req? x.req).map (·.order)).getD 0
  let before := fun (x : Activation) => decide (x.phase ≠ .waiting) || decide (order x ≤ order a)
  s.passes.pending.filter before ++ [a] ++ s.passes.pending.filter (fun x => !before x)

/-- Where a section cannot be read (R246, R282): the address of a poisoned unit of the image, or the pointer to a host line that answers
with an error. -/
def State.sectionStop (s : State) (base : Nat) (x : Section) : Option Nat :=
  if x.host then (s.hostStop (ptrAddr x.offset) x.length).map (2 ^ 62 + ·) else s.poisonIn (base + x.offset) x.length

/-- The sections of a pass read by the device for itself: the changed units they meet, and where a read stops (R246, R282). -/
def State.readSections (s : State) (base : Nat) (l : List Section) : State × Option Nat :=
  let r := s.ownReads ((l.filter (fun x => !x.host)).map (fun x => (base + x.offset, x.length)))
  (r.1, l.findSome? (fun x => r.1.sectionStop base x))

/-- Whether the image bytes of a macro meet a unit of HBM, or a line of host memory, that gives nothing (R246, R282). -/
def State.imagePoisoned (s : State) (base : Nat) (x : Section) (m : Nat) : Bool :=
  let n := min x.length (0x4000 * (m + 1)) - 0x4000 * m
  if x.host then decide (0 < n) && (s.hostStop (ptrAddr x.offset + 0x4000 * m) n).isSome
  else (s.poisonIn (base + x.offset + 0x4000 * m) n).isSome

/-- A macro whose image bytes gave nothing left invalid (R246). -/
def State.invalidate (s : State) (n m : Nat) : State :=
  ((s.fileUnverified n m).updMac n m (fun y => { y with reload := false })).setRegBit (Off.tile n (0x230 + 4 * (m / 32))) (m % 32) true

/-- The macros of a tile that a test names left invalid. -/
def State.invalidateSome (s : State) (n : Nat) (f : Nat → Bool) : State :=
  ((List.range 64).filter f).foldl (fun s m => s.invalidate n m) s

/-- STAGING_COMPLETE (R24): the checks of Table 6 stage the image or free the slot; ACTIVATE makes the activation
pending (R27), else the LOAD_PASS completes with every activation unit added (R318). -/
def execStagingComplete (req : Nat) (s : State) : Host.Outcome State Fault Refusal :=
  answer s (match s.req? req with
    | none => s
    | some q =>
      if q.opcode ≠ Dop.loadPass ∨ s.goesOn q = false ∨ q.aux = 0 then s
      else match s.slot? (q.aux - 1) with
        | none => s
        | some p =>
          if p.staging = false then s
          else
            let k := q.aux - 1
            let g := s.img p.base
            let whole := s.ownReads [(p.base, p.length)]
            let read := if whole.2.isSome then whole else whole.1.readSections p.base (s.imgSecs p.base)
            match read.2 with
            | some a => (read.1.failAccess req .faultUncorrected a).returnSlot q k p
            | none =>
            let s := read.1
            match s.stagingRefusal g p.gen p.secure with
            | some r => (s.refuseImage req r).returnSlot q k p
            | none =>
              let info := s.passInfo g p.gen p.secure
              let act := (q.fld 0x20 1).testBit 0
              let s := s.setPasses { s.passes with
                slots := sins k info s.passes.slots
                lastGen := p.gen
                superseded := if q.fld 0x0C 4 = 0 then s.passes.superseded else s.passes.superseded ++ [q.fld 0x0C 4]
                pending := if act then s.insertActivation { req := req, gen := p.gen, slot := k, phase := .waiting }
                  else s.passes.pending }
              if act then s else s.finishOk req (2 * unitsOf p.length))

/-! ### Activation (R27, R28, R39, R233) -/

/-- The requests pinned to a generation that have not completed (R26). -/
def State.pinned (s : State) (g : Nat) : List Nat :=
  (s.reqs.filter (fun e => decide (e.2.opcode = Dop.run) && decide (e.2.gen = g))).map (·.1)

/-- The RUNs bound to a generation end with FAULT_PASS_GENERATION (R39). -/
def State.endBound (s : State) (g : Nat) : State :=
  (s.pinned g).foldl (fun s i => s.failReq i .faultPassGeneration .generation (fun e => e.details g 0)) s

/-- An activation leaves the pending list. -/
def State.dropPending (s : State) (g : Nat) : State :=
  s.setPasses { s.passes with pending := s.passes.pending.filter (fun a => decide (a.gen ≠ g)) }

/-- Whether a step uses up what other tiles send to a region of its tile (R78, R167, R228, R230): it reads the region, or waits for it. -/
def Step.consumes (w h : Nat) : Bool :=
  (Step.reads w).contains h || (decide (Step.opcode w = Op.waitRange) && decide (Step.src w = h))

/-- Whether a step uses up the contributions to the tile's scatter accumulator for a LAYER (R167). -/
def Step.merges (w layer : Nat) : Bool := decide (Step.opcode w = Op.scatterMerge) && decide (Step.layer w = layer)

/-- The steps of a request between its place on a tile and its next SEAM-flagged step, and whether there is one. -/
def Tile.segment (t : Tile) (i : Nat) : List Nat × Bool :=
  let rest := ((t.steps.drop (if t.queue.head? = some i then t.pc else t.pcOf i)).map (·.toNat))
  let seg := rest.takeWhile (fun w => !Step.seam w)
  (seg ++ (t.running.filter (fun r => decide (r.req = i))).map (fun r => r.word.toNat), decide (seg.length < rest.length))

/-- Whether traffic for a request that a tile runs waits at its sender (R493): the tile has a SEAM-flagged step ahead, and no step before it
still uses the traffic up. Traffic of a request behind the one in front waits as long as that one has such a step ahead. -/
def State.heldAtSender (s : State) (n i : Nat) (uses : Nat → Bool) : Bool :=
  let t := s.tile n
  if t.steps.any (fun w => Step.seam w.toNat) = false ∨ t.queue.contains i = false then false
  else
    let own := t.segment i
    (own.2 && !own.1.any uses) ||
    (match t.queue.head? with
     | some f => decide (f ≠ i) && (t.segment f).2
     | none => false)

/-- Whether a drain, a contribution or a marker for another tile waits at its sender; until it is sent, a drain or a contribution stays in
the shadow set, which then cannot swap (R47, R86). -/
def State.drainHeld (s : State) (d : Drain) : Bool := s.heldAtSender d.dst d.req (fun w => Step.consumes w (64 * d.dst + d.region))
def State.contribHeld (s : State) (c : Contribution) : Bool := s.heldAtSender c.dst c.req (fun w => Step.merges w c.layer)
def State.markerHeld (s : State) (m : Marker) : Bool := s.heldAtSender m.dst m.req (fun w => Step.consumes w (64 * m.dst + m.region))

/-- Whether the mesh carries anything to a tile (R79, R235): what waits at its sender is not on the mesh yet. -/
def State.meshTo (s : State) (n : Nat) : Bool :=
  s.mesh.drains.any (fun d => decide (d.dst = n)) || s.mesh.contribs.any (fun c => decide (c.dst = n)) ||
  s.mesh.markers.any (fun m => decide (m.dst = n))

/-- Whether a tile is at a seam: its ledger, scatter accumulator, in-cell registers, scoreboard and circular regions
are empty (R27), and the mesh carries nothing to it (R79, R235). -/
def State.atSeam (s : State) (n : Nat) : Bool :=
  let t := s.tile n
  t.slots.isEmpty && t.scat.isEmpty && t.sb.isEmpty && t.arrivals.isEmpty && t.circ.isEmpty && t.running.isEmpty &&
  (List.range 64).all (fun m => let x := s.mac n m; x.work.isEmpty && x.shadow.isEmpty) && !s.meshTo n

/-- The banks a plan covers (R233). -/
def planBanks (plan : List Nat) : List Nat :=
  (List.range 24).filter (fun b => plan.any (fun e => decide (1 ≤ Rg.kind e) && decide (Rg.kind e ≤ 4) &&
    decide (Rg.lo e < (b + 1) * 0x10000) && decide (b * 0x10000 < Rg.hi e)))

/-- The banks of a tile set to those powered; every bank is cleared or has lost its content (R233). -/
def State.setBanks (s : State) (n : Nat) (banks : List Nat) : State :=
  let s := s.setReg (Off.tile n 0x900) (ofSetBits banks)
  ((s.clearMem (spBase n) (spBase n + 0x180000)).loseTags (spBase n) 0x180000).updTile n (fun t => { t with badUnits := [] })

/-- The ACC_TAG registers of a tile from its list (R84 Table 6). -/
def tagWord (steps : List Nat) (tag : Nat) : Nat :=
  match steps.find? (fun w => Step.isCim w && decide (Step.tag w = tag)) with
  | some w =>
    let sc := match steps.find? (fun v => decide (Step.opcode v = Op.requant) && decide (Step.tag v = tag)) with
      | some v => Step.scale v
      | none => 0
    Step.awidth w + 2 ^ 5 * (Step.asigned w).toNat + 2 ^ 6 * Step.wcode w + 2 ^ 8 * (Step.wsigned w).toNat +
      2 ^ 9 * (Step.transpose w).toNat + 2 ^ 10 + 2 ^ 11 * Step.e w + 2 ^ 16 * sc
  | none =>
    match steps.find? (fun v => decide (Step.opcode v = Op.requant) && decide (Step.tag v = tag)) with
    | some v => 2 ^ 10 + 2 ^ 16 * Step.scale v
    | none => 0

/-- The tag table of a tile written to its registers (R96). -/
def State.setTags (s : State) (n : Nat) (steps : List Nat) : State :=
  (List.range 16).foldl (fun s k => s.setReg (Off.tile n (0x340 + 4 * k)) (tagWord steps k)) s

/-- Whether the section a tile holds already may be kept (R28); the weights only while every macro keeps its width and signedness, which
the words the device computed are for (R492). -/
def State.keepsSection (s : State) (n : Nat) (x : Section) (steps : List Nat) : Bool :=
  let t := s.tile n
  !t.dirty && t.held.any (fun h => decide (h.typ = x.typ) && decide (h.digest = x.digest)) &&
  (decide (x.typ ≠ 1) || (decide (s.reg (Off.tile n 0x230) = 0) && decide (s.reg (Off.tile n 0x234) = 0) &&
    (List.range 64).all (fun m => decide (macroWidth steps m = ((s.mac n m).wcode, (s.mac n m).wsigned)))))

/-- The weights of a tile as a pass wants them (R28): written, or kept but for the macros that wait for a reload (R59). -/
def State.loadWeights (s : State) (p : PassInfo) (n : Nat) (x : Section) (steps : List Nat) : State :=
  let bs := s.secBytes p.base x
  if s.keepsSection n x steps = false then s.writeWeights n bs steps
  else ((List.range 64).filter (fun m => (s.mac n m).reload)).foldl (fun s m =>
    s.writeMacro n m ((bs.drop (0x4000 * m)).take 0x4000)) s

/-- The sections of a pass written into one tile of its TILE_USE (R27, R28, R233, R492); no TILE-mode step has run on it since (R117,
REQ_LAST_SCALE). The RUNs completed here stay listed until a scrub pass follows them (R59). -/
def State.loadTile (s : State) (p : PassInfo) (n : Nat) : State :=
  let sec := fun (typ : Nat) => s.secOr p.base p.sections typ n 0
  let steps := wordsOf 32 (sec 4)
  let plan := wordsOf 16 (sec 5)
  let s := match findSec p.sections 1 n 0 with
    | some x => s.loadWeights p n x steps
    | none => s.writeWeights n [] steps
  let t := s.tile n
  let s := s.setTile n { Tile.empty with
    steps := steps.map (BitVec.ofNat 256)
    plan := plan.map (BitVec.ofNat 128)
    pattern := (wordsOf 4 (sec 2)).map (BitVec.ofNat 32)
    scales := (wordsOf 8 (sec 6)).map (BitVec.ofNat 64)
    awlStore := sec 3
    held := p.sections.filter (fun x => decide (x.tile = n) && decide (x.typ ≤ 6))
    sleep := t.sleep, sleepSince := t.sleepSince, rowErrs := t.rowErrs, rowSpares := t.rowSpares, slices := t.slices
    retired := t.retired, moveDue := t.moveDue, gapLast := t.gapLast, forced := t.forced, doneRuns := t.doneRuns }
  ((s.setBanks n (planBanks plan)).setTags n steps).setReg (Off.tile n 0x420) 0

/-- A tile outside TILE_USE is cleared (R28, R233). -/
def State.clearTile (s : State) (n : Nat) : State :=
  let t := s.tile n
  let s := s.writeWeights n [] []
  let s := s.setTile n { Tile.empty with
    sleep := t.sleep, sleepSince := t.sleepSince, rowErrs := t.rowErrs, rowSpares := t.rowSpares, slices := t.slices
    retired := t.retired, moveDue := t.moveDue, gapLast := t.gapLast, forced := t.forced, doneRuns := t.doneRuns }
  ((s.setBanks n []).setTags n []).setReg (Off.tile n 0x420) 0

/-- The array emptied but for a set of tiles. -/
def State.clearOthers (s : State) (keep : List Nat) : State :=
  (s.tiles.map (·.1)).foldl (fun s n => if keep.contains n then s else s.clearTile n) s

/-- The whole new pass written into the tiles (R27 step 3). -/
def State.writePass (s : State) (p : PassInfo) : State :=
  p.tileUse.foldl (fun s n => s.loadTile p n) (s.clearOthers p.tileUse)

/-- ACTIVATION_START (R39): readiness of the tiles of the head activation, before anything drains. -/
def execActivationStart (s : State) : Host.Outcome State Fault Refusal :=
  answer s (match s.passes.pending with
    | [] => s
    | a :: rest =>
      match s.req? a.req, s.slot? a.slot with
      | some q, some p =>
        if a.phase ≠ .waiting ∨ s.parkState ≠ 0 then s
        else match p.tileUse.find? (fun n => decide (2 ≤ s.tileReady n)) with
          | some n => ((s.dropPending a.gen).neverReady a.req 1 n).endBound a.gen
          | none => match p.tileUse.find? (fun n => decide (s.tileReady n ≠ 1)) with
            | some n => if q.wait then s else ((s.dropPending a.gen).neverReady a.req 1 n).endBound a.gen
            | none => s.setPasses { s.passes with pending := { a with phase := .draining } :: rest }
      | _, _ => s)

/-- An activation that cannot go on (R39, R246): `f` ends its LOAD_PASS, no generation is active, the waiting RUNs end; the old generation's
slot stays as staged. What the array then holds the spec leaves open but for calling the old weights partly overwritten: the model clears
every tile, and the new image keeps its slot as staged (DESIGN CHOICE, log entry 65). -/
def State.failActivation (s : State) (a : Activation) (f : State → State) : State :=
  let s := (s.dropPending a.gen).setReg Off.genActive 0
  (((f s).endBound a.gen).clearOthers []).syncPasses

/-- The macros of a tile retired between two states. -/
def State.macrosLost (s t : State) (n : Nat) : List Nat := (List.range 64).filter (fun m => t.macRetired n m && !s.macRetired n m)

/-- Whether a pass can no longer use a tile after its weights have been written: a self-check has retired a macro there, and the tile
cannot move (no spare is left, R448), or stays in place and the pass names the macro (HOLD, R449). -/
def State.tileLost (s t : State) (n : Nat) : Bool :=
  let new := s.macrosLost t n
  if t.regBit (Off.err 0) 0 then
    (t.tile n).steps.any (fun w => (Step.isCim w.toNat || decide (Step.opcode w.toNat = Op.awlScan)) &&
      new.any (fun m => decide (Step.mfirst w.toNat ≤ m) && decide (m ≤ Step.mfirst w.toNat + Step.mcount w.toNat)))
  else !new.isEmpty && (t.spares (n / 512)).isEmpty

/-- ACTIVATION_DRAINED (R27, R67): once the RUNs pinned to the old generation have completed and its tiles are at seams, the device
reads the sections, writes what differs, checks the macros it wrote, and powers and clears the banks. `lost`: the tile of TILE_USE that a fault takes from
the pass (R39); a tile that a self-check has cost is lost too. The record names the tile and a macro lost there (R494). -/
def execActivationDrained (lost : Option Nat) (s : State) : Host.Outcome State Fault Refusal :=
  answer s (match s.passes.pending with
    | [] => s
    | a :: rest =>
      match s.slot? a.slot with
      | none => s
      | some p =>
        let old := match s.activePass with
          | some o => o.tileUse
          | none => []
        if a.phase ≠ .draining ∨ s.parkState ≠ 0 ∨ (s.genActive ≠ 0 ∧ (s.pinned s.genActive).isEmpty = false) ∨
            old.all (fun n => s.atSeam n) = false ∨
            (match s.req? a.req with
             | some q => s.behindHold q
             | none => false) = true then s
        else
          let read := s.readSections p.base (p.sections.filter (fun x => decide (x.typ ≤ 6)))
          let done := unitsOf p.length + (match read.2 with
            | some _ => sumNat ((p.sections.takeWhile (fun x => (read.1.sectionStop p.base x).isNone)).map (fun x => unitsOf x.length))
            | none => unitsOf p.length)
          let t := (read.1.writePass p).progress a.req done
          match (lost.toList ++ p.tileUse.filter (fun n => s.tileLost t n)).find? (fun n => p.tileUse.contains n), read.2 with
          | some n, _ => t.failActivation a (fun u => u.failReq a.req .faultDevice .retiredUnit (fun e =>
              (e.unit 1 n).details ((s.macrosLost t n).head?.getD 0) 0))
          | none, some b => t.failActivation a (fun s => s.failAccess a.req .faultUncorrected b)
          | none, none => t.setPasses { t.passes with pending := { a with phase := .written } :: rest })

/-- Seed `c` of generator `g` of a tile (R193). -/
def genSeed (seed : List Byte) (tile g c : Nat) : Nat :=
  fieldAt (shake256 (seed ++ natLe 2 tile ++ natLe 1 g ++ (if c = 0 then [] else natLe 1 c))) 0 8

/-- The seed in force, the first successor from `c` on that is not zero, with its number. -/
def seedFrom (seed : List Byte) (tile g : Nat) : Nat → Nat → Nat × Nat
  | _, 0 => (0, 0)
  | c, fuel + 1 => let v := genSeed seed tile g c; if v = 0 then seedFrom seed tile g (c + 1) fuel else (c, v)

/-- Seeds or restart states of a tile that were replaced: each is counted in AWL_GEN_RESEEDS and posts GENERATOR_LOCK (R193). -/
def State.noteReseeds (s : State) (n k : Nat) : State :=
  (List.range k).foldl (fun s _ => ((s.tally (Off.tile n 0x724) 1).tally (Off.awl 0x18) 1).postEvent bothWorlds Ev.generatorLock 1 n []) s

/-- The reseeds of the generators at activation: every zero seed passed over is one. -/
def State.countReseeds (s : State) (p : PassInfo) : State :=
  p.tileUse.foldl (fun s n =>
    if (findSec p.sections 3 n 0).isNone then s
    else
      s.noteReseeds n (sumNat ((List.range 64).map (fun g => (seedFrom p.seed n g 0 256).1)))) s

/-- ACTIVATION_COMPLETE (R27): generators seeded, the active generation set, the waiting RUNs released, the LOAD_PASS
complete; the old generation is superseded and its slot freed. -/
def execActivationComplete (s : State) : Host.Outcome State Fault Refusal :=
  answer s (match s.passes.pending with
    | [] => s
    | a :: rest =>
      match s.slot? a.slot with
      | none => s
      | some p =>
        if a.phase ≠ .written then s
        else
          let old := s.genActive
          let keep := s.passes.slots.filter (fun e => e.2.staging || decide (e.2.gen ≠ old))
          let s := s.setReg Off.genActive a.gen
          let s := s.setPasses { s.passes with
            pending := rest
            slots := keep
            superseded := if old = 0 then s.passes.superseded else s.passes.superseded ++ [old]
            srKey := BitVec.ofNat 64 (fieldAt (shake256 (p.seed ++ [0x53, 0x52])) 0 8)
            auditKey := BitVec.ofNat 64 (fieldAt (shake256 (p.seed ++ [0x41, 0x55])) 0 8) }
          (s.grantSlots.countReseeds p).finishOk a.req (2 * unitsOf p.length))

/-! ### DROP_PASS (R29) -/

/-- Whether an activation has written its pass into the array and not yet set the active generation. -/
def State.activationWritten (s : State) : Bool := s.passes.pending.any (fun a => decide (a.phase = .written))

/-- The active generation dropped: the array emptied, every bank powered down, the slot freed. Where an activation has already
overwritten the generation's weights there is nothing of it left to empty. -/
def State.dropActive (s : State) (g : Nat) : State :=
  let s := (if s.activationWritten then s else s.clearOthers []).setReg Off.genActive 0
  (s.setPasses { s.passes with slots := s.passes.slots.filter (fun e => e.2.staging || decide (e.2.gen ≠ g)) }).grantSlots

/-- DROP_PASS (R29): frees a staged slot, or empties the array once the pinned RUNs have completed, or is refused. -/
def execDropPass (req : Nat) (s : State) : Host.Outcome State Fault Refusal :=
  answer s (s.working req Dop.dropPass (fun s q =>
    let g := q.fld 8 4
    if s.actPending g then s.failReq req .faultPassGeneration .generation (fun e => e.details g 0)
    else if g ≠ 0 ∧ g = s.genActive then
      let use := match s.activePass with
        | some p => p.tileUse
        | none => []
      if (s.pinned g).isEmpty ∧ use.all (fun n => s.atSeam n) = true then (s.dropActive g).finishOk req 0
      else s.begin_ req
    else match s.slotOf g with
      | some e => (s.freeSlot e.1).finishOk req 0
      | none => s.failReq req .faultPassGeneration .generation (fun e => e.details g 0)))

/-! ### Spill rotation (R30) -/

/-- The next step of the request in front of a tile. -/
def Tile.nextStep (t : Tile) : Option Nat := (t.steps[t.pc]?).map (·.toNat)

/-- Whether a queued request's next step carries the SEAM flag. -/
def Tile.atFlag (t : Tile) (q : Nat) : Bool :=
  let pc := if t.queue.head? = some q then t.pc else t.pcOf q
  match t.steps[pc]? with
  | some w => Step.seam w.toNat
  | none => false

/-- Which SEAM flag of the list a queued request stands at: the rotation of that number carries its layer (R30). -/
def Tile.flagNumber (t : Tile) (q : Nat) : Nat :=
  ((t.steps.take (if t.queue.head? = some q then t.pc else t.pcOf q)).filter (fun w => Step.seam w.toNat)).length

/-- A request put in front of a tile's queue; the one in front is put aside at its place. -/
def Tile.bringFront (t : Tile) (q : Nat) : Tile :=
  match t.queue with
  | [] => t
  | f :: rest =>
    { t with
      queue := q :: f :: rest.filter (fun x => decide (x ≠ q))
      pc := t.pcOf q
      batchPc := (f, t.pc) :: t.batchPc.filter (fun x => decide (x.1 ≠ q) && decide (x.1 ≠ f)) }

/-- The section a tile's weights come from now: the tile's WEIGHTS, or the current SPILL_WEIGHTS of a rotating tile. -/
def State.weightSection (s : State) (p : PassInfo) (n : Nat) : Option Section :=
  let r := (s.tile n).rotation
  if r = 0 then findSec p.sections 1 n 0 else findSec p.sections 7 n (r - 1)

/-- The pass whose weights the array holds: that of an activation that has written them, else the active one. -/
def State.arrayPass (s : State) : Option PassInfo :=
  match s.passes.pending.find? (fun a => decide (a.phase = .written)) with
  | some a => s.slot? a.slot
  | none => s.activePass

/-- The weights of a tile written from a section; a macro whose bytes cannot be read is left invalid, as a reload leaves it (R246; DESIGN
CHOICE, log entry 65). -/
def State.weightsFrom (s : State) (p : PassInfo) (n : Nat) (x : Section) (steps : List Nat) : State :=
  let t := (s.readSections p.base [x]).1
  (t.writeWeights n (t.secBytes p.base x) steps).invalidateSome n (fun m => t.imagePoisoned p.base x m)

/-- The weights of a tile written again from the image of the active generation (R445, R448); of a tile outside it, cleared. -/
def State.rewriteWeights (s : State) (n : Nat) : State :=
  match s.arrayPass with
  | some p =>
    if p.tileUse.contains n then
      match s.weightSection p n with
      | some x => s.weightsFrom p n x ((s.tile n).steps.map (·.toNat))
      | none => s.writeWeights n [] ((s.tile n).steps.map (·.toNat))
    else s.writeWeights n [] []
  | none => s.writeWeights n [] []

/-- Whether a macro of a tile cannot be used because a section of the tile cannot be read: the weights where its own bytes cannot, another
section whatever the macro (R246; DESIGN CHOICE, log entry 65). -/
def State.macroUnread (s : State) (p : PassInfo) (n m : Nat) : Bool :=
  p.sections.any (fun x => decide (x.tile = n) && decide (x.typ ≤ 6) &&
    (if x.typ = 1 then s.imagePoisoned p.base x m else (s.sectionStop p.base x).isSome))

/-- The active pass written into the tiles again after a wake from Deep (R391). No descriptor reads here that could end: a macro that cannot
be used is left invalid, and each RUN that needs it ends (R246). -/
def State.rewritePass (s : State) (p : PassInfo) : State :=
  let t := (s.readSections p.base (p.sections.filter (fun x => decide (x.typ ≤ 6)))).1
  p.tileUse.foldl (fun u n => u.invalidateSome n (fun m => t.macroUnread p n m)) (t.writePass p)

/-- The next rotation's sections written into a rotating tile (R30): SPILL sections where they exist, the tile's own
otherwise. -/
def State.rotate (s : State) (p : PassInfo) (n : Nat) : State :=
  let t := s.tile n
  let count := (p.sections.filter (fun x => decide (x.typ = 7) && decide (x.tile = n))).length
  let r := if count = 0 then 0 else t.rotation % count
  let pick := fun (spill own : Nat) => match findSec p.sections spill n r with
    | some x => some x
    | none => findSec p.sections own n 0
  let bytes := fun (x : Option Section) => match x with
    | some y => s.secBytes p.base y
    | none => []
  let w := findSec p.sections 7 n r
  let held := ([(1, w), (2, pick 8 2), (6, pick 9 6), (3, pick 10 3)].filterMap (fun e => e.2.map (fun y => { y with typ := e.1, index := 0 })))
  let pat := (wordsOf 4 (bytes (pick 8 2))).map (BitVec.ofNat 32)
  let sca := (wordsOf 8 (bytes (pick 9 6))).map (BitVec.ofNat 64)
  let awl := bytes (pick 10 3)
  let s := s.writeWeights n (bytes w) (t.steps.map (·.toNat))
  s.updTile n (fun t => { t with
    pattern := pat, scales := sca, awlStore := awl
    held := held ++ t.held.filter (fun x => decide (x.typ = 4) || decide (x.typ = 5))
    rotation := r + 1
    rotReady := (t.queue.take (p.batch + 1)).filter (fun q => decide (t.flagNumber q % max 1 count = r)) })

/-- The sections a tile's next rotation reads: SPILL sections where they exist, the tile's own otherwise. -/
def State.rotationSections (s : State) (p : PassInfo) (n : Nat) : List Section :=
  let count := (p.sections.filter (fun x => decide (x.typ = 7) && decide (x.tile = n))).length
  let r := if count = 0 then 0 else (s.tile n).rotation % count
  let pick := fun (spill own : Nat) => (findSec p.sections spill n r).or (findSec p.sections own n 0)
  [findSec p.sections 7 n r, pick 8 2, pick 9 6, pick 10 3].filterMap id

/-- SPILL_ROTATION (R30): at a SEAM-flagged step of a rotating tile that is at a seam. A member of the batch that has not reached a
flagged step, or has yet to issue the one the current rotation serves, runs first; then the tile takes its next rotation. -/
def execSpillRotation (tile : Nat) (s : State) : Host.Outcome State Fault Refusal :=
  answer s (match s.activePass, (s.tile tile).queue with
    | some p, f :: _ =>
      let t := s.tile tile
      if p.rotating.contains tile = false ∨ t.atFlag f = false ∨ t.rotReady.contains f = true ∨ s.atSeam tile = false ∨
          s.parkState ≠ 0 then s
      else match (t.queue.take (p.batch + 1)).find? (fun q => !t.atFlag q || t.rotReady.contains q) with
        | some q => s.setTile tile (t.bringFront q)
        | none =>
          let read := s.readSections p.base (s.rotationSections p tile)
          match read.2 with
          | some b => read.1.failAccess f .faultUncorrected b
          | none => read.1.rotate p tile
    | _, _ => s)

end Sys2Proof.Machine
end

