-- ==== Sys2Proof/Machine/Rings.lean ====
section
/-! DEFINITION. Rings, doorbells and fetching (R273 to R279, R291, R292, R294). -/

namespace Sys2Proof.Machine

/-- Traffic from the host, or the end of what else keeps the package from Rest (R389: a request in flight, a park, REST_EN clear, bring-up
not settled): it restarts the idle time. -/
def State.noteTraffic (s : State) : State := { s with sleep := { s.sleep with idleSince := s.now } }

/-- Whether the package is in Deep, where what the host sends is held (R391). -/
def State.inDeep (s : State) : Bool := decide (s.sleep.pkg = .deep)

/-- A write of a secure-only register by the wrong world: no effect, counted (R10). -/
def State.secureOnly (s : State) (secure : Bool) (off : Nat) (f : State → State) : State :=
  if secure then f s else s.countViolation false 0 (0x030000000000 + off)

/-! ### Submission rings -/

/-- Fields of SQ_CTRL (R298 Table 13). -/
def sqEnabled (v : Nat) : Bool := v.testBit 0
def sqLog (v : Nat) : Nat := bitsAt v 2 5
def sqWeight (v : Nat) : Nat := bitsAt v 20 4
def sqAborting (v : Nat) : Bool := v.testBit 24
def sqWord (enable : Bool) (log cq weight : Nat) (aborting : Bool) : Nat :=
  enable.toNat + 4 * log + 128 * cq + 2 ^ 20 * weight + 2 ^ 24 * aborting.toNat

/-- The size of ring `r` and whether it is enabled. -/
def State.sqOn (s : State) (r : Nat) : Bool := sqEnabled (s.sqCtrl r)
def State.sqSize (s : State) (r : Nat) : Nat := 2 ^ sqLog (s.sqCtrl r)

/-- The enabled submission rings, rising: only a listed control word can have ENABLE set. -/
def State.enabledRings (s : State) : List Nat :=
  ((s.regs.filter (fun e => decide (Off.sq 0 0 ≤ e.1) && decide (e.1 < Off.sq 4160 0) &&
    decide (e.1 % 0x40 = 8) && e.2.getLsbD 0)).map (fun e => (e.1 - Off.sq 0 0) / 0x40))

/-- Whether a base pointer may be used: SPACE 1 and aligned to 4 KiB (R274). -/
def baseGood (p : Nat) : Bool :=
  decide (ptrSpace p = 1) && decide (p % 4096 = 0) && decide (bitsAt p 52 10 = 0)

/-- Whether ENABLE may be set on ring `r` that names completion ring `c` (R274). -/
def State.sqMayEnable (s : State) (r c : Nat) : Bool :=
  baseGood (s.reg64 (Off.sq r 0)) && decide (c < 4160) && ctrlEnable (s.reg (Off.cq c 8)) &&
  decide ((4096 ≤ r) = (4096 ≤ c)) && decide (s.reg (Off.sq r 0x18) = 0)

/-- The descriptors of a ring fetched and not yet accepted are dropped (R278). -/
def State.dropFetched (s : State) (r : Nat) : State :=
  { s with rings := { s.rings with fetched := s.rings.fetched.filter (fun f => decide (f.ring ≠ r)) } }

/-- Whether a request runs to its end through an abort (R294): a LOAD_PASS whose activation has passed its drain, a
RESTORE that has begun writing. -/
def State.abortExempt (s : State) (i : Nat) (q : Request) : Bool :=
  (decide (q.opcode = 0x02) && s.passes.pending.any (fun a => decide (a.req = i) && decide (a.phase = .written))) ||
  (decide (q.opcode = 0x05) && q.wrote)

/-- The requests of a ring that are accepted and not completed. -/
def State.ringReqs (s : State) (r : Nat) : List Nat :=
  (s.reqs.filter (fun e => decide (e.2.ring = r))).map (·.1)

/-- What an aborted LOAD_PASS held: the slot of an image still being staged, or a pending activation that has not
passed its drain, whose waiting RUNs then end as under R39 (R294; DEDUCED, log entry 18). An aborted STREAM_CLOSE
leaves its stream open. -/
def State.abandonWork (s : State) (i : Nat) (q : Request) : State :=
  if q.opcode = Dop.streamClose then
    let st := bitsAt (q.fld 8 4) 0 18
    if q.phase = .running ∧ s.ctx st 0 4 % 4 = 2 then s.setCtx st 0 4 (putBits (s.ctx st 0 4) 0 2 1) else s
  else if q.opcode ≠ Dop.loadPass then s
  else
    let s := match s.slot? (q.aux - 1) with
      | some p => if 0 < q.aux ∧ p.staging = true then s.returnSlot q (q.aux - 1) p else s
      | none => s
    match s.passes.pending.find? (fun a => decide (a.req = i) && decide (a.phase ≠ .written)) with
    | some a => (s.dropPending a.gen).endBound a.gen
    | none => s.dropWait i

/-- The requests of a ring that an abort ends. -/
def State.abortList (s : State) (r : Nat) : List (Nat × Request) :=
  (s.ringReqs r).filterMap (fun i => match s.req? i with
    | some q => if q.phase ≠ .finished ∧ s.abortExempt i q = false then some (i, q) else none
    | none => none)

/-- The macros a CIM or AWL_SCAN step names. -/
def Step.macros (w : Nat) : List Nat :=
  if Step.isCim w ∨ Step.opcode w = Op.awlScan then (List.range (Step.m w)).map (Step.mfirst w + ·) else []

/-- Whether a running step has begun its work: a step that waits for its first input stands at a step boundary. -/
def State.begun (s : State) (n : Nat) (r : RStep) : Bool :=
  let w := r.word.toNat
  r.finished || decide (r.next ≠ 0) || decide (r.aux ≠ 0) ||
  (Step.isCim w && (Step.macros w).any (fun m => decide ((s.mac n m).position ≠ 0) || decide ((s.mac n m).inv ≠ 0)))

/-- Whether some tile is inside a step of a request. -/
def State.midStep (s : State) (i : Nat) : Bool :=
  s.tiles.any (fun e => e.2.running.any (fun r => decide (r.req = i) && s.begun e.1 r))

/-- An aborted RUN that stands at a step boundary of each tile ends (R294). -/
def State.stopOver (s : State) (i : Nat) : State :=
  match s.req? i with
  | some q => if q.phase = .stopping ∧ s.midStep i = false then s.failReq i .aborted .abort id else s
  | none => s

/-- A request aborted (R294): it ends with ABORTED, a RUN at the next step boundary of each tile, up to which it issues nothing more. -/
def State.abortReq (s : State) (i : Nat) (q : Request) : State :=
  if q.opcode = Dop.run ∧ s.midStep i = true then s.setReq i { q with phase := .stopping }
  else s.failReq i .aborted .abort id

/-- Every accepted descriptor of the ring that has not completed ends with ABORTED, but for those R294 lets run; then what the ended
ones held elsewhere is given up. -/
def State.abortRing (s : State) (r : Nat) : State :=
  let l := s.abortList r
  l.foldl (fun s e => s.abandonWork e.1 e.2) (l.foldl (fun s e => s.abortReq e.1 e.2) s)

/-- A write of SQ_CTRL in the ring's world (R274, R294, R485): LOG_SIZE and CQ only while disabled, WEIGHT always;
ABORT clears ENABLE, sets ABORTING and ends what is in flight; ENABLE is tested on the fields of the same write. -/
def State.writeSqCtrl (s : State) (r v : Nat) : State :=
  let old := s.sqCtrl r
  let on := sqEnabled old
  let log := if on then sqLog old else clampNat 4 16 (sqLog v)
  let cq := if on then sqCq old else sqCq v
  let weight := if sqWeight v = 0 then 1 else sqWeight v
  let inflight := s.reg (Off.sq r 0x18)
  if v.testBit 1 then
    let s := s.setReg (Off.sq r 8) (sqWord false log cq weight (decide (inflight ≠ 0)))
    (s.dropFetched r).abortRing r
  else if sqEnabled v then
    if on then s.setReg (Off.sq r 8) (sqWord true log cq weight (sqAborting old))
    else if s.sqMayEnable r cq then
      let s := s.setReg (Off.sq r 8) (sqWord true log cq weight false)
      (((s.setReg (Off.sq r 0xC) 0).setReg (Off.sq r 0x10) 0).setReg (Off.sq r 0x14) 0).setReg (Off.sq r 0x1C) 0
    else s.setReg (Off.sq r 8) (sqWord false log cq weight (sqAborting old))
  else
    (s.setReg (Off.sq r 8) (sqWord false log cq weight (sqAborting old))).dropFetched r

/-- A write of a submission ring's register by the wrong world: no effect, counted (R10, R298). -/
def State.sqWorld (s : State) (r : Nat) (secure : Bool) (k : Nat) (f : State → State) : State :=
  if 4096 ≤ r ∧ secure = false then s.countViolation false 0 (0x030000000000 + Off.sq r k) else f s

/-! ### Rings the device writes -/

/-- The counters a ring clears when it is enabled (R274, R300, R335). -/
def ringCounters (r : RingId) : List Nat :=
  match r with
  | .cq c => [Off.cq c 0x10, Off.cq c 0x14, Off.cq c 0x1C, Off.cq c 0x20, Off.cq c 0x24]
  | .evq w => [Off.wrb w 0x10, Off.wrb w 0x14, Off.wrb w 0x18, Off.wrb w 0x1C, Off.wrb w 0x20]
  | .erq w => [Off.wrb w 0x50, Off.wrb w 0x54]
  | .plog w => [Off.dig w 0x10, Off.dig w 0x14, Off.dig w 0x20]
  | .pbat w => [Off.dig w 0x34, Off.dig w 0x38, Off.dig w 0x3C]
  | .dlog w => [Off.dig w 0x4C, Off.dig w 0x50, Off.dig w 0x54, Off.dig w 0x58, Off.dig w 0x5C]

/-- What else enabling a ring does: an error ring restarts SEQ (R435), a provenance log restarts SEQ and counts only
the leaves still waiting (R330, R331), an event ring forgets what waited and is posted a summary READY (R398). -/
def State.afterEnable (s : State) (r : RingId) : State :=
  match r with
  | .erq w =>
    let errs := if w = 0 then { s.errs with seqNs := 0 } else { s.errs with seqS := 0 }
    ({ s with errs := errs }).flushErrors w
  | .plog w =>
    let a := s.auditWorld w
    ((s.setAuditWorld w { a with seq := 0 }).setReg (Off.dig w 0x18) a.buffer.length).drainLeaves w
  | .pbat w => s.drainBatches w
  | .evq w =>
    let s := { s with rings := { s.rings with evWait := s.rings.evWait.filter (fun e => decide (e.1 ≠ w)) } }
    s.postEvent [w] Ev.ready 0 0 [0, 0, BitVec.ofNat 8 s.readyCount, BitVec.ofNat 8 (s.readyCount / 256)]
  | _ => s

/-- Whether an enabled submission ring names a completion ring (R274). -/
def State.cqNamed (s : State) (c : Nat) : Bool := s.enabledRings.any (fun r => decide (sqCq (s.sqCtrl r) = c))

/-- Whether a completion ring is held: its ENABLE cannot be cleared (R274). -/
def State.cqHeld (s : State) (r : RingId) : Bool :=
  match r with
  | .cq c => s.cqNamed c || decide (s.reg (Off.cq c 0x18) ≠ 0)
  | _ => false

/-- A write of the CTRL register of a ring the device writes (R274, R299). -/
def State.writeRingCtrl (s : State) (r : RingId) (v : Nat) : State :=
  let old := s.reg r.ctrlOff
  let on := ctrlEnable old
  let word := fun (e : Bool) => e.toNat + 2 * (if on then ctrlLog old else clampNat 4 16 (ctrlLog v)) + 64 * ctrlVector v
  if on && !ctrlEnable v && s.cqHeld r then s
  else if ctrlEnable v && !on then
    if baseGood (s.reg64 r.baseOff) then
      let s := s.setReg r.ctrlOff (word true)
      let s := (ringCounters r).foldl (fun s o => s.setReg o 0) s
      (s.setCoal r 0 0).afterEnable r
    else s.setReg r.ctrlOff (word false)
  else s.setReg r.ctrlOff (word (ctrlEnable v))

/-- A write of a ring's register by the wrong world: no effect, counted (R10). -/
def State.ringWorld (s : State) (r : RingId) (secure : Bool) (off : Nat) (f : State → State) : State :=
  if r.world = 1 ∧ secure = false then s.countViolation false 0 (0x030000000000 + off) else f s

/-- What the final record of a descriptor does beside standing in its ring: the tallies of its rings, its message (R292), the end of an
abort once nothing of its ring is in flight (R294). -/
def State.leaveRings (s : State) (ring cq : Nat) (irq : Bool) : State :=
  let s := ((((s.tally (Off.sq ring 0x14) 1).untally (Off.sq ring 0x18) 1).tally (Off.cq cq 0x1C) 1).untally
    (Off.cq cq 0x18) 1).untally Off.rqInuse 1
  let s := if s.reg Off.rqInuse = 0 then s.noteTraffic else s
  let s := if irq then s.signalRing (.cq cq) else s
  if s.reg (Off.sq ring 0x18) = 0 ∧ sqAborting (s.sqCtrl ring) = true then s.setRegBit (Off.sq ring 8) 24 false else s

/-- The record of a request that a halting park ended: TAG, STATUS, SOURCE and TIME, zero elsewhere (R317). -/
def HaltRec.bytes (r : HaltRec) (phase : Bool) : List Byte :=
  natLe 2 r.tag ++ natLe 2 r.status ++ natLe 2 (r.ring % 8192 + 2 ^ 15 * phase.toNat) ++ natLe 2 0 ++ natLe 4 0 ++ natLe 4 0 ++
  natLe 8 r.time ++ natLe 8 0

/-- The leaf of one on-die copy formed where the on-die buffer has room (R330); else it waits, which is counted (R331). -/
def State.formHalt (s : State) (r : HaltRec) : State :=
  let w := worldNum (decide (4096 ≤ r.ring))
  match r.leaf with
  | none => { s with park := { s.park with onDie := s.park.onDie ++ [r] } }
  | some l =>
    if s.leafRoom w then
      { s with park := { s.park with onDie := s.park.onDie ++ [{ r with leaf := none }] } }.formLeaf w (fun n => overlay l 8 (natLe 8 n))
    else ({ s with park := { s.park with onDie := s.park.onDie ++ [r] } }).tally (Off.dig w 0x20) 1

/-- The leaves of the on-die copies formed, in their order. -/
def State.formHalted (s : State) : State :=
  s.park.onDie.foldl (fun s r => s.formHalt r) { s with park := { s.park with onDie := [] } }

/-- The on-die copies whose leaf is formed written as final records while the link is up: each moves its rings' tallies, is signalled as
any final record (R292) and may be the last that an aborted ring waits for (R294). -/
def State.flushHalt (s : State) : State :=
  if s.link.up = false then s
  else
    let l := s.park.onDie.filter (fun r => r.leaf.isNone)
    l.foldl (fun s r => (s.pushEntry (.cq r.cq) r.bytes).leaveRings r.ring r.cq r.irq)
      { s with park := { s.park with onDie := s.park.onDie.filter (fun r => r.leaf.isSome) } }

/-- A write of HEAD (R291): one that moves it backwards or past TAIL is ignored, and counted for a completion
ring. Room that opens lets waiting records in. -/
def State.writeRingHead (s : State) (r : RingId) (v : Nat) : State :=
  let head := s.reg r.headOff
  if (2 ^ 32 - head + v) % 2 ^ 32 ≤ s.ringUsed r then
    let s := s.setReg r.headOff v
    match r with
    | .erq w => s.flushErrors w
    | .plog w => (s.drainLeaves w).formHalted.flushHalt
    | .pbat w => (s.drainBatches w).formHalted.flushHalt
    | _ => s
  else match r with
    | .cq c => s.tally (Off.cq c 0x24) 1
    | _ => s

/-! ### Doorbells (R261, R264, R275, R276) -/

/-- A doorbell that reaches its page: accepted into SQ_TAIL or discarded, counted and recorded (R276). -/
def State.ringDoorbell (s : State) (r t : Nat) : State :=
  let told := s.reg (Off.sq r 0xC)
  let h := s.reg (Off.sq r 0x10)
  let size := s.sqSize r
  if s.sqOn r ∧ (2 ^ 32 - h + t) % 2 ^ 32 ≤ size ∧ (2 ^ 32 - told + t) % 2 ^ 32 ≤ size then
    s.setReg (Off.sq r 0xC) t
  else
    (s.tally (Off.sq r 0x1C) 1).fileError [worldNum (decide (4096 ≤ r))]
      { ((ErrRec.of .doorbell).details t told) with ring := r }

/-- A write of BAR2 (R261, R264). -/
def State.bar2Write (s : State) (off size value : Nat) (secure : Bool) : State :=
  let p := off / 4096
  if decide (4160 ≤ p) || decide (off % 4096 ≠ 0) || (decide (size ≠ 4) && decide (size ≠ 8)) then
    s.tally (Off.hl 0x14) 1
  else if 4096 ≤ p ∧ secure = false then (s.tally (Off.hl 0x10) 1).countViolation false 0 off
  else s.ringDoorbell p (value % 2 ^ 32)

/-- What a read of BAR2 returns, wherever it is made: zeros (R261). -/
def bar2Read (_off size : Nat) : List Byte := List.replicate size 0

/-! ### Fetching (R277 to R279) -/

/-- Descriptors of a ring placed and not yet fetched. -/
def State.sqPending (s : State) (r : Nat) : Nat :=
  let waiting := (s.rings.fetched.filter (fun f => decide (f.ring = r))).length
  (2 ^ 33 - s.reg (Off.sq r 0x10) - waiting + s.reg (Off.sq r 0xC)) % 2 ^ 32

/-- Free request-table entries: those in use and those that fetched descriptors will take (R279). -/
def State.reqRoom (s : State) : Nat := 262144 - s.reg Off.rqInuse - s.rings.fetched.length

/-- Whether a ring may take a fetch turn: pending descriptors and a free record (R278, R279). -/
def State.mayFetch (s : State) (r : Nat) : Bool :=
  decide (0 < s.sqPending r) && decide (0 < s.cqRoom (sqCq (s.sqCtrl r)))

/-- The next ring of the round robin: the first after the last one served, cyclically (R278; DEDUCED, log entry 15). -/
def State.nextRing (s : State) : Option Nat :=
  let rs := s.enabledRings.filter (fun r => s.mayFetch r)
  match rs.find? (fun r => decide (s.rings.rrLast < r)) with
  | some r => some r
  | none => rs.head?

/-- The reads of a turn (R278): up to 512 bytes, eight slots, that do not cross the end of the ring; each read
is the numbers of the descriptors it covers. -/
def fetchReads (size first : Nat) (n fuel : Nat) : List (List Nat) :=
  match fuel with
  | 0 => []
  | fuel + 1 =>
    if n = 0 then [] else
      let k := min n (min 8 (size - first % size))
      (List.range k).map (fun i => first + i) :: fetchReads size (first + k) (n - k) fuel

/-- FETCH_TURN (R278): the turn of one ring. `bad` numbers the reads of the turn that the host answered with an
error or poison. No turn is taken while parking or parked (R315, R316) or with the link down; a turn that finds the
request table full counts in RQ_FULL_WAITS (R279). -/
def execFetchTurn (bad : List Nat) (s : State) : Host.Outcome State Fault Refusal :=
  answer s (
    if s.parkState ≠ 0 ∨ s.link.up = false ∨ s.inDeep = true then s
    else match s.nextRing with
      | none => s
      | some r =>
        if s.reqRoom = 0 then s.tally Off.rqFullWaits 1
        else
          let size := s.sqSize r
          let n := min (min (sqWeight (s.sqCtrl r)) (s.sqPending r)) (min s.reqRoom (s.cqRoom (sqCq (s.sqCtrl r))))
          let waiting := (s.rings.fetched.filter (fun f => decide (f.ring = r))).length
          let first := s.reg (Off.sq r 0x10) + waiting
          let base := ptrAddr (s.reg64 (Off.sq r 0))
          let reads := fetchReads size first n n
          let got := (reads.zipIdx.map (fun p => p.1.map (fun k =>
            ({ ring := r, num := k % 2 ^ 32, bytes := s.hostBytes (base + k % size * 64) 64,
               bad := bad.contains p.2 } : Fetched)))).flatten
          { s with rings := { s.rings with fetched := s.rings.fetched ++ got, rrLast := r } })

/-! ### MSI-X masks (R269) -/

/-- A vector unmasked: a pending message is sent once (R269). -/
def State.unmaskVector (s : State) (v : Nat) : State :=
  let s := s.setRegBit (Off.msix v 12) 0 false
  if s.regBit (Off.pba v) (v % 32) && !s.link.funcMask then
    (s.setRegBit (Off.pba v) (v % 32) false).emit (.msix v)
  else s

/-- The function mask written (R269): once it is clear, what is pending on an unmasked vector is sent once. -/
def State.setFuncMask (s : State) (b : Bool) : State :=
  let s := { s with link := { s.link with funcMask := b } }
  if b then s
  else ((List.range 2048).filter (fun v => s.regBit (Off.pba v) (v % 32) && !s.regBit (Off.msix v 12) 0)).foldl
    (fun s v => (s.setRegBit (Off.pba v) (v % 32) false).emit (.msix v)) s

end Sys2Proof.Machine
end

