-- ==== Sys2Proof/Machine/Float.lean ====
section
/-! DEFINITION. Floating-point arithmetic (R200): IEEE 754 binary32 and binary16, bfloat16, the OFP8 formats; round to
nearest even, fused multiply-add, subnormals kept, one canonical NaN. -/

namespace Sys2Proof.Machine

/-- A floating-point datum: a NaN, an infinity, or (−1)^neg · m · 2^e. -/
inductive Fp where
  | nan
  | inf (neg : Bool)
  | fin (neg : Bool) (m : Nat) (e : Int)
deriving DecidableEq, Repr

/-- A binary format: exponent bits, fraction bits, and whether it has infinities. -/
structure Fmt where
  ebits : Nat
  mbits : Nat
  ieee : Bool
deriving DecidableEq, Repr

/-- The codes of R203 Table 4. -/
def Fmt.int8 : Nat := 0
def Fmt.int16 : Nat := 1
def Fmt.int32 : Nat := 7
def Fmt.f32 : Fmt := ⟨8, 23, true⟩
def fmtOf (code : Nat) : Option Fmt :=
  match code with
  | 2 => some ⟨8, 7, true⟩
  | 3 => some ⟨5, 10, true⟩
  | 4 => some Fmt.f32
  | 5 => some ⟨4, 3, false⟩
  | 6 => some ⟨5, 2, true⟩
  | _ => none

/-- Bytes of one element of a format. -/
def fmtBytes (code : Nat) : Nat :=
  match code with
  | 0 => 1
  | 1 => 2
  | 2 => 2
  | 3 => 2
  | 5 => 1
  | 6 => 1
  | _ => 4

def Fmt.bias (f : Fmt) : Nat := 2 ^ (f.ebits - 1) - 1
def Fmt.expAll (f : Fmt) : Nat := 2 ^ f.ebits - 1
/-- The exponent of the last place of a subnormal. -/
def Fmt.emin (f : Fmt) : Int := 1 - (f.bias : Int) - (f.mbits : Int)
/-- The largest finite magnitude: significand and exponent. E4M3 keeps its top exponent for numbers but one pattern. -/
def Fmt.top (f : Fmt) : Nat × Int :=
  if f.ieee then (2 ^ (f.mbits + 1) - 1, (f.expAll : Int) - 1 - f.bias - f.mbits)
  else (2 ^ (f.mbits + 1) - 2, (f.expAll : Int) - f.bias - f.mbits)
/-- The canonical NaN of a format. -/
def Fmt.nanBits (f : Fmt) : Nat :=
  if f.ieee then f.expAll * 2 ^ f.mbits + 2 ^ (f.mbits - 1) else f.expAll * 2 ^ f.mbits + (2 ^ f.mbits - 1)

/-- The datum of a pattern. -/
def Fmt.decode (f : Fmt) (v : Nat) : Fp :=
  let m := bitsAt v 0 f.mbits
  let x := bitsAt v f.mbits f.ebits
  let neg := v.testBit (f.mbits + f.ebits)
  if x = f.expAll ∧ f.ieee then (if m = 0 then .inf neg else .nan)
  else if x = f.expAll ∧ m = 2 ^ f.mbits - 1 then .nan
  else if x = 0 then .fin neg m f.emin
  else .fin neg (m + 2 ^ f.mbits) (f.emin + (x : Int) - 1)

/-- Whether m·2^e exceeds n·2^k. -/
def magLt (a b : Nat × Int) : Bool :=
  let lo := min a.2 b.2
  decide (a.1 * 2 ^ (a.2 - lo).toNat < b.1 * 2 ^ (b.2 - lo).toNat)

/-- num/den·2^s rounded half to even. -/
def roundScaled (num den : Nat) (s : Int) : Nat :=
  if 0 ≤ s then (divRoundEven ((num * 2 ^ s.toNat : Nat) : Int) den).toNat
  else (divRoundEven (num : Int) (den * 2 ^ (-s).toNat)).toNat

/-- A positive rational rounded to a format: significand and exponent of the last place. -/
def Fmt.roundMag (f : Fmt) (num den : Nat) : Nat × Int :=
  let g : Int := (bitLength num : Int) - bitLength den
  let low := if 0 ≤ g then decide (num < den * 2 ^ g.toNat) else decide (num * 2 ^ (-g).toNat < den)
  let g := if low then g - 1 else g
  let q := max (g - f.mbits) f.emin
  (roundScaled num den (-q), q)

/-- A rational rounded to a format; past the largest finite magnitude an infinity. -/
def Fmt.round (f : Fmt) (neg : Bool) (num den : Nat) : Fp :=
  if num = 0 then .fin neg 0 0
  else
    let r := f.roundMag num den
    if magLt f.top r then .inf neg else .fin neg r.1 r.2

/-- A significand moved to the format's last place for its magnitude, no bit lost. -/
def Fmt.pack (f : Fmt) (m : Nat) (e : Int) : Nat :=
  if m = 0 then 0
  else
    let g : Int := (bitLength m : Int) - 1 + e
    let q := max (g - f.mbits) f.emin
    let n := if q ≤ e then m * 2 ^ (e - q).toNat else m / 2 ^ (q - e).toNat
    if n < 2 ^ f.mbits then n
    else (q - f.emin + 1).toNat * 2 ^ f.mbits + (n - 2 ^ f.mbits)

/-- The pattern of a datum that the format holds; the 8-bit formats saturate (R200). -/
def Fmt.encode (f : Fmt) (x : Fp) : Nat :=
  let sign := fun (neg : Bool) => neg.toNat * 2 ^ (f.mbits + f.ebits)
  match x with
  | .nan => f.nanBits
  | .inf neg =>
    if f.mbits ≤ 3 then sign neg + f.pack f.top.1 f.top.2
    else sign neg + f.expAll * 2 ^ f.mbits
  | .fin neg m e => sign neg + f.pack m e

/-- A datum rounded to a format. -/
def Fmt.narrow (f : Fmt) (x : Fp) : Fp :=
  match x with
  | .fin neg m e => if 0 ≤ e then f.round neg (m * 2 ^ e.toNat) 1 else f.round neg m (2 ^ (-e).toNat)
  | y => y

def Fp.neg? : Fp → Bool
  | .nan => false
  | .inf n => n
  | .fin n _ _ => n
def Fp.isZero : Fp → Bool
  | .fin _ m _ => decide (m = 0)
  | _ => false
/-- A NaN or an infinity (R215). -/
def Fp.special : Fp → Bool
  | .fin _ _ _ => false
  | _ => true

/-- The exact product. -/
def Fp.mul (a b : Fp) : Fp :=
  match a, b with
  | .nan, _ => .nan
  | _, .nan => .nan
  | .inf n, y => if y.isZero then .nan else .inf (n != y.neg?)
  | x, .inf n => if x.isZero then .nan else .inf (x.neg? != n)
  | .fin n m e, .fin k l f => .fin (n != k) (m * l) (e + f)

/-- The exact sum; of two numbers that cancel, +0. -/
def Fp.add (a b : Fp) : Fp :=
  match a, b with
  | .nan, _ => .nan
  | _, .nan => .nan
  | .inf n, .inf k => if n = k then .inf n else .nan
  | .inf n, _ => .inf n
  | _, .inf n => .inf n
  | .fin n m e, .fin k l f =>
    if m = 0 ∧ l = 0 then .fin (n && k) 0 0
    else
      let lo := min e f
      let x : Int := (if n then -1 else 1) * ((m * 2 ^ (e - lo).toNat : Nat) : Int) + (if k then -1 else 1) * ((l * 2 ^ (f - lo).toNat : Nat) : Int)
      .fin (decide (x < 0)) x.natAbs lo

/-- Whether one datum is below another; a NaN compares with nothing. -/
def Fp.lt (a b : Fp) : Bool :=
  match a, b with
  | .nan, _ => false
  | _, .nan => false
  | .inf n, .inf k => n && !k
  | .inf n, _ => n
  | _, .inf k => !k
  | .fin _ _ _, .fin _ _ _ =>
    match b.add (match a with
      | .fin n m e => .fin (!n) m e
      | y => y) with
    | .fin n m _ => !n && decide (m ≠ 0)
    | _ => false

/-- FP32 addition, multiplication, fused multiply-add, division on patterns (R200). -/
def fp32 (v : Nat) : Fp := Fmt.f32.decode v
def fp32Bits (x : Fp) : Nat := Fmt.f32.encode (Fmt.f32.narrow x)
def fadd (a b : Nat) : Nat := fp32Bits ((fp32 a).add (fp32 b))
def ffma (a b c : Nat) : Nat := fp32Bits (((fp32 a).mul (fp32 b)).add (fp32 c))
def fdiv (a b : Nat) : Nat :=
  let n := (fp32 a).neg? != (fp32 b).neg?
  match fp32 a, fp32 b with
  | .nan, _ => Fmt.f32.nanBits
  | _, .nan => Fmt.f32.nanBits
  | .inf _, .inf _ => Fmt.f32.nanBits
  | .inf _, _ => Fmt.f32.encode (.inf n)
  | _, .inf _ => Fmt.f32.encode (.fin n 0 0)
  | .fin _ m e, .fin _ l f =>
    if l = 0 then (if m = 0 then Fmt.f32.nanBits else Fmt.f32.encode (.inf n))
    else
      let d := e - f
      Fmt.f32.encode (if 0 ≤ d then Fmt.f32.round n (m * 2 ^ d.toNat) l else Fmt.f32.round n m (l * 2 ^ (-d).toNat))
def fsub (a b : Nat) : Nat := fadd a (if b.testBit 31 then b - 2 ^ 31 else b + 2 ^ 31)

/-- The FP32 pattern of a rational, rounded once. -/
def ratFp32 (num : Int) (den : Nat) : Nat := Fmt.f32.encode (Fmt.f32.round (decide (num < 0)) num.natAbs den)

/-- The integer square root of a number, by bits from the top. -/
def isqrtStep (n r : Nat) : Nat → Nat
  | 0 => r
  | k + 1 => if (r + 2 ^ k) * (r + 2 ^ k) ≤ n then isqrtStep n (r + 2 ^ k) k else isqrtStep n r k
def isqrt (n : Nat) : Nat := isqrtStep n 0 (bitLength n / 2 + 1)

/-- FP32 square root, correctly rounded (R210): the root is formed with spare bits and a sticky bit below them. -/
def fsqrt (a : Nat) : Nat :=
  match fp32 a with
  | .nan => Fmt.f32.nanBits
  | .inf n => if n then Fmt.f32.nanBits else Fmt.f32.encode (.inf false)
  | .fin n m e =>
    if m = 0 then a
    else if n then Fmt.f32.nanBits
    else
      let k : Nat := if e % 2 = 0 then 64 else 65
      let x := m * 2 ^ k
      let r := isqrt x
      let r2 := 2 * r + (if r * r = x then 0 else 1)
      fp32Bits (.fin false r2 ((e - (k : Int)) / 2 - 1))

/-! ### Elements of a format -/

/-- Whether a format is an integer one. -/
def fmtInt (code : Nat) : Bool := (fmtOf code).isNone

/-- The integer an element of an integer format holds. -/
def elemInt (code v : Nat) : Int := signedOf (8 * fmtBytes code) v

/-- The FP32 datum of an element of any format; exact for the integers as well. -/
def elemFp (code v : Nat) : Fp :=
  match fmtOf code with
  | some f => f.decode v
  | none => let x := elemInt code v; .fin (decide (x < 0)) x.natAbs 0

/-- An integer saturated to an integer format. -/
def satInt (code : Nat) (x : Int) : Nat :=
  let n := 8 * fmtBytes code
  twos n (clampInt (-(2 ^ (n - 1))) (2 ^ (n - 1) - 1) x)

/-- A datum rounded into a format: to nearest even; an integer format takes the nearest integer, and what has none in range
is open (Config.freeConvert). -/
def fpElem (code : Nat) (x : Fp) : Nat :=
  match fmtOf code with
  | some f => f.encode (f.narrow x)
  | none =>
    let n := 8 * fmtBytes code
    match x with
    | .fin neg m e =>
      let k : Int := (roundScaled m 1 e : Nat)
      let v := if neg then -k else k
      if -((2 : Int) ^ (n - 1)) ≤ v ∧ v ≤ (2 : Int) ^ (n - 1) - 1 then twos n v
      else Config.freeConvert code (fp32Bits x) % 2 ^ n
    | y => Config.freeConvert code (fp32Bits y) % 2 ^ n

/-- A list in an order the spec leaves to arrival: a free permutation (R89, R212; log entry 10). -/
def freeOrder {α : Type} (f : Nat) (l : List α) : List α :=
  match l with
  | [] => []
  | x :: r =>
    let rest := freeOrder (f + 1) r
    let k := (Config.freeWord f).toNat % (rest.length + 1)
    rest.take k ++ x :: rest.drop k

end Sys2Proof.Machine
end

