-- ==== Sys2Proof/Machine/Eyelet.lean ====
section
/-! DEFINITION. Eyelet data (R118 to R125, R131): reading a segment with the checks of the insole buffer, and the canonical
segment the output compressor writes. -/

namespace Sys2Proof.Machine

/-- One value a position carries: channel, code, and whether its block is dense. -/
abbrev EyeVal := Nat × Nat × Bool

/-- A present position: its column and its values in channel order. -/
structure EyePos where
  col : Nat
  vals : List EyeVal
  blocks : List (List EyeVal)
deriving DecidableEq, Repr

/-- A segment as read: its first row, its rows, its form. -/
structure EyeSeg where
  first : Nat
  lines : List (List EyePos)
  delta : Bool
deriving DecidableEq, Repr

/-- What R131 refused: the offset in the segment and the check. -/
structure EyeBad where
  off : Nat
  check : Nat
deriving DecidableEq, Repr

/-- Whether a list of numbers rises strictly. -/
def risesStrictly : List Nat → Bool
  | a :: b :: r => decide (a < b) && risesStrictly (b :: r)
  | _ => true

/-- What a segment is read against: code width in bits, channels, width, and the rest code of its table if it has one. -/
structure EyeForm where
  b : Nat
  channels : Nat
  width : Nat
  rest : Option Nat
deriving DecidableEq, Repr

/-- Channels block `k` covers. -/
def EyeForm.covers (f : EyeForm) (k : Nat) : Nat := min 32 (f.channels - 32 * k)

/-- Blocks of one position. -/
def EyeForm.blocks (f : EyeForm) : Nat := (f.channels + 31) / 32

/-- Block `k` at the head of a byte string: its values and its length, or the check it fails (R120, R122). -/
def readBlock (f : EyeForm) (k : Nat) (bs : List Byte) : Except Nat (List EyeVal × Nat) :=
  match bs with
  | [] => .error 5
  | h :: body =>
    let n := bitsAt h.toNat 0 6
    if h.getLsbD 6 then .error 0
    else if h.getLsbD 7 then
      let len := 4 * f.b
      if n ≠ 32 then .error 1
      else if body.length < len then .error 5
      else
        let v := leNat (body.take len)
        let vals := (List.range (f.covers k)).map (fun i => bitsAt v (i * f.b) f.b)
        .ok (vals.zipIdx.map (fun x => (32 * k + x.2, x.1, true)), 1 + len)
    else
      let len := (5 * n + n * f.b + 7) / 8
      if 32 < n then .error 1
      else if body.length < len then .error 5
      else
        let v := leNat (body.take len)
        let codes := (List.range n).map (fun i => bitsAt v (5 * i) 5)
        if risesStrictly codes = false ∨ codes.any (fun c => decide (f.covers k ≤ c)) = true then .error 2
        else if bitsAt v (5 * n + n * f.b) (8 * len - (5 * n + n * f.b)) ≠ 0 then .error 3
        else .ok (codes.zipIdx.map (fun x => (32 * k + x.1, bitsAt v (5 * n + x.2 * f.b) f.b, false)), 1 + len)

/-- The blocks of one position, from block `k` on. -/
def readBlocks (f : EyeForm) (k : Nat) (bs : List Byte) : Nat → Except Nat (List (List EyeVal) × Nat)
  | 0 => .ok ([], 0)
  | m + 1 =>
    match readBlock f k bs with
    | .error e => .error e
    | .ok (v, n) =>
      match readBlocks f (k + 1) (bs.drop n) m with
      | .error e => .error e
      | .ok (vs, r) => .ok (v :: vs, n + r)

/-- The positions of a line after its header: `col` is the column after the last present one. -/
def readPositions (f : EyeForm) (strict : Bool) (col : Nat) (bs : List Byte) : Nat → Except Nat (List EyePos × Nat)
  | 0 => .ok ([], 0)
  | m + 1 =>
    if bs.length < 2 then .error 5
    else
      let c := col + fieldAt bs 0 2
      if f.width ≤ c then .error 4
      else match readBlocks f 0 (bs.drop 2) f.blocks with
        | .error e => .error e
        | .ok (bl, n) =>
          if strict && bl.zipIdx.any (fun x => decide (x.1.length < f.covers x.2)) then .error 8
          else match readPositions f strict (c + 1) (bs.drop (2 + n)) m with
            | .error e => .error e
            | .ok (ps, r) => .ok ({ col := c, vals := bl.flatten, blocks := bl } :: ps, 2 + n + r)

/-- One line: its bytes reach to the next line or the end of the segment (R123). -/
def readLine (f : EyeForm) (strict : Bool) (bs : List Byte) : Except Nat (List EyePos) :=
  let n := fieldAt bs 0 2
  if bs.length < 4 then .error 5
  else if fieldAt bs 2 2 ≠ 0 then .error 0
  else if f.width < n then .error 4
  else if strict = true ∧ n < f.width then .error 8
  else match readPositions f strict 0 (bs.drop 4) n with
    | .error e => .error e
    | .ok (ps, k) =>
      let len := roundUp 4 (4 + k)
      if bs.length < len then .error 5
      else if allZero ((bs.drop (4 + k)).take (len - (4 + k))) then .ok ps else .error 3

/-- The lines of a segment from their directory offsets. -/
def readLines (f : EyeForm) (strict : Bool) (bs : List Byte) (len : Nat) : List Nat → Except EyeBad (List (List EyePos))
  | [] => .ok []
  | o :: r =>
    let next := r.headD len
    match readLine f strict ((bs.take next).drop o) with
    | .error e => .error ⟨o, e⟩
    | .ok l =>
      match readLines f strict bs len r with
      | .error e => .error e
      | .ok ls => .ok (l :: ls)

/-- A segment at the head of a region's bytes, checked as the insole buffer does (R131). Checks: 0 a reserved bit, 1 a
dense block's N, 2 channel codes, 3 padding, 4 a column past the row, 5 an overrun, 6 a header that disagrees with
the region, 7 the directory, 8 absence that the table cannot express. -/
def readSegment (f : EyeForm) (bs : List Byte) : Except EyeBad EyeSeg :=
  let n := fieldAt bs 2 2
  let fmt := fieldAt bs 8 1
  let rv := fmt.testBit 3
  let len := fieldAt bs 0xC 4
  let dir := (List.range n).map (fun i => fieldAt bs (0x10 + 4 * i) 4)
  let lo := 0x10 + 4 * n
  if fmt / 16 ≠ 0 ∨ fieldAt bs 0xA 2 ≠ 0 then .error ⟨0, 0⟩
  else if fieldAt bs 4 2 ≠ f.width ∨ fieldAt bs 6 2 ≠ f.channels ∨ wBits (bitsAt fmt 0 2) ≠ f.b ∨
      rv ≠ f.rest.isSome ∨ fieldAt bs 9 1 ≠ f.rest.getD 0 then .error ⟨0, 6⟩
  else if n = 0 ∨ len % 4 ≠ 0 ∨ len < lo ∨ bs.length < len then .error ⟨0, 5⟩
  else if dir.any (fun o => decide (o % 4 ≠ 0) || decide (o < lo) || decide (len < o)) = true ∨ risesStrictly dir = false then
    .error ⟨0x10, 7⟩
  else match readLines f (!rv && !fmt.testBit 2) bs len dir with
    | .error e => .error e
    | .ok ls => .ok { first := fieldAt bs 0 2, lines := ls, delta := fmt.testBit 2 }

/-! ### The output compressor (R121, R123 to R125) -/

/-- Codes packed LSB first into bytes. -/
def packBits (w : Nat) (l : List Nat) : Nat := (l.zipIdx).foldl (fun v x => v + x.1 % 2 ^ w * 2 ^ (w * x.2)) 0

/-- One block from its reported channels (channel within the block, code) and the codes of all its channels (R121), a last block of less
than 32 channels by the same rule (R122), also where the table has no rest code and R119 calls every block dense (DESIGN CHOICE, log
entry 68). -/
def blockBytes (b : Nat) (reported : List (Nat × Nat)) (all : List Nat) : List Byte :=
  let n := reported.length
  if 32 * b ≤ 5 * n + n * b then
    BitVec.ofNat 8 (32 + 128) :: natLe (4 * b) (packBits b all)
  else
    BitVec.ofNat 8 n :: natLe ((5 * n + n * b + 7) / 8)
      (packBits 5 (reported.map (·.1)) + packBits b (reported.map (·.2)) * 2 ^ (5 * n))

/-- One position to be compressed: its column, and for each channel the code and whether it is reported. -/
structure OutPos where
  col : Nat
  codes : List (Nat × Bool)
deriving DecidableEq, Repr

/-- The blocks of a position. -/
def posBlocks (b : Nat) (p : OutPos) : List (List Byte) :=
  (List.range ((p.codes.length + 31) / 32)).map (fun k =>
    let l := (p.codes.drop (32 * k)).take 32
    blockBytes b ((l.zipIdx.filter (fun x => x.1.2)).map (fun x => (x.2, x.1.1))) (l.map (·.1)))

/-- A line from its positions in column order; a position that reports nothing is left out unless the table has no rest
code and the form is plain (R119, R125). -/
def lineBytes (b : Nat) (keepAll : Bool) (ps : List OutPos) : List Byte :=
  let l := ps.filter (fun p => keepAll || p.codes.any (·.2))
  let body := (l.foldl (fun (acc : List Byte × Nat) p =>
    (acc.1 ++ natLe 2 (p.col - acc.2) ++ (posBlocks b p).flatten, p.col + 1)) ([], 0)).1
  let n := 4 + body.length
  natLe 2 l.length ++ [0, 0] ++ body ++ List.replicate (roundUp 4 n - n) 0

/-- A segment from its lines (R124). -/
def segmentBytes (first width channels wcode : Nat) (delta : Bool) (rest : Option Nat) (lines : List (List Byte)) :
    List Byte :=
  let lo := 0x10 + 4 * lines.length
  let dir := (lines.foldl (fun (acc : List Byte × Nat) l => (acc.1 ++ natLe 4 acc.2, acc.2 + l.length)) ([], lo))
  natLe 2 first ++ natLe 2 lines.length ++ natLe 2 width ++ natLe 2 channels ++
  natLe 1 (wcode + 4 * delta.toNat + 8 * rest.isSome.toNat) ++ natLe 1 (rest.getD 0) ++ [0, 0] ++ natLe 4 dir.2 ++
  dir.1 ++ lines.flatten

/-! ### Tables and regions -/

/-- The rest code of a table: the code whose level is 0 (R118). -/
def restOf (pat : List Nat) (tab b : Nat) : Option Nat :=
  (List.range (2 ^ b)).find? (fun c => decide (Pt.level pat tab c = 0))

/-- What an EYELET region's segment is read against. -/
def Rg.form (e : Nat) (pat : List Nat) : EyeForm where
  b := wBits (Rg.bits e)
  channels := Rg.channels e
  width := Rg.width e
  rest := restOf pat (Rg.table e) (wBits (Rg.bits e))

/-- The pattern table of a tile as numbers. -/
def Tile.pat (t : Tile) : List Nat := t.pattern.map (·.toNat)

/-- The position of a segment at a row and column. -/
def EyeSeg.at_ (g : EyeSeg) (row col : Nat) : Option EyePos :=
  if row < g.first then none else ((g.lines.getD (row - g.first) []).find? (fun p => decide (p.col = col)))

end Sys2Proof.Machine
end

