-- ==== Sys2Proof/Machine/Streams.lean ====
section
/-! DEFINITION. Streams: contexts, state areas, the stream descriptors, binding a RUN to its stream, the scale record
and the guard entry (R109 to R115, R148 to R156, R172 to R176, R190, R191, R204). -/

namespace Sys2Proof.Machine

/-! ### Context fields (R149 Table 1) -/

def Cx.layers : Nat := 0x14
def Cx.keyPeriod : Nat := 0x16
def Cx.keyCount : Nat := 0x18
def Cx.keyDensity : Nat := 0x1A
def Cx.pixfmt : Nat := 0x1B
def Cx.pixThresh : Nat := 0x1C
def Cx.width : Nat := 0x20
def Cx.height : Nat := 0x22
def Cx.frame : Nat := 0x28
def Cx.lastTime : Nat := 0x30
def Cx.accepted : Nat := 0x38
def Cx.completed : Nat := 0x40
def Cx.failed : Nat := 0x48
def Cx.keyframes : Nat := 0x50
def Cx.inflight : Nat := 0x58
def Cx.posPresent : Nat := 0x60
def Cx.chHeld : Nat := 0x68

/-- Whether a stream is held by a world: a closed stream belongs to none. -/
def State.streamOther (s : State) (st : Nat) (secure : Bool) : Bool :=
  decide (s.streamState st ≠ 0) && (s.streamSecure st != secure)

/-! ### Frames (R204) -/

/-- Bytes of a frame: planes in order, rows at their pitch, a multiple of 64; 0 for a reserved PIXFMT. A half-size plane
of an odd size takes its last row or column too (DEDUCED, log entry 19). -/
def frameBytes (fmt w h : Nat) : Nat :=
  let p := roundUp 64
  let w2 := (w + 1) / 2
  let h2 := (h + 1) / 2
  match fmt with
  | 1 => p w * h + p (2 * w2) * h2
  | 2 => p (2 * w) * h + p (4 * w2) * h2
  | 3 => p w * h + 2 * (p w2 * h2)
  | 4 => p (2 * w) * h + 2 * (p (2 * w2) * h2)
  | 5 => 3 * (p w * h)
  | 6 => 3 * (p (2 * w) * h)
  | 7 => p w * h
  | 8 => p (2 * w) * h
  | _ => 0

/-- The frame size a stream's context gives. -/
def State.streamFrame (s : State) (st : Nat) : Nat := frameBytes (s.ctx st Cx.pixfmt 1) (s.ctx st Cx.width 2) (s.ctx st Cx.height 2)

/-! ### State areas (R151, R152) -/

/-- The program of a generation, from its staged image. -/
def State.genProg (s : State) (g : Nat) : Prog :=
  match s.slotOf g with
  | some e => (s.img e.2.base).prog
  | none => []

/-- The state size a stream needs under a generation: SLOT_NEED's, and no less than the layout with the stream's own
frame (log entry 10). -/
def State.needFor (s : State) (g frame : Nat) : Nat :=
  let p := s.genProg g
  let l := (p.layout (if p.pixel then frame else 0)).2
  match s.slotOf g with
  | some e => max l e.2.need
  | none => l

/-- The 2 MiB units of a state size; at least one, so that STATE_BASE names an area (DEDUCED, log entry 19). -/
def stateUnits (need : Nat) : Nat := max 1 ((need + 0x1FFFFF) / 0x200000)

/-- The lowest-addressed run of `n` free units (R151). -/
def State.fitUnits (s : State) (secure : Bool) (n but : Nat) : Option Nat :=
  let (b, total) := s.deltaArea secure
  let runs := s.unitsHeld secure but
  (sortNat (b :: runs.map (·.2))).find? (fun a => decide (a + n * 0x200000 ≤ b + total * 0x200000) &&
    runs.all (fun r => decide (a + n * 0x200000 ≤ r.1) || decide (r.2 ≤ a)))

/-- A directory entry (R152 Table 2). -/
def dirBytes (e : DirEntry × Nat × Nat × Nat) (theta : Nat) : List Byte :=
  natLe 2 e.1.layer ++ natLe 1 e.1.kind ++ [0] ++ natLe 2 theta ++ [0, 0] ++ natLe 4 e.2.1 ++ natLe 4 e.2.2.1 ++
  natLe 4 e.2.2.2 ++ List.replicate 12 0

/-- The directory and the cleared state written for a stream at `base` (R152, R172). -/
def State.layOut (s : State) (base units : Nat) (p : Prog) (frame : Nat) (theta : Nat → Nat) : State :=
  let l := (p.layout frame).1
  ((s.healRange base (units * 0x200000)).clearMem base (base + units * 0x200000)).setMemBytes base (l.flatMap (fun e => dirBytes e (theta e.1.layer)))

/-- The directory entry of a LAYER in a stream's area: its address. -/
def State.dirOf (s : State) (st layer : Nat) : Option Nat :=
  ((List.range (s.ctx st Cx.layers 2)).map (fun k => s.ctx st Cx.base 8 + 32 * k)).find?
    (fun a => decide (s.memNat a 2 = layer))

/-- THRESH of a LAYER (R153). -/
def State.thetaOf (s : State) (st layer : Nat) : Nat :=
  match s.dirOf st layer with
  | some a => s.memNat (a + 4) 2
  | none => 0

/-- Addresses of a LAYER's scale record, pre-activations and codes; none where its KIND bit is clear. -/
def State.partOf (s : State) (st layer bit off : Nat) : Option Nat :=
  match s.dirOf st layer with
  | some a => if (s.memNat (a + 2) 1).testBit bit then some (s.ctx st Cx.base 8 + s.memNat (a + off) 4) else none
  | none => none
def State.scaleRec (s : State) (st layer : Nat) : Option Nat := s.partOf st layer 0 8
def State.preactAt (s : State) (st layer : Nat) : Option Nat := s.partOf st layer 1 0xC
def State.codesAt (s : State) (st layer : Nat) : Option Nat := s.partOf st layer 2 0x10
def State.pixelRef (s : State) (st : Nat) : Option Nat := s.partOf st 0xFFFF 3 0x10

/-- The guard entries of a stream set from AWL_CFG for the Awl slots of a generation, the others zero (R190). -/
def State.resetGuards (s : State) (st : Nat) (p : Prog) : State :=
  let cfg := s.reg (Off.awl 0)
  let e := natLe 1 (bitsAt cfg 0 4) ++ natLe 1 (bitsAt cfg 4 4) ++ natLe 1 (bitsAt cfg 8 5) ++ List.replicate 13 0
  s.fillMem (s.guardAddr st) ((List.range 64).flatMap (fun k =>
    if k < p.awlLayers.length then e else List.replicate 16 0))

/-- The guard entry of a stream for a LAYER of a program. -/
def State.guardOf (s : State) (st : Nat) (p : Prog) (layer : Nat) : Option Nat :=
  let k := p.awlLayers.findIdx (fun l => decide (l = layer))
  if k < p.awlLayers.length ∧ k < 64 then some (s.guardAddr st + 16 * k) else none

/-! ### STREAM_OPEN, STREAM_CLOSE, KEYFRAME (R172 to R174) -/

/-- A stream number and a generation that a stream descriptor names. -/
def Request.streamNo (q : Request) : Nat := bitsAt (q.fld 8 4) 0 18

/-- θ of a LAYER in a threshold table: the last entry that lists it (R153 is silent on a second one; DESIGN CHOICE, log entry 68). -/
def thetaIn (tab : List Nat) (layer : Nat) : Nat :=
  match (tab.filter (fun e => decide (bitsAt e 0 16 = layer))).getLast? with
  | some e => bitsAt e 16 12
  | none => 0

/-- The context of a stream just opened (R149, R172): tallies cleared, FRAME 0, KEY_PENDING set. -/
def openContext (q : Request) (base units layers : Nat) : List Byte :=
  natLe 4 (1 + 4 * q.secure.toNat + 8) ++ natLe 4 (q.fld 0x0C 4) ++ natLe 8 base ++ natLe 4 units ++
  natLe 2 layers ++ natLe 2 (q.fld 0x10 2) ++ natLe 2 0 ++ natLe 1 (q.fld 0x12 1) ++ natLe 1 (q.fld 0x13 1) ++
  natLe 2 (q.fld 0x18 2) ++ natLe 2 0 ++ natLe 2 (q.fld 0x14 2) ++ natLe 2 (q.fld 0x16 2) ++ List.replicate 92 0

/-- A stream leaves the context cache; the write-back changes no bit (R150). -/
def State.dropCtx (s : State) (st : Nat) : State :=
  { s with hbm := { s.hbm with ctxCache := s.hbm.ctxCache.filter (fun x => decide (x ≠ st)) } }

/-- DIGEST_A of a STREAM_OPEN (R330): over its body, the threshold entries that were read and AWL_CFG. -/
def State.openDigest (s : State) (q : Request) (entries : List Byte) : List Byte :=
  shake256 ((q.desc.drop 8).take 56 ++ entries ++ natLe 4 (s.reg (Off.awl 0)))

/-- STREAM_OPEN once nothing of the stream is in flight: units, directory, state, context and guards. -/
def State.openStream (s : State) (i : Nat) (q : Request) : State :=
  let st := q.streamNo
  let g := q.fld 0x0C 4
  let frame := frameBytes (q.fld 0x13 1) (q.fld 0x14 2) (q.fld 0x16 2)
  let p := s.genProg g
  let frame := if p.pixel then frame else 0
  let n := stateUnits (s.needFor g frame)
  let keep := decide (s.streamState st = 1) && decide (n ≤ s.ctx st Cx.units 4)
  match s.readRange q.secure false (q.fld 0x20 8) (4 * q.fld 0x1A 2) with
  | (s, _, .refused x a) => s.stopMove i 0 x a
  | (_, _, .waits) => s
  | (s1, bs, .none) =>
    let s1 := s1.updReq i (fun r => { r with digestA := s1.openDigest q bs })
    match if keep then some (s.ctx st Cx.base 8) else s.fitUnits q.secure n st with
    | none => s1.notReady i q 0 0
    | some base =>
      let units := if keep then s.ctx st Cx.units 4 else n
      let s := s1.layOut base units p frame (thetaIn (wordsOf 4 bs))
      let s := s.fillMem (s.ctxAddr st) (openContext q base units (p.directory frame).length)
      let dig := match s.slotOf g with
        | some e => e.2.passDigest
        | none => []
      let s := s.updReq i (fun r => { r with
        gen := g
        digestB := dig })
      (s.resetGuards st p).finishOk i units

/-- STREAM_OPEN (R172). -/
def execStreamOpen (req : Nat) (s : State) : Host.Outcome State Fault Refusal :=
  answer s (s.working req Dop.streamOpen (fun s q =>
    let st := q.streamNo
    let g := q.fld 0x0C 4
    if s.streamOther st q.secure then s.failReq req .faultWorld .world id
    else match s.slotOf g with
      | none => s.failReq req .faultPassGeneration .generation (fun e => e.details g 0)
      | some e =>
        if e.2.secure ≠ q.secure then s.failReq req .faultWorld .world id
        else if g = 0 then s.failReq req .faultPassGeneration .generation (fun x => x.details g 0)
        else if s.streamState st = 2 ∨ (s.streamState st = 1 ∧ s.ctx st Cx.inflight 4 ≠ 0) then s.begin_ req
        else s.openStream req q))

/-- The context and the guard entries of a stream read from HBM where the cache does not hold them (R150, R246): the changed units met, and
the first poisoned one. -/
def State.readContext (s : State) (st : Nat) : State × Option Nat :=
  if s.hbm.ctxCache.contains st then (s, none)
  else s.ownReads [(s.ctxAddr st, 128), (s.guardAddr st, 1024)]

/-- `f` applied once a stream's context has been read; a poisoned one ends the request with FAULT_UNCORRECTED (R246). -/
def State.withContext (s : State) (i st : Nat) (f : State → State) : State :=
  match s.readContext st with
  | (t, some a) => t.failAccess i .faultUncorrected a
  | (t, none) => f t

/-- STREAM_CLOSE (R173): closing, then, with nothing in flight, its units free and its state closed. -/
def execStreamClose (req : Nat) (s : State) : Host.Outcome State Fault Refusal :=
  answer s (s.working req Dop.streamClose (fun s q =>
    let st := q.streamNo
    if s.streamState st = 0 then s.finishOk req 0
    else if s.streamSecure st ≠ q.secure then s.failReq req .faultWorld .world id
    else if s.streamState st = 2 ∧ q.phase = .accepted then s
    else s.withContext req st (fun s =>
      let s := (s.setStreamState st 2).begin_ req
      if s.ctx st Cx.inflight 4 ≠ 0 then s
      else
        let units := s.ctx st Cx.units 4
        let s := (((s.setCtx st Cx.generation 4 0).setCtx st Cx.base 8 0).setCtx st Cx.units 4 0).dropCtx st
        ((s.setStreamState st 0).setKeyPending st false).finishOk req units)))

/-- KEY_PENDING set by something newer than the RUNs in flight: their completion leaves it set (R174, R176). -/
def State.demandKey (s : State) (st : Nat) : State :=
  let s := s.setKeyPending st true
  { s with reqs := s.reqs.map (fun e => if e.2.stream = some st then (e.1, { e.2 with keepKey := true }) else e) }

/-- KEYFRAME (R174). -/
def execKeyframe (req : Nat) (s : State) : Host.Outcome State Fault Refusal :=
  answer s (s.working req Dop.keyframe (fun s q =>
    let st := q.streamNo
    if s.streamOther st q.secure then s.failReq req .faultWorld .world id
    else if s.streamState st ≠ 1 then s.notReady req q 0 0
    else s.withContext req st (fun s => (s.demandKey st).finishOk req (s.ctx st Cx.frame 8 % 2 ^ 32))))

/-! ### Binding a RUN to its stream (R150, R155, R175) -/

/-- The context cache of the causeways: eight ways in 512 sets of each (R150). The set and the way replaced are the
model's choice (log entry 20). -/
def State.touchCtx (s : State) (st : Nat) : State :=
  let l := s.hbm.ctxCache
  if l.contains st then
    ({ s with hbm := { s.hbm with ctxCache := st :: l.filter (fun x => decide (x ≠ st)) } }).tally (Off.stream 0x30) 1
  else
    let same := l.filter (fun x => decide (x % 2048 = st % 2048))
    let out := if 8 ≤ same.length then same.getLast? else none
    ({ s with hbm := { s.hbm with ctxCache := st :: l.filter (fun x => decide (some x ≠ out)) } }).tally (Off.stream 0x34) 1

/-- Whether a RUN accepted now is a keyframe (R155). -/
def State.keyNow (s : State) (st : Nat) (moves : Bool) : Bool :=
  s.keyPending st || decide (s.ctx st Cx.keyPeriod 2 + 1 ≤ s.ctx st Cx.keyCount 2 + 1) || moves

/-- A RUN takes its frame of an open stream of its world (R155, R175). The move of a stream sets GENERATION here; its
directory is laid out when the RUN starts, or ends without having started, after the stream's earlier frames (DEDUCED, log entry 19).
REQ_DRIFT_CFG acts from this boundary on (R116). -/
def State.takeFrame (s : State) (i : Nat) (q : Request) (st : Nat) : State :=
  let old := s.ctx st Cx.generation 4
  let moves := decide (old ≠ q.gen)
  let key := s.keyNow st moves
  let f := s.ctx st Cx.frame 8
  let s := s.touchCtx st
  let s := (s.setCtx st Cx.frame 8 (f + 1)).tallyCtx st Cx.accepted 1
  let s := s.setCtx st Cx.inflight 4 (s.ctx st Cx.inflight 4 + 1)
  let s := if key then s.tallyCtx st Cx.keyframes 1 else s
  let s := if moves then s.setCtx st Cx.generation 4 q.gen else s
  s.updReq i (fun r => { r with stream := some st, frame := f, key := key, moved := moves, fromGen := old, driftCfg := s.reg Off.reqDriftCfg })

/-- Whether a stream's area is large enough for a generation (R175). -/
def State.areaHolds (s : State) (st g : Nat) : Bool :=
  decide (s.needFor g (s.streamFrame st) ≤ s.ctx st Cx.units 4 * 0x200000)

/-- The directory of a stream laid out for a generation it moves to: θ kept for each LAYER present in both, scale
histories emptied, guard entries reset (R175, R190). -/
def State.moveStream (s : State) (st g : Nat) : State :=
  let p := s.genProg g
  let frame := if p.pixel then s.streamFrame st else 0
  let old := fun (l : Nat) => s.thetaOf st l
  let s1 := s.layOut (s.ctx st Cx.base 8) (s.ctx st Cx.units 4) p frame old
  (s1.setCtx st Cx.layers 2 (p.directory frame).length).resetGuards st p

/-! ### The scale record (R109, R111, R113 Table 4) -/

def Srec.frame : Nat := 0x04
def Srec.head : Nat := 0x08
def Srec.fill : Nat := 0x09
def Srec.run : Nat := 0x0A
def Srec.flags : Nat := 0x0B
def Srec.values : Nat := 0x10
def Srec.clipLo : Nat := 0x18
def Srec.clipHi : Nat := 0x1C
def Srec.history : Nat := 0x40

/-- The largest magnitude of the last WINDOW + 1 frame indices of a record (R109). -/
def State.windowMax (s : State) (a window : Nat) : Nat :=
  let head := s.memNat (a + Srec.head) 1
  ((List.range (window + 1)).map (fun k => s.memNat (a + Srec.history + 8 * ((head + 63 - k) % 64)) 8)).foldl max 0

/-- The history slot of a frame index written and HEAD advanced (R109). -/
def State.nextHistory (s : State) (a mag : Nat) : State :=
  let head := s.memNat (a + Srec.head) 1 % 64
  let s := s.setMemNat (a + Srec.history + 8 * head) 8 (min mag (2 ^ 63 - 1))
  s.setMemNat (a + Srec.head) 1 ((head + 1) % 64)

/-- A frame recorded: FILL counts it (R113). -/
def State.pushHistory (s : State) (a mag : Nat) : State :=
  (s.nextHistory a mag).setMemNat (a + Srec.fill) 1 (min 64 (s.memNat (a + Srec.fill) 1 + 1))

/-- A frame that ended with a fault takes its place in the window and is not recorded (R109, R176). -/
def State.skipHistory (s : State) (a : Nat) : State := s.nextHistory a 0

/-- A value under a LAYER in a request's list, and the list with it changed. -/
def layerGet (l : List (Nat × Nat)) (k : Nat) : Nat :=
  match l.find? (fun e => decide (e.1 = k)) with
  | some e => e.2
  | none => 0
def layerPut (l : List (Nat × Nat)) (k v : Nat) : List (Nat × Nat) := (k, v) :: l.filter (fun e => decide (e.1 ≠ k))

/-- REQUANT steps a LAYER has in the program, over all tiles. -/
def Prog.requantCount (p : Prog) (layer : Nat) : Nat :=
  (p.all.filter (fun x => decide (Step.opcode x.2.2 = Op.requant) && decide (Step.layer x.2.2 = layer))).length

/-- REQUANT steps a request has completed in a LAYER, and the tile of the last. -/
def Request.requantsDone (q : Request) (layer : Nat) : Nat × Nat :=
  match q.rqDone.find? (fun x => decide (x.1 = layer)) with
  | some x => x.2
  | none => (0, 0)

/-- CALIBRATION_DRIFT is posted where R115 says. -/
def State.judgeDrift (s : State) (a st layer : Nat) (q : Request) (tile : Nat) : State :=
  let cfg := q.driftCfg
  let v := s.memNat (a + Srec.values) 8
  let lo := s.memNat (a + Srec.clipLo) 4
  let hi := s.memNat (a + Srec.clipHi) 4
  if v = 0 then s
  else
    let exceeds := decide (v < (lo + hi) * 2 ^ bitsAt cfg 0 5)
    let run := s.memNat (a + Srec.run) 1
    let fl := s.memNat (a + Srec.flags) 1
    let s := s.setMemNat (a + Srec.run) 1 (if exceeds then min 255 (run + 1) else 0)
    let fl := if exceeds then fl else putBit fl 0 false
    let s := s.setMemNat (a + Srec.flags) 1 fl
    if bitsAt cfg 8 8 ≤ s.memNat (a + Srec.run) 1 ∧ cfg.testBit 16 ∧ fl.testBit 0 = false then
      ((s.setMemNat (a + Srec.flags) 1 (putBit fl 0 true)).tally (Off.tile tile 0x418) 1).postEvent [worldNum q.secure]
        Ev.calibrationDrift 0 0 (padTo 16 (Config.packEvent Ev.calibrationDrift [st, layer, q.frame, lo, hi, v]))
    else s

/-- The guard entry of a LAYER takes the frame's audits and misses (R191). -/
def State.judgeGuard (s : State) (a st layer frame audited misses world : Nat) : State :=
  let aud := s.memNat (a + 4) 4 + audited
  let mis := s.memNat (a + 8) 4 + misses
  let lim := s.memNat (a + 2) 1
  if aud < 2 ^ lim then (s.setMemNat (a + 4) 4 aud).setMemNat (a + 8) 4 mis
  else
    let s0 := (s.setMemNat (a + 4) 4 0).setMemNat (a + 8) 4 0
    if aud < mis * 2 ^ lim then
      let g := s.memNat a 1
      let g2 := min 15 (g + 1)
      let s1 := s0.setMemNat a 1 g2
      if (s.reg (Off.awl 0)).testBit 16 then
        (s1.tally (Off.awl 0x10) 1).postEvent [world] Ev.awlMissRate 0 0
          (padTo 16 (Config.packEvent Ev.awlMissRate [st, layer, frame, aud, mis, g2, (decide (g2 = 15) : Bool).toNat]))
      else s1
    else s0

end Sys2Proof.Machine
end

