-- ==== Sys2Proof/Machine/Scale.lean ====
section
/-! DEFINITION. The requantiser's arithmetic (R100), the scale in force (R107 to R112), the bound threshold (R106). -/

namespace Sys2Proof.Machine

/-- A multiplier and a shift. -/
structure Scale where
  m : Nat
  s : Nat
  source : Nat
deriving DecidableEq, Repr

/-- The rescaled value of x: x·M/2^s rounded half to even (R100, R101). -/
def rescale (sc : Scale) (x : Int) : Int := divRoundEven (x * sc.m) (2 ^ sc.s)

/-- The code of a clipped value: the thresholds at or below it (R100). -/
def codeOf (pat : List Nat) (tab top : Nat) (v : Int) : Nat :=
  ((List.range top).filter (fun i => decide (Pt.thresh pat tab (i + 1) ≤ v))).length

/-- R100: the code of x, and whether it was clipped low or high. `e` is the scale entry. -/
def requantOne (pat : List Nat) (tab e : Nat) (sc : Scale) (x : Int) : Nat × Bool × Bool :=
  let top := topOf (Sc.bits e)
  let v := rescale sc x + Sc.offset e
  let v := if Sc.relu e then max v 0 else v
  let lo := Pt.level pat tab 0
  let hi := Pt.level pat tab top
  (codeOf pat tab top (clampInt lo hi v), decide (v < lo), decide (hi < v))

/-- The compiled scale of an entry. -/
def Sc.fixed (e : Nat) : Scale := ⟨Sc.mult e, Sc.shift e, 0⟩

/-- The largest s of at most `k` with floor(T·2^s/m) ≤ 2^24 − 1, and that multiplier (R107). -/
def deriveFrom (t m : Nat) : Nat → Nat × Nat
  | 0 => (min (2 ^ 24 - 1) (t / m), 0)
  | k + 1 => if t * 2 ^ (k + 1) / m ≤ 2 ^ 24 - 1 then (t * 2 ^ (k + 1) / m, k + 1) else deriveFrom t m k

/-- The scale of a magnitude (R107): the compiled one for magnitude 0. -/
def deriveScale (pat : List Nat) (tab e mag source : Nat) : Scale :=
  if mag = 0 then Sc.fixed e
  else
    let r := deriveFrom (Sc.target pat tab e).toNat (min mag (2 ^ 63 - 1)) 63
    ⟨max 1 r.1, r.2, source⟩

/-- The magnitude of a value (R107). -/
def magOf (e : Nat) (x : Int) : Nat := min (2 ^ 63 - 1) (if Sc.relu e then (max x 0).toNat else x.natAbs)

/-- The scale in force of a FIXED or STREAM entry for a request and LAYER (R109, R111, R112). -/
def State.scaleFor (s : State) (q : Request) (pat : List Nat) (tab e layer : Nat) (delta : Bool) : Scale :=
  match q.stream with
  | none => Sc.fixed e
  | some st =>
    if Sc.smode e ≠ 2 then Sc.fixed e
    else match s.scaleRec st layer with
      | none => Sc.fixed e
      | some a =>
        if delta && !q.key then
          let w := s.memNat a 4
          ⟨bitsAt w 0 24, bitsAt w 24 6, bitsAt w 30 2⟩
        else deriveScale pat tab e (s.windowMax a (Sc.window e)) 2

/-- The largest x of the 32-bit range from `lo` on, in steps of falling powers of two, that satisfies a falling test. -/
def climb (f : Int → Bool) (lo : Int) : Nat → Int
  | 0 => lo
  | k + 1 => if lo + 2 ^ k ≤ 2 ^ 31 - 1 ∧ f (lo + 2 ^ k) = true then climb f (lo + 2 ^ k) k else climb f lo k

/-- T_b (R106): the largest x of the 32-bit signed range whose code is 0. -/
def boundOf (pat : List Nat) (tab e : Nat) (sc : Scale) : Int :=
  climb (fun x => decide ((requantOne pat tab e sc x).1 = 0)) (-(2 ^ 31)) 32

/-- The REQUANT whose scale bounds a predicting CIM step (R61, R196): of the LAYER, reading the step's DST; else the
first of the LAYER, where the spec names none (DESIGN CHOICE, log entry 68). -/
def Prog.boundStep (p : Prog) (w : Nat) : Option (Nat × Nat × Nat) :=
  let l := p.all.filter (fun x => decide (Step.opcode x.2.2 = Op.requant) && decide (Step.layer x.2.2 = Step.layer w))
  (l.find? (fun x => decide (Step.src x.2.2 = Step.dst w))).or l.head?

/-- The pattern tables and the scale entries step `i` of a tile has for a request, whatever the tile holds now: behind the f-th SEAM flag of
a rotating tile those of the rotation that carries it (R30), else the tile's own. -/
def State.tablesAt (s : State) (q : Request) (n i : Nat) : List Nat × List Nat :=
  let t := s.tile n
  let held := (t.pat, t.scales.map (·.toNat))
  match s.slotOf q.gen with
  | none => held
  | some (_, p) =>
    let count := (p.sections.filter (fun x => decide (x.typ = 7) && decide (x.tile = n))).length
    let f := ((t.steps.take (i + 1)).filter (fun w => Step.seam w.toNat)).length
    if p.rotating.contains n = false ∨ count = 0 ∨ f = 0 then held
    else
      let bytes := fun (spill own : Nat) => match (findSec p.sections spill n ((f - 1) % count)).or (findSec p.sections own n 0) with
        | some x => s.secBytes p.base x
        | none => []
      (wordsOf 4 (bytes 8 2), wordsOf 8 (bytes 9 6))

/-- T_b of a predicting step for a request, from the tables its REQUANT has for that request (R61, R106). -/
def State.bound (s : State) (q : Request) (w : Nat) : Int :=
  match s.prog.boundStep w with
  | none => -(2 ^ 31)
  | some (n, i, v) =>
    let (pat, scales) := s.tablesAt q n i
    let e := scales.getD (Step.scale v) 0
    boundOf pat (Step.ptab v) e (s.scaleFor q pat (Step.ptab v) e (Step.layer v) (Step.delta v))

end Sys2Proof.Machine
end

