-- ==== Sys2Proof/Machine/Ledger.lean ====
section
/-! DEFINITION. The ledger (R74 to R79, R83, R87, R491): slots, additions, completion and consumption. -/

namespace Sys2Proof.Machine

/-- A range's plan entry, slot size and first entry of the slot of a position. -/
def State.slotSize (s : State) (h : Nat) : Nat := s.prog.rangeB 64 h
def State.slotIndex (s : State) (h p : Nat) : Nat := p % Rg.depth (s.entryOf h)
def State.slotFirst (s : State) (h p : Nat) : Nat := Rg.lbase (s.entryOf h) + s.slotIndex h p * s.slotSize h

/-- How many positions of a range a request has consumed. -/
def Tile.consumedOf (t : Tile) (i region : Nat) : Nat :=
  match t.consumed.find? (fun x => decide (x.1 = i) && decide (x.2.1 = region)) with
  | some x => x.2.2
  | none => 0

/-- One more position of a range consumed. -/
def Tile.consumeOne (t : Tile) (i region : Nat) : Tile :=
  { t with consumed := (i, region, t.consumedOf i region + 1) ::
      t.consumed.filter (fun x => !(decide (x.1 = i) && decide (x.2.1 = region))) }

/-- The open slot of a position of a range for a request. -/
def Tile.slot? (t : Tile) (region i p : Nat) : Option Slot :=
  t.slots.find? (fun x => decide (x.region = region) && decide (x.req = i) && decide (x.position = p))

/-- Whether a slot may open for a position (R78): its place is free, no earlier position of the request that would take
the place is unconsumed, and no earlier request of the tile has positions of the range left. -/
def State.mayOpen (s : State) (h i p : Nat) : Bool :=
  let n := hTile h
  let t := s.tile n
  let d := Rg.depth (s.entryOf h)
  let c := t.consumedOf i (hIdx h)
  let place := !t.slots.any (fun x => decide (x.region = hIdx h) && decide (x.index = p % d))
  match s.prog.positions 64 h with
  | some l =>
    place && (l.drop c).all (fun p2 => decide (p2 % d ≠ p % d) || decide (p ≤ p2)) &&
    (t.queue.takeWhile (fun j => decide (j ≠ i))).all (fun j => decide (l.length ≤ t.consumedOf j (hIdx h)))
  | none => place && decide (p < c + d)

/-- A slot opened (R78). -/
def State.openSlot (s : State) (h i p : Nat) : State :=
  let n := hTile h
  let x : Slot := { region := hIdx h, index := s.slotIndex h p, position := p, req := i, terms := 0, finals := 0,
                    imported := false, first := s.slotFirst h p, size := s.slotSize h }
  ((s.updTile n (fun t => { t with slots := t.slots ++ [x] })).tally (Off.tile n 0x308) 1).tally (Off.tile n 0x314) 1

/-- A request ended with FAULT_SEAM on a tile (R494). -/
def State.seamEnd (s : State) (n i layer : Nat) (reason : Reason) (d0 d1 : Nat) : State :=
  s.failReq i .faultSeam reason (fun e => { (e.unit 1 n).details d0 d1 with layer := layer })

/-- A request ended with FAULT_SEAM on a tile, counted (R83, R87). -/
def State.seamFault (s : State) (n i layer : Nat) (reason : Reason) (d0 d1 : Nat) : State :=
  match s.req? i with
  | some q =>
    if q.phase = .finished then s
    else (s.tally (Off.tile n 0x304) 1).failReq i .faultSeam reason (fun e => { (e.unit 1 n).details d0 d1 with layer := layer })
  | none => s

/-- Whether a range collects FP32 values (R81): the COLLECT that reads it has FLOAT set. -/
def Prog.floatRange (p : Prog) (h : Nat) : Bool :=
  p.all.any (fun x => decide (Step.opcode x.2.2 = Op.collect) && decide (Step.src x.2.2 = h) && Col.float x.2.2)

/-- A value added into a ledger entry, 80-bit, or an FP32 value under FLOAT, whose pattern stands in the low 32 bits of the entry with
zeros above (R81 gives no place: DESIGN CHOICE, log entry 68); a free entry becomes valid with the tag (R74, R81). -/
def ledgerAdd (float : Bool) (l : Tbl LedgerEntry) (tag : Nat) (k : Nat) (v : Int) : Tbl LedgerEntry :=
  match tget l k with
  | some e =>
    if float then sins k { e with value := BitVec.ofNat 80 (fadd (e.value.toNat % 2 ^ 32) (twos 32 v)) } l
    else sins k { e with value := e.value + BitVec.ofInt 80 v } l
  | none => sins k { value := if float then BitVec.ofNat 80 (twos 32 v) else BitVec.ofInt 80 v, tag := tag } l

/-- The first of some entries whose valid tag differs (R87): entry and tag held. -/
def tagClash (l : Tbl LedgerEntry) (tag : Nat) (ks : List Nat) : Option (Nat × Nat) :=
  ks.findSome? (fun k => match tget l k with
    | some e => if e.tag = tag then none else some (k, e.tag)
    | none => none)

/-- An addition to the slot of a position: values by their place in the slot, terms, and final drains counted in entries.
None when the slot cannot open yet; an addition refused by its tag or its terms ends the request (R83, R87). -/
def State.addSlot (s : State) (h i layer p tag terms finals : Nat) (vals : List (Nat × Int)) : Option State :=
  let n := hTile h
  let open? := (s.tile n).slot? (hIdx h) i p
  if open?.isNone ∧ s.mayOpen h i p = false then none
  else
    let s := if open?.isNone then s.openSlot h i p else s
    let t := s.tile n
    match t.slot? (hIdx h) i p with
    | none => none
    | some x =>
      if 2 ^ 40 - 1 < x.terms + terms then some (s.seamFault n i layer .terms 0 0)
      else match tagClash t.ledger tag (vals.map (fun v => x.first + v.1)) with
        | some (k, held) => some (s.seamFault n i layer .seam k (held + 256 * tag))
        | none =>
          let led := vals.foldl (fun l v => ledgerAdd (s.prog.floatRange h) l tag (x.first + v.1) v.2) t.ledger
          let x2 := { x with terms := x.terms + terms, finals := x.finals + finals }
          some (s.setTile n { t with ledger := led, slots := t.slots.map (fun y => if y = x then x2 else y) })

/-- The places in a slot of the outputs of one macro: block k/S of a step with `o` outputs per macro (R76). -/
def macroPlaces (block : Nat) (vals : List Int) : List (Nat × Int) :=
  vals.zipIdx.map (fun v => (block * vals.length + v.2, v.1))

/-- The next position a request consumes of a range (R491). -/
def State.nextPosition (s : State) (h i : Nat) : Option Nat := s.prog.position h ((s.tile (hTile h)).consumedOf i (hIdx h))

/-- Whether a slot is complete (R78): the final drains of every slice of every block from each contributing step, counted
in entries. -/
def State.slotComplete (s : State) (h : Nat) (x : Slot) : Bool :=
  decide (s.prog.contributors h * (s.slotSize h * Rg.slices (s.entryOf h)) ≤ x.finals)

/-- The complete slot of the next position of a range, with its values in entry order. -/
def State.readySlot (s : State) (h i : Nat) : Option Slot :=
  match s.nextPosition h i with
  | none => none
  | some p =>
    match (s.tile (hTile h)).slot? (hIdx h) i p with
    | some x => if s.slotComplete h x then some x else none
    | none => none

/-- The entries of a slot; an entry nothing was added to reads 0 under `dflt`. -/
def Tile.slotEntries (t : Tile) (x : Slot) (dflt : Nat) : List LedgerEntry :=
  (List.range x.size).map (fun k => (tget t.ledger (x.first + k)).getD { value := 0, tag := dflt })

/-- A slot consumed: its entries, valid bits and TERMS cleared (R78). -/
def State.consumeSlot (s : State) (h i : Nat) (x : Slot) : State :=
  let n := hTile h
  ((s.updTile n (fun t =>
      { t with
        ledger := t.ledger.filter (fun e => decide (e.1 < x.first) || decide (x.first + x.size ≤ e.1))
        slots := t.slots.filter (fun y => decide (y ≠ x)) } |>.consumeOne i (hIdx h))).tally (Off.tile n 0x30C) 1).untally
    (Off.tile n 0x314) 1

/-- The first entry of a slot whose tag is not the one a reading step expects (R87). -/
def wrongTag (x : Slot) (es : List LedgerEntry) (tag : Nat) : Option (Nat × Nat) :=
  (es.zipIdx.find? (fun e => decide (e.1.tag ≠ tag))).map (fun e => (x.first + e.2, e.1.tag))

/-- What a consumer finds at the next position of a range: nothing complete, an entry of another tag (the request has
ended), or the entries, their slot consumed. -/
inductive Took where
  | wait
  | bad (s : State)
  | got (s : State) (x : Slot) (es : List LedgerEntry)

/-- The next complete slot of a range taken by a step that expects a tag; no tag: that of the first entry it reads (R78,
R87). -/
def State.takeSlot (s : State) (h i layer : Nat) (expect : Option Nat) : Took :=
  match s.readySlot h i with
  | none => .wait
  | some x =>
    let es := (s.tile (hTile h)).slotEntries x (expect.getD 0)
    let tag := expect.getD ((es.head?.map (·.tag)).getD 0)
    match wrongTag x es tag with
    | some (k, held) => .bad (s.seamFault (hTile h) i layer .seam k (held + 256 * tag))
    | none => .got (s.consumeSlot h i x) x es

/-- Whether the request a packet on the mesh was sent for is still in flight and has not ended: an index is used again, an order of
acceptance is not. -/
def State.liveAs (s : State) (i ord : Nat) : Bool :=
  match s.req? i with
  | some q => decide (q.phase ≠ .finished) && decide (q.order = ord)
  | none => false

/-- A drain from another tile arrives (R77): added, discarded as late, or waiting for its slot. One that its tag or its TERMS keep out of
the entry has ended its request and counts as taken here, so that the balance of R79 holds (DESIGN CHOICE, log entry 68). -/
def State.arriveDrain (s : State) (d : Drain) : Option State :=
  if !s.liveAs d.req d.ord then some (s.tally (Off.tile d.dst 0x318) 1)
  else
    match s.addSlot (64 * d.dst + d.region) d.req d.layer d.position d.tag d.terms
        (if d.final then d.values.length + d.slice else 0) (macroPlaces d.block d.values) with
    | none => none
    | some t => some (t.tally (Off.tile d.dst 0x32C) 1)

/-- A drain sent over the mesh (R77); none while it waits at its sender (R493). -/
def State.sendDrain (s : State) (d : Drain) : Option State :=
  if s.drainHeld d then none
  else some (({ s with mesh := { s.mesh with drains := s.mesh.drains ++ [d] } }).tally (Off.tile d.src 0x328) 1)

/-- REMOTE_DRAIN_ARRIVAL (R77, R79): the first drain bound for the tile that its ledger can take.
`stalls` are the arithmetic cycles it waits for an entry that was updated in the same cycle (log entry 13). -/
def execRemoteDrainArrival (tile stalls : Nat) (s : State) : Host.Outcome State Fault Refusal :=
  answer s (
    let l := s.mesh.drains
    match l.find? (fun d => decide (d.dst = tile) && (s.arriveDrain d).isSome) with
    | none => s
    | some d =>
      match (s.wakeTile tile).arriveDrain d with
      | none => s
      | some t => ({ t with mesh := { t.mesh with drains := l.erase d } }).tally (Off.tile tile 0x31C) stalls)

end Sys2Proof.Machine
end

