-- ==== Sys2Proof/Machine/Seq.lean ====
section
/-! DEFINITION. A tile's sequencer (R32, R33, R50, R85, R110, R154, R156, R226 to R230, R315, R449): issuing a step, its
scoreboard entries, its completion and its markers, WAIT_RANGE, SEAM and END, and circular regions. -/

namespace Sys2Proof.Machine

/-! ### The next step -/

/-- The request in front of a tile and its next step. -/
def State.frontStep (s : State) (n : Nat) : Option (Nat × Request × Nat) :=
  let t := s.tile n
  match t.queue with
  | [] => none
  | i :: _ =>
    match s.req? i, t.steps[t.pc]? with
    | some q, some w => if q.phase = .running then some (i, q, w.toNat) else none
    | _, _ => none

/-- The class map a predicting step reads: the DST of its paired AWL_SCAN (R179). -/
def Tile.classMap (t : Tile) (idx w : Nat) : List Nat :=
  if Step.isCim w ∧ Step.predict w = 2 then
    match awlPair ((t.steps.take idx).map (·.toNat)) w with
    | some v => [Step.dst v]
    | none => []
  else []

/-- The scoreboard entries a step needs: one for each LINEAR, WSTAGE or EYELET region of its own tile that it names
(R226). -/
def State.sbNeeds (s : State) (n i idx w : Nat) : List SbEntry :=
  let t := s.tile n
  let rd := Step.reads w ++ t.classMap idx w
  let wr := Step.writes w
  ((rd ++ wr).eraseDups.filter (fun h => decide (hTile h = n) && [1, 2, 4].contains (Rg.kind (t.entry (hIdx h))))).map
    (fun h => let e := t.entry (hIdx h)
      { step := idx, req := i, lo := Rg.lo e, hi := Rg.hi e, reads := rd.contains h, writes := wr.contains h })

/-- Whether a new entry must wait for an entry held (R227). -/
def SbEntry.waitsFor (x y : SbEntry) : Bool :=
  decide (x.lo < y.hi) && decide (y.lo < x.hi) && ((x.reads && y.writes) || (x.writes && (y.reads || y.writes)))

/-- Whether the scoreboard lets a step issue (R227). -/
def State.sbFree (s : State) (n i idx w : Nat) : Bool :=
  let l := s.sbNeeds n i idx w
  decide ((s.tile n).sb.length + l.length ≤ 16) && l.all (fun x => !(s.tile n).sb.any (fun y => x.waitsFor y))

/-- How many steps a LAYER has over all tiles; END has none (R32). -/
def Prog.layerSteps (p : Prog) (layer : Nat) : Nat :=
  (p.all.filter (fun x => decide (Step.opcode x.2.2 ≠ Op.end_) && decide (Step.layer x.2.2 = layer))).length

/-- The LAYERs whose steps of the frame before must have completed: that of a DELTA step, every LAYER with a pixel kernel
for a pixel kernel (R154). -/
def Prog.orderedLayers (p : Prog) (w : Nat) : List Nat :=
  if Step.isPixel w then (p.all.filter (fun x => Step.isPixel x.2.2)).map (fun x => Step.layer x.2.2)
  else if Step.delta w then [Step.layer w] else []

/-- Whether an earlier frame of a stream is far enough for a step (R110, R154); END belongs to no LAYER. -/
def Request.frameDone (q : Request) (p : Prog) (w : Nat) : Bool :=
  (decide (q.phase = .finished) && q.status.isOk) ||
  decide (Step.opcode w = Op.end_) ||
  ((decide (p.requantCount (Step.layer w) = 0) || q.scaleDone.contains (Step.layer w)) &&
   (p.orderedLayers w).all (fun l => decide (p.layerSteps l ≤ layerGet q.layerDone l)))

/-- Whether a step waits for the scale record of an earlier frame of its stream (R110). -/
def State.scaleWaits (s : State) (q : Request) (w : Nat) : Bool :=
  q.stream.isSome && decide (Step.opcode w ≠ Op.end_) && decide (0 < s.prog.requantCount (Step.layer w)) &&
  s.reqs.any (fun e => decide (e.2.stream = q.stream) && decide (e.2.order < q.order) &&
    !(decide (e.2.phase = .finished) && e.2.status.isOk) && !e.2.scaleDone.contains (Step.layer w))

/-- Whether the frames of the stream before a request let its step issue. -/
def State.frameGate (s : State) (q : Request) (w : Nat) : Bool :=
  match q.stream with
  | none => true
  | some st => s.reqs.all (fun e => decide (e.2.stream ≠ some st) || decide (q.order ≤ e.2.order) || e.2.frameDone s.prog w)

/-- Whether the keyframe decision of the pixel compare is still open (R156). -/
def State.keyOpen (s : State) (q : Request) (w : Nat) : Bool :=
  match q.stream with
  | none => false
  | some st => !Step.isPixel w && s.prog.pixel && !q.key && decide (s.ctx st Cx.keyDensity 1 ≠ 0) && decide (q.aux = 0)

/-- Whether a region change keeps part of the array's scratchpads closed (R416): the accesses of its steps wait. -/
def State.arrayClosed (s : State) : Bool := !s.sec.change.isEmpty && s.activeUse.any (fun n => s.closedByChange (spBase n))

/-- Whether a tile issues steps now (R315, R388, R416, R442, R448): awake, not under test, not parking; a retired tile only goes on with the
list it is in, until its seam. -/
def State.issues (s : State) (n : Nat) : Bool :=
  let t := s.tile n
  decide (s.parkState = 0) && decide (s.sleep.pkg = .awake) && decide (t.sleep = .awake) && !t.testing && !s.arrayClosed &&
  (!s.power.floor || decide (n / 16 = s.power.floorGroup)) &&
  (!t.retired || decide (t.pc ≠ 0))

/-- Whether the SEAM flag lets a step issue (R30, R493): its tile is at a seam, and a rotating tile has taken the rotation it needs. -/
def State.seamFlagOk (s : State) (n i w : Nat) : Bool :=
  !Step.seam w || (s.atSeam n &&
    (!(s.activePass.map (fun p => p.rotating.contains n)).getD false || (s.tile n).rotReady.contains i))

/-- Everything that may hold a step back but its macros' retirement. -/
def State.mayIssue (s : State) (n i : Nat) (q : Request) (w : Nat) : Bool :=
  s.issues n && s.seamFlagOk n i w && s.sbFree n i (s.tile n).pc w && s.frameGate q w && !s.keyOpen q w &&
  (!Step.isCim w || (Step.macros w).all (fun m => decide ((s.mac n m).step = none)))

/-- The step issued: it runs, holds its scoreboard entries and, a CIM step, its macros. `waits` are the fabric cycles it
waited (R227; log entry 13). -/
def State.issueStep (s : State) (n i w waits : Nat) : State :=
  let t := s.tile n
  let s1 := s.setTile n { t with
    pc := t.pc + 1
    running := t.running ++ [{ idx := t.pc, req := i, word := BitVec.ofNat 256 w, next := 0, aux := 0, finished := false }]
    sb := t.sb ++ s.sbNeeds n i t.pc w
    rotReady := if Step.seam w then t.rotReady.filter (fun x => decide (x ≠ i)) else t.rotReady }
  let s1 := if Step.isCim w then
    (Step.macros w).foldl (fun s m => s.updMac n m (fun x => { x with
      step := some t.pc, workReq := i, position := 0, inv := 0, count := 0, termsK := 0 })) s1 else s1
  (((if Step.vary w then s1.tally (Off.tile n 0x808) 1 else s1).tally (Off.tile n 0x918) waits).syncBoard n).wakeHandles (Step.reads w)

/-- The parts of its stream's state area that a step reads (R106, R113, R152, R157, R167), and the guard entries where no cache holds them
(R190): address and bytes. -/
def State.stateParts (s : State) (q : Request) (w : Nat) : List (Nat × Nat) :=
  match q.stream with
  | none => []
  | some st =>
    let l := Step.layer w
    let d := (s.prog.dirEntries.find? (fun e => decide (e.layer = l))).getD { layer := l, kind := 0, preact := 0, codes := 0 }
    (if Step.opcode w = Op.requant ∨ Step.opcode w = Op.awlScan ∨ (Step.isCim w = true ∧ Step.predict w ≠ 0) then
      ((s.scaleRec st l).map (fun a => (a, 576))).toList else []) ++
    (if Step.opcode w = Op.awlScan ∧ s.hbm.ctxCache.contains st = false then [(s.guardAddr st, 1024)] else []) ++
    (if Step.opcode w = Op.scatterMerge then ((s.preactAt st l).map (fun a => (a, d.preact))).toList else []) ++
    (if Step.writesTwin w then ((s.codesAt st l).map (fun a => (a, d.codes))).toList else []) ++
    (if Step.isPixel w then ((s.pixelRef st).map (fun a => (a, s.streamFrame st))).toList else [])

/-- The read of those parts (R246): the changed units met, and the first poisoned one. -/
def State.readState (s : State) (q : Request) (w : Nat) : State × Option Nat :=
  s.ownReads (s.stateParts q w)

/-- A row of an opcode: the next step of a tile, where it has that opcode and may issue, goes to `k`. A step that waits for an earlier
frame's scale record adds `waits` to REQ_ORDER_WAITS (R117). A step that names a retired macro waits, or ends its request under HOLD
(R449); one that a reload left invalid ends it, and so does one whose stream's state cannot be read (R246). -/
def State.issuing (s : State) (n op waits : Nat) (k : State → Nat → Request → Nat → State) : State :=
  match s.frontStep n with
  | none => s
  | some (i, q, w) =>
    if Step.opcode w ≠ op then s
    else if s.mayIssue n i q w = false then
      if s.issues n && s.scaleWaits q w then s.tally (Off.tile n 0x414) waits else s
    else match (Step.macros w).find? (fun m => s.macRetired n m) with
      | some m =>
        if s.regBit (Off.err 0) 0 then
          s.failReq i .faultDevice .retiredUnit (fun e => { (e.unit 1 n).details m 0 with layer := Step.layer w })
        else s
      | none => match (Step.macros w).find? (fun m => s.macInvalid n m) with
        | some _ => s.failReq i .faultUncorrected .uncorrected (fun e => { e.unit 1 n with layer := Step.layer w })
        | none => match s.readState q w with
          | (t, some a) => t.failAccessAt i (Step.layer w) .faultUncorrected a
          | (t, none) => k t i q w

/-! ### Running steps -/

/-- The step record of a running step. -/
def RStep.w (r : RStep) : Nat := r.word.toNat

/-- A running step changed. -/
def State.setStep (s : State) (n : Nat) (r r2 : RStep) : State :=
  s.updTile n (fun t => { t with running := t.running.map (fun x => if x = r then r2 else x) })

/-- The running, unfinished steps of an opcode advanced in issue order, each by `f`. -/
def State.advance (s : State) (n op : Nat) (f : State → RStep → Request → State) : State :=
  if s.parkState ≥ 2 ∨ s.arrayClosed = true then s
  else ((s.tile n).running.filter (fun r => decide (Step.opcode r.w = op) && !r.finished)).foldl (fun s r =>
    if (s.tile n).running.contains r then
      match s.req? r.req with
      | some q => f s r q
      | none => s
    else s) s

/-- The cycles a unit was busy with steps of an opcode, tallied while one of them runs (log entry 13). -/
def State.busyFor (s : State) (n op off cycles : Nat) : State :=
  if (s.tile n).running.any (fun r => decide (Step.opcode r.w = op) && !r.finished) then s.tally (Off.tile n off) cycles else s

/-- A row of an opcode whose unit does all the work: issue the next step, then advance what runs. -/
def State.engine (s : State) (n op waits : Nat) (f : State → RStep → Request → State) : State :=
  (s.issuing n op waits (fun s i _ w => s.issueStep n i w waits)).advance n op f

/-! ### Completion (R228, R288, R325) -/

/-- What a completed step does for its request: its steps, POSITION, LAYER counts, evidence (R285, R288, R325). -/
def State.noteDone (s : State) (n i w : Nat) : State :=
  match s.req? i with
  | none => s
  | some q =>
    let l := Step.layer w
    let rq := match q.rqDone.find? (fun x => decide (x.1 = l)) with
      | some x => x.2.1
      | none => 0
    let s := s.setReq i { q with
      stepsDone := q.stepsDone + 1
      varied := q.varied || Step.vary w
      layerDone := layerPut q.layerDone l (layerGet q.layerDone l + 1)
      rqDone := if Step.opcode w = Op.requant then (l, rq + 1, n) :: q.rqDone.filter (fun x => decide (x.1 ≠ l)) else q.rqDone }
    s.progress i l

/-- A request's place in the order of acceptance. -/
def State.orderOf (s : State) (i : Nat) : Nat := ((s.req? i).map (·.order)).getD 0

/-- The markers a completed step sends: one for each region of another tile it writes (R228). One that has to wait at its sender is not
sent yet (R493). -/
def State.sendMarkers (s : State) (n i w : Nat) : State :=
  let hs := (Step.writes w).filter (fun h => decide (hTile h ≠ n) && Rg.isData (s.entryOf h))
  let ms := hs.map (fun h => ({ dst := hTile h, region := hIdx h, req := i, ord := s.orderOf i } : Marker))
  let go := ms.filter (fun m => !s.markerHeld m)
  ({ s with mesh := { s.mesh with
    markers := s.mesh.markers ++ go, held := s.mesh.held ++ (ms.filter (fun m => s.markerHeld m)).map (fun m => (n, m)) } }).tally
    (Off.tile n 0x920) go.length

/-- A finished step leaves the sequencer (R226, R228). -/
def State.endStep (s : State) (n : Nat) (r : RStep) : State :=
  let w := r.w
  let s := s.updTile n (fun t => { t with
    lastStep := s.now
    running := t.running.filter (fun x => decide (x ≠ r))
    sb := t.sb.filter (fun x => !(decide (x.step = r.idx) && decide (x.req = r.req))) })
  let s := (Step.macros w).foldl (fun s m => if (s.mac n m).step = some r.idx ∧ (s.mac n m).workReq = r.req then
    s.updMac n m (fun x => { x with step := none }) else s) s
  let s := if Step.opcode w = Op.shank ∨ Step.opcode w = Op.reduce then s.tally (Off.tile n 0x800) 1 else s
  ((s.sendMarkers n r.req w).noteDone n r.req w).syncBoard n

/-- STEP_COMPLETE (R226): the first running step of an index whose work is done; it may be the boundary at which an aborted RUN stops
(R294). -/
def execStepComplete (tile idx : Nat) (s : State) : Host.Outcome State Fault Refusal :=
  answer s (match (s.tile tile).running.find? (fun r => decide (r.idx = idx) && r.finished) with
    | none => s
    | some r => if s.parkState ≥ 2 then s else (s.endStep tile r).stopOver r.req)

/-! ### WAIT_RANGE, markers, SEAM, END -/

/-- The bytes a WAIT_RANGE waits for, as offsets of its tile (R228). -/
def waitBytes (e w : Nat) : Nat × Nat := (Rg.lo e, Rg.lo e + (if Step.count0 w = 0 then Rg.bytes e else Step.count0 w))

/-- Whether a WAIT_RANGE is satisfied: no unfinished local step writes its bytes, and every writer's marker is there
(R228). -/
def State.rangeFree (s : State) (n i w : Nat) : Bool :=
  let t := s.tile n
  let b := waitBytes (t.entry (hIdx (Step.src w))) w
  let need := s.prog.writerCount (Step.src w)
  !t.sb.any (fun x => x.writes && decide (x.lo < b.2) && decide (b.1 < x.hi)) &&
  (decide (need = 0) || t.arrivals.any (fun a => decide (a.region = hIdx (Step.src w)) && decide (a.req = i) && decide (need ≤ a.count)))

/-- A step that issues and completes at once. -/
def State.passStep (s : State) (n i w waits : Nat) : State :=
  (((s.updTile n (fun t => { t with
      pc := t.pc + 1
      rotReady := if Step.seam w then t.rotReady.filter (fun x => decide (x ≠ i)) else t.rotReady })).tally
    (Off.tile n 0x918) waits).noteDone n i w).syncBoard n

/-- The markers of a region and a request used (R228). -/
def State.useMarkers (s : State) (n region i : Nat) : State :=
  let t := s.tile n
  let k := sumNat ((t.arrivals.filter (fun a => decide (a.region = region) && decide (a.req = i))).map (·.count))
  ((s.setTile n { t with arrivals := t.arrivals.filter (fun a => !(decide (a.region = region) && decide (a.req = i))) }).tally
    (Off.tile n 0x924) k).untally (Off.tile n 0x92C) k

/-- WAIT_RANGE (R228): it issues and completes when its range is free; later steps wait behind it. -/
def execWaitRange (tile waits : Nat) (s : State) : Host.Outcome State Fault Refusal :=
  answer s (s.issuing tile Op.waitRange waits (fun s i _ w =>
    if s.rangeFree tile i w then (s.useMarkers tile (hIdx (Step.src w)) i).passStep tile i w waits else s))

/-- Whether a request is still in flight and has not ended. -/
def State.live (s : State) (i : Nat) : Bool :=
  match s.req? i with
  | some q => decide (q.phase ≠ .finished)
  | none => false

/-- Whether a marker can be taken: its request has ended, its entry exists, or one of the 16 arrival entries is free. -/
def State.takesMarker (s : State) (m : Marker) : Bool :=
  let t := s.tile m.dst
  !s.liveAs m.req m.ord || t.arrivals.any (fun a => decide (a.region = m.region) && decide (a.req = m.req)) || decide (t.arrivals.length < 16)

/-- A marker taken (R228, R235). -/
def State.takeMarker (s : State) (m : Marker) : State :=
  let s := { s with mesh := { s.mesh with markers := s.mesh.markers.erase m } }
  if !s.liveAs m.req m.ord then s.tally (Off.tile m.dst 0x928) 1
  else
    let t := s.tile m.dst
    let here := fun (a : Arrival) => decide (a.region = m.region) && decide (a.req = m.req)
    let l := if t.arrivals.any here then t.arrivals.map (fun a => if here a then { a with count := a.count + 1 } else a)
      else t.arrivals ++ [{ region := m.region, req := m.req, count := 1 }]
    ((s.setTile m.dst { t with arrivals := l }).tally (Off.tile m.dst 0x92C) 1).syncBoard m.dst

/-- The markers for a tile that need wait at their senders no longer are sent (R493). -/
def State.releaseMarkers (s : State) (n : Nat) : State :=
  (s.mesh.held.filter (fun h => decide (h.2.dst = n) && !s.markerHeld h.2)).foldl (fun s h =>
    ({ s with mesh := { s.mesh with markers := s.mesh.markers ++ [h.2], held := s.mesh.held.erase h } }).tally (Off.tile h.1 0x920) 1) s

/-- MARKER_ARRIVAL (R228): the first marker on the mesh for the tile that it can take; what may now leave its sender does (R493). -/
def execMarkerArrival (tile : Nat) (s : State) : Host.Outcome State Fault Refusal :=
  answer s (
    let s := s.releaseMarkers tile
    match s.mesh.markers.find? (fun m => decide (m.dst = tile) && s.takesMarker m) with
    | none => s
    | some m => s.takeMarker m)

/-- SEAM (R85): the tile's current tag; it issues at once and does not wait for earlier steps. -/
def execSeam (tile waits : Nat) (s : State) : Host.Outcome State Fault Refusal :=
  answer s (s.issuing tile Op.seam waits (fun s i _ w =>
    (s.updTile tile (fun t => { t with curTag := Step.tag w })).passStep tile i w waits))

/-- The request in front of a tile leaves it (R32). -/
def State.leaveTile (s : State) (n i : Nat) : State :=
  let s := s.updTile n (fun t => { t with
    lastStep := s.now
    queue := t.queue.drop 1
    pc := t.pcOf ((t.queue.drop 1).headD 0)
    batchPc := t.batchPc.filter (fun x => decide (x.1 ≠ (t.queue.drop 1).headD 0) && decide (x.1 ≠ i))
    rotReady := t.rotReady.filter (fun x => decide (x ≠ i))
    consumed := t.consumed.filter (fun x => decide (x.1 ≠ i))
    doneRuns := t.doneRuns ++ (match s.req? i with
      | some q => [(s.now, q.tag)]
      | none => []) })
  let s := s.updReq i (fun q => { q with tilesLeft := q.tilesLeft.filter (fun x => decide (x ≠ n)), stepsDone := q.stepsDone + 1 })
  match s.req? i with
  | some q => s.progress i q.pos
  | none => s

/-- END (R32): the list of a tile ends for the request in front once its steps have completed (DEDUCED, log entry 22). -/
def execEndList (tile : Nat) (s : State) : Host.Outcome State Fault Refusal :=
  answer s (s.issuing tile Op.end_ 0 (fun s i _ _ =>
    if (s.tile tile).running.any (fun r => decide (r.req = i)) then s else s.leaveTile tile i))

/-! ### Circular regions (R229, R230) -/

/-- The counters of a circular region. -/
def circTail (n c : Nat) : Nat := Off.tile n (0xA00 + 0x10 * c)
def circHead (n c : Nat) : Nat := Off.tile n (0xA04 + 0x10 * c)
def circOcc (n c : Nat) : Nat := Off.tile n (0xA0C + 0x10 * c)

/-- The records of a circular region in write order. -/
def Tile.circOf (t : Tile) (c : Nat) : List CircRec := t.circ.filter (fun x => decide (x.cq = c))

/-- The number of the next record written to a circular region: TAIL, and one more for each record written that it has not counted. -/
def State.circNext (s : State) (n c : Nat) : Nat :=
  (s.reg (circTail n c) + (((s.tile n).circOf c).length - s.reg (circOcc n c))) % 2 ^ 32

/-- Whether a producer may write a record into the circular region a handle names (R230): occupancy stays within cap, and the place of
the record is that of none still held. -/
def State.circRoom (s : State) (h : Nat) : Bool :=
  let e := s.entryOf h
  let n := hTile h
  match (s.tile n).circOf (Rg.cq e) with
  | [] => decide (0 < Rg.cap e)
  | x :: _ => decide ((s.circNext n (Rg.cq e) + 2 ^ 32 - x.num) % 2 ^ 32 < Rg.cap e)

/-- Whether a step of tile `n` may write its next record for a request: there is room, and a record for another tile is not held at its
sender while that tile waits at a SEAM-flagged step (R230, R493). -/
def State.mayPut (s : State) (n i h : Nat) : Bool :=
  s.circRoom h && (decide (hTile h = n) || !s.heldAtSender (hTile h) i (fun w => Step.consumes w h))

/-- The offset of record `k` of a circular entry (R229). -/
def Rg.recOff (e k : Nat) : Nat := Rg.lo e + k % Rg.cap e * (Rg.recsize e * 8)

/-- A record written by a step of tile `m`; it is not readable before it has landed (R230). Its bytes stand in the region from the write on
(DESIGN CHOICE, log entry 23). A refused access, or a unit it covers in part and cannot merge, ends its request (R231, R490). -/
def State.circPut (s : State) (m i layer : Nat) (secure : Bool) (h : Nat) (bs : List Byte) : State :=
  let n := hTile h
  let e := s.entryOf h
  let c := Rg.cq e
  let k := s.circNext n c
  match s.stepRefusal secure true n (Rg.recOff e k) bs.length with
  | some v => s.failStep m i layer secure v
  | none =>
    (s.spWrite n (Rg.recOff e k) bs).updTile n (fun t => { t with circ := t.circ ++ [{ cq := c, num := k, req := i, landed := false }] })

/-- The readable record in front of a circular region, for a request: its number. -/
def State.circFront (s : State) (h i : Nat) : Option CircRec :=
  let n := hTile h
  let c := Rg.cq (s.entryOf h)
  if s.reg (circOcc n c) = 0 then none
  else match (s.tile n).circOf c with
    | x :: _ => if x.req = i then some x else none
    | [] => none

/-- The bytes of a record. -/
def State.circBytes (s : State) (h : Nat) (x : CircRec) : List Byte :=
  let e := s.entryOf h
  s.spBytes (hTile h) (Rg.recOff e x.num) (Rg.recsize e * 8)

/-- A record consumed: HEAD advances (R230). -/
def State.circTake (s : State) (h : Nat) (x : CircRec) : State :=
  let n := hTile h
  let c := Rg.cq (s.entryOf h)
  ((s.updTile n (fun t => { t with circ := t.circ.erase x })).tally (circHead n c) 1).untally (circOcc n c) 1

/-- What the check of a record's bytes finds (R232). -/
def State.circBad (s : State) (secure : Bool) (h : Nat) (x : CircRec) : Option (Verdict × Nat) :=
  let e := s.entryOf h
  s.stepRefusal secure false (hTile h) (Rg.recOff e x.num) (Rg.recsize e * 8)

/-- CIRCULAR_RECORD_LANDED (R230): every byte of a record has landed; TAIL advances over the run of complete records. -/
def execCircularRecordLanded (tile cq record : Nat) (s : State) : Host.Outcome State Fault Refusal :=
  answer s (
    let t := s.tile tile
    match (t.circOf cq).find? (fun x => decide (x.num = record) && !x.landed) with
    | none => s
    | some x =>
      let s := s.setTile tile { t with circ := t.circ.map (fun y => if y = x then { x with landed := true } else y) }
      let k := landedRun ((s.tile tile).circOf cq) - s.reg (circOcc tile cq)
      (s.tally (circTail tile cq) k).tally (circOcc tile cq) k)

end Sys2Proof.Machine
end

