-- ==== Sys2Proof/Machine/Insole.lean ====
section
/-! DEFINITION. The insole buffer (R126, R131 to R134, R138, R144, R160, R161): the checked input of a CIM step, its input
vectors, and the walk over its positions. -/

namespace Sys2Proof.Machine

/-- An input vector: the elements that carry a value, each with its level. An element not listed is driven 0. -/
abbrev InVec := List (Nat × Int)

/-- A running CIM or AWL_SCAN step with its checked input: the request and its index, the step's entry, the segment and the
twin of an EYELET source. -/
structure CimJob where
  n : Nat
  idx : Nat
  i : Nat
  q : Request
  w : Nat
  e : Nat
  pat : List Nat
  seg : Option EyeSeg
  twin : Option EyeSeg
deriving DecidableEq, Repr

/-- The tap groups of a step (R161). -/
def Step.taps (w : Nat) : Nat := if Step.opcode w = Op.cimScatter then Step.count2 w else 1

/-- Slices S of a step, and its rows or weights per macro. -/
def State.slicesOf (s : State) (w : Nat) : Nat := max 1 (s.prog.stepSlices w)

/-- Vector `v` of a levels source: the 256·S bytes at v·256·S, of a transposed step too (R132). -/
def State.levelVec (s : State) (w slices v : Nat) : InVec :=
  let k := 256 * slices
  ((s.viewBytes (Step.src w) (v * k) k).map (fun b => if Step.asigned w then signedOf 8 b.toNat else (b.toNat : Int))).zipIdx.map
    (fun x => (x.2, x.1))

/-- Whether a level fits AWIDTH and ASIGNED. -/
def Step.fits (w : Nat) (x : Int) : Bool :=
  let a := Step.awidth w
  if Step.asigned w then decide (-(2 ^ (a - 1)) ≤ x) && decide (x ≤ 2 ^ (a - 1) - 1) else decide (0 ≤ x) && decide (x ≤ 2 ^ a - 1)

/-- The first level of a levels source that does not fit: its offset (R131). -/
def State.badLevel (s : State) (w slices : Nat) : Option Nat :=
  (List.range (Step.count0 w * Step.count1 w)).findSome? (fun v =>
    ((s.levelVec w slices v).find? (fun x => !Step.fits w x.2)).map (fun x => v * 256 * slices + x.1))

/-- The segment a handle's region holds, checked (R131). -/
def State.segmentOf (s : State) (pat : List Nat) (h : Nat) : Except EyeBad EyeSeg :=
  let e := s.entryOf h
  let n := max 16 (leNat (s.spBytes (hTile h) (Rg.lo e + 0xC) 4))
  readSegment (Rg.form e pat) (s.spBytes (hTile h) (Rg.lo e) (min n (Rg.bytes e)))

/-- What the check of the bytes of a region's segment finds (R232). -/
def State.segmentBad (s : State) (secure : Bool) (h : Nat) : Option (Verdict × Nat) :=
  let e := s.entryOf h
  s.stepRefusal secure false (hTile h) (Rg.lo e) (min (Rg.bytes e) (max 16 (leNat (s.spBytes (hTile h) (Rg.lo e + 0xC) 4))))

/-- The rows a window of an output position reaches (R132), from its upper edge on. -/
def Rg.windowRow (e p ky : Nat) : Int := ((p / Rg.wout e * Rg.sh e + ky : Nat) : Int) - (Rg.ph e : Int)

/-- Whether some gather window of a plain step reaches a row of the tensor outside the segment (R131): one above it, or one more than PH
rows below it. The PH rows below the last one count as the padding below the tensor, whose height no field gives (DEDUCED, log
entry 24). -/
def EyeSeg.windowBad (g : EyeSeg) (e w : Nat) : Bool :=
  (List.range (Step.count0 w * Step.count1 w)).any (fun v => (List.range (Rg.kh e)).any (fun ky =>
    let y := Rg.windowRow e (Rg.first e + v * Rg.pstep e) ky
    decide (0 ≤ y) && (decide (y < (g.first : Int)) || decide ((g.first + g.lines.length + Rg.ph e : Nat) ≤ y))))

/-- The form a step's source must have: delta for a DELTA step, plain else (R119, R160). R131 lists no fault for the other form; the
model ends the request as for a header that disagrees with the region, check 6 of `readSegment` (DESIGN CHOICE, log entry 68). -/
def EyeSeg.formBad (g : EyeSeg) (w : Nat) : Bool := g.delta != Step.delta w

/-- The first fault of a checked segment against the step that reads it (R131): check 6 its form, check 9 a window outside it. -/
def EyeSeg.stepBad (g : EyeSeg) (e w : Nat) : Option EyeBad :=
  if g.formBad w then some ⟨8, 6⟩
  else if !Step.delta w && g.windowBad e w then some ⟨0, 9⟩
  else none

/-- A step's input, read and checked (R131, R160). Check 10 is a level. -/
def State.cimJob (s : State) (n idx i : Nat) (q : Request) (w : Nat) : Except EyeBad CimJob :=
  let e := s.entryOf (Step.src w)
  let pat := (s.tile n).pat
  let job : CimJob := { n := n, idx := idx, i := i, q := q, w := w, e := e, pat := pat, seg := none, twin := none }
  if Rg.kind e ≠ Kind.eyelet then
    match s.badLevel w (s.slicesOf w) with
    | some o => .error ⟨o, 10⟩
    | none => .ok job
  else match s.segmentOf pat (Step.src w) with
    | .error b => .error b
    | .ok g =>
      match g.stepBad e w with
      | some b => .error b
      | none =>
        if Step.delta w && !q.key then
          match s.segmentOf pat (Step.src w + 1) with
          | .error b => .error b
          | .ok t => .ok { job with seg := some g, twin := some t }
        else .ok { job with seg := some g }

/-! ### Input vectors -/

/-- Level of a code in the source's table. -/
def CimJob.level (j : CimJob) (c : Nat) : Int := Pt.level j.pat (Rg.table j.e) c

/-- The values a present position carries that are looked up and driven: rest-code values of dense blocks are passed over (R138). -/
def CimJob.carried (j : CimJob) (p : EyePos) : List EyeVal :=
  let rest := restOf j.pat (Rg.table j.e) (wBits (Rg.bits j.e))
  p.vals.filter (fun v => !(v.2.2 && decide (rest = some v.2.1)))

/-- Those values of a plain position: channel and level. -/
def CimJob.values (j : CimJob) (p : EyePos) : InVec := (j.carried p).map (fun v => (v.1, j.level v.2.1))

/-- The gather of an output position (R132): none where every input position of its window is absent (R133). -/
def CimJob.gather (j : CimJob) (g : EyeSeg) (p : Nat) : Option InVec :=
  let cells := (List.range (Rg.kh j.e)).flatMap (fun ky => (List.range (Rg.kw j.e)).filterMap (fun kx =>
    let y := Rg.windowRow j.e p ky
    let x := ((p % Rg.wout j.e * Rg.sw j.e + kx : Nat) : Int) - (Rg.pw j.e : Int)
    if y < 0 ∨ x < 0 then none
    else (g.at_ y.toNat x.toNat).map (fun c =>
      (j.values c).map (fun v => ((ky * Rg.kw j.e + kx) * Rg.channels j.e + v.1, v.2)))))
  if cells.isEmpty then none else some cells.flatten

/-- The differences a delta position drives (R160): the new level on a keyframe, where a CIM_MATCH step looks up and drives only the values
of R138; on a delta frame the new level less the twin's, where it passes over a channel of a dense block only if both codes are the rest
code (DEDUCED, log entry 24). -/
def CimJob.delta (j : CimJob) (row col : Nat) (p : EyePos) : InVec :=
  let match_ := decide (Step.opcode j.w = Op.cimMatch)
  match j.twin with
  | none => (if match_ then j.carried p else p.vals).map (fun v => (v.1, j.level v.2.1))
  | some t =>
    let old := match t.at_ row col with
      | some o => o.vals
      | none => []
    let was := fun (v : EyeVal) => (old.find? (fun o => decide (o.1 = v.1))).map (·.2.1)
    (p.vals.filter (fun v => !match_ || (j.carried p).contains v || (was v).any (fun o => decide (o ≠ v.2.1)))).map (fun v =>
      (v.1, match was v with
        | some o => j.level v.2.1 - j.level o
        | none => 0))

/-- Row and column of the `k`-th input position of a delta step over an entry (R161; DEDUCED, log entry 24). -/
def Rg.cell (e k : Nat) : Nat × Nat :=
  let p := Rg.first e + k * Rg.pstep e
  (p / max 1 (Rg.width e), p % max 1 (Rg.width e))
def CimJob.cell (j : CimJob) (k : Nat) : Nat × Nat := Rg.cell j.e k

/-- Input vector `v` of a step; none where it is absent. -/
def State.cimVec (s : State) (j : CimJob) (v : Nat) : Option InVec :=
  match j.seg with
  | none => some (s.levelVec j.w (s.slicesOf j.w) v)
  | some g =>
    if Step.delta j.w then
      let c := j.cell v
      (g.at_ c.1 c.2).map (j.delta c.1 c.2)
    else j.gather g (Rg.first j.e + v * Rg.pstep j.e)

/-- The vectors of the step's n-th position (R132). -/
def State.posVecs (s : State) (j : CimJob) (k : Nat) : List (Option InVec) :=
  (List.range (Step.count1 j.w)).map (fun i => s.cimVec j (k * Step.count1 j.w + i))

/-- Whether the step's n-th position is present (R133). -/
def State.posPresent (s : State) (j : CimJob) (k : Nat) : Bool := (s.posVecs j k).any (·.isSome)

/-- The ledger position of the step's n-th position (R491). -/
def CimJob.ledgerPos (j : CimJob) (k : Nat) : Nat :=
  if Rg.kind j.e = Kind.eyelet then Rg.first j.e + k * Rg.pstep j.e else k

/-! ### Which rows a macro drives -/

/-- An entry of a tag memory (R136 Table 6). -/
def tagHash (i : Nat) : Nat := (i ^^^ (i / 2 ^ 5) ^^^ (i / 2 ^ 10) ^^^ (i / 2 ^ 15)) % 32
def Tag.valid (v : Nat) : Bool := v.testBit 24
def Tag.index (v : Nat) : Nat := bitsAt v 0 16
def Tag.row (v : Nat) : Nat := bitsAt v 16 8

/-- The row a tag memory gives an input index. -/
def tagRow (mem : List Word) (i : Nat) : Option Nat :=
  (mem.find? (fun t => Tag.valid t.toNat && decide (Tag.index t.toNat = i))).map (fun t => Tag.row t.toNat)

/-- The slice of macro MFIRST + k: k mod S, within its tap group for a scattering step (R76, R161). -/
def State.sliceOf (s : State) (w k : Nat) : Nat := k % (Step.m w / Step.taps w) % s.slicesOf w

/-- The rows (weights, transposed) macro MFIRST + k drives for a vector, with their levels (R132, R138). R132 speaks of rows alone: weight j of
slice s of a transposed step is driven by element 256 s + j, and by 0 beyond the vector (DESIGN CHOICE, log entry 68). -/
def State.driven (s : State) (j : CimJob) (k : Nat) (v : InVec) : InVec :=
  if Step.opcode j.w = Op.cimMatch then
    let mem := (s.mac j.n (Step.mfirst j.w + k)).tagMem
    v.filterMap (fun x => (tagRow mem x.1).map (fun r => (r, x.2)))
  else
    let lo := 256 * s.sliceOf j.w k
    (v.filter (fun x => decide (lo ≤ x.1) && decide (x.1 < lo + Step.k j.w))).map (fun x => (x.1 - lo, x.2))

/-! ### The tag memory load (R136, R137) -/

/-- What is wrong with one macro's tag image. -/
def tagImageBad (l : List Nat) : Bool :=
  let v := l.zipIdx.filter (fun t => Tag.valid t.1)
  v.any (fun t => decide (tagHash (Tag.index t.1) ≠ t.2 / 8)) || l.any (fun t => decide (2 ^ 25 ≤ t)) ||
  v.any (fun a => v.any (fun b => decide (a.2 < b.2) &&
    (decide (Tag.index a.1 = Tag.index b.1) || decide (Tag.row a.1 = Tag.row b.1))))

/-- The tag images a region holds for `count` macros. -/
def State.tagImages (s : State) (h count : Nat) : List (List Nat) :=
  (List.range count).map (fun k => (List.range 256).map (fun x => leNat (s.viewBytes h (1024 * k + 4 * x) 4)))

/-- Whether macro `m` holds image `k` of a region already. -/
def State.tagsHeld (s : State) (n m h k : Nat) : Bool :=
  let e := s.entryOf h
  let b := spBase (hTile h)
  decide ((s.mac n m).tagKey = some (b + Rg.lo e, b + Rg.hi e, k))

/-- The tag memories of a step's macros loaded from AUX unless they hold it already; a bad image ends the request. -/
def State.loadTags (s : State) (n i layer first count h : Nat) : State :=
  if (List.range count).all (fun k => s.tagsHeld n (first + k) h k) then s
  else
    let imgs := s.tagImages h count
    if imgs.any tagImageBad then s.seamEnd n i layer .tags 0 0
    else
      let e := s.entryOf h
      let b := spBase (hTile h)
      (imgs.zipIdx.foldl (fun s x => s.updMac n (first + x.2) (fun m => { m with
        tagMem := x.1.map (BitVec.ofNat 32), tagKey := some (b + Rg.lo e, b + Rg.hi e, x.2) })) s).tally (Off.tile n 0x538) count

/-! ### Chunks (R143 to R145) -/

/-- Whether a step belongs to a balance group. -/
def State.balanced (s : State) (w : Nat) : Bool :=
  let e := s.entryOf (Step.src w)
  Step.isCim w && decide (Rg.kind e = Kind.eyelet) && Rg.balance e

/-- The segment restricted to a run of its canonical blocks. -/
def cutPositions (lo hi at_ : Nat) : List EyePos → List EyePos × Nat
  | [] => ([], at_)
  | p :: r =>
    let bl := p.blocks.zipIdx.map (fun b => if lo ≤ at_ + b.2 ∧ at_ + b.2 < hi then some b.1 else none)
    let (rest, k) := cutPositions lo hi (at_ + p.blocks.length) r
    let keep := bl.filterMap id
    (if keep.isEmpty then rest else { p with vals := keep.flatten, blocks := keep } :: rest, k)
def cutLines (lo hi at_ : Nat) : List (List EyePos) → List (List EyePos)
  | [] => []
  | l :: r =>
    let (ps, k) := cutPositions lo hi at_ l
    ps :: cutLines lo hi k r
def EyeSeg.cut (g : EyeSeg) (c : Chunk) : EyeSeg := { g with lines := cutLines c.firstBlock (c.firstBlock + c.blocks) 0 g.lines }

/-- The values of each block of a segment in canonical order: 32 for a dense one, N for a sparse one (R144). -/
def EyeSeg.blockValues (g : EyeSeg) : List Nat :=
  g.lines.flatten.flatMap (fun p => p.blocks.map (fun b => if b.any (fun v => v.2.2) then 32 else b.length))

/-- The chunks of a segment: runs of at most 4,096 values, each as long as it can be (R144 sets the limit; that a run is cut only where
it must be is a DESIGN CHOICE, log entry 68); first block, blocks and values of each. -/
def cutChunks : List Nat → Nat → Nat → Nat → Nat → List (Nat × Nat × Nat)
  | [], _, first, n, v => if n = 0 then [] else [(first, n, v)]
  | b :: r, at_, first, n, v =>
    if n ≠ 0 ∧ 4096 < v + b then (first, n, v) :: cutChunks r (at_ + 1) at_ 1 b
    else cutChunks r (at_ + 1) (if n = 0 then at_ else first) (n + 1) (v + b)
def EyeSeg.chunks (g : EyeSeg) : List (Nat × Nat × Nat) := cutChunks g.blockValues 0 0 0 0

/-- The members of a LAYER's balance group: tile and step (R143). -/
def State.members (s : State) (layer : Nat) : List (Nat × Nat) :=
  (s.prog.all.filter (fun x => decide (Step.layer x.2.2 = layer) && s.balanced x.2.2)).map (fun x => (x.1, x.2.2))

/-- The region that receives the segment bound for a balance group: the member's that a step writes, else the first
member's (DEDUCED, log entry 25). -/
def State.balanceSrc (s : State) (layer : Nat) : Option Nat :=
  let l := (s.members layer).map (fun x => Step.src x.2)
  (l.find? (fun h => s.prog.all.any (fun x => (Step.writes x.2.2).contains h))).or l.head?

/-- The chunk in front of a member for a request and LAYER. -/
def Tile.chunkOf (t : Tile) (i layer : Nat) : Option Chunk :=
  t.chunks.find? (fun c => decide (c.req = i) && decide (c.layer = layer))

/-- The job of a member: its source is the group's segment, cut to the chunk in front. -/
def State.chunkJob (s : State) (n idx i : Nat) (q : Request) (w : Nat) : Except EyeBad (Option CimJob) :=
  match (s.tile n).chunkOf i (Step.layer w), s.balanceSrc (Step.layer w) with
  | some c, some h =>
    let pat := (s.tile n).pat
    match s.segmentOf pat h with
    | .error b => .error b
    | .ok g => match g.stepBad (s.entryOf (Step.src w)) w with
      | some b => .error b
      | none => .ok (some { n := n, idx := idx, i := i, q := q, w := w, e := s.entryOf (Step.src w), pat := pat
                            seg := some (g.cut c), twin := none })
  | _, _ => .ok none

end Sys2Proof.Machine
end

