-- ==== Sys2Proof/Machine/Cim.lean ====
section
/-! DEFINITION. CIM_DENSE, CIM_MATCH and CIM_SCATTER as the sequencer and the insole buffer run them, the invocation and the
working-set swap (R43, R44, R47 to R55, R60 to R65, R71 to R78, R133, R138, R145, R160 to R163, R185, R187). -/

namespace Sys2Proof.Machine

/-! ### The macro's arithmetic (R41, R43, R60, R64) -/

/-- The exact dot products of an invocation with the driven rows `x` (R43), or with the driven weights, transposed
(R64). -/
def State.dot (s : State) (n m w : Nat) (x : InVec) : List Int :=
  let wb := wBits (Step.wcode w)
  if Step.transpose w then
    (List.range 256).map (fun r => let row := s.rowWord n m r
      sumInt (x.map (fun v => v.2 * weightOf row wb (Step.wsigned w) v.1)))
  else
    let rows := (x.filter (fun v => decide (v.2 ≠ 0))).map (fun v => (s.rowWord n m v.1, v.2))
    (List.range (512 / wb)).map (fun o => sumInt (rows.map (fun v => v.2 * weightOf v.1 wb (Step.wsigned w) o)))

/-- Pos(j) of each output and whether it has a non-zero weight, as the macro keeps them (R60). -/
def State.bounds (s : State) (n m : Nat) : List (Nat × Bool) :=
  let x := s.mac n m
  (List.range (512 / wBits x.wcode)).map (fun o => let c := sget ColWords.zero x.cols o; (c.pos, decide (c.nonzero ≠ 0)))

/-- Whether the bound proves the group after the planes down to `p` (R60, R61). -/
def boundHolds (bd : List (Nat × Bool)) (r acc : List Int) (p : Nat) (tb : Int) : Bool :=
  bd.zipIdx.all (fun b => !b.1.2 ||
    decide (r.getD b.2 0 + acc.getD b.2 0 * 2 ^ p + (2 ^ p - 1) * (b.1.1 : Int) ≤ tb))

/-- The planes left when the invocation stops early; none where no test succeeds (R61). -/
def State.boundStop (s : State) (n m w : Nat) (x : InVec) (r : List Int) (tb : Int) : Option Nat :=
  let bd := s.bounds n m
  ((List.range (Step.awidth w - 1)).map (fun k => Step.awidth w - 1 - k)).find? (fun p =>
    boundHolds bd r (s.dot n m w (x.map (fun v => (v.1, v.2 / 2 ^ p)))) p tb)

/-- Two lists of sums added output by output; a missing one is 0. -/
def addSums (a b : List Int) : List Int := b.zipIdx.map (fun v => a.getD v.2 0 + v.1)

/-! ### Destinations -/

/-- A drain or a fill of block `b` of the n-th position: added to a local range, or sent to the range's tile (R77). None while its slot
cannot open or it has to wait at its sender. -/
def State.drainTo (s : State) (j : CimJob) (k b terms finals : Nat) (vals : List Int) : Option State :=
  let h := Step.dst j.w
  if hTile h = j.n then s.addSlot h j.i (Step.layer j.w) (j.ledgerPos k) (Step.tag j.w) terms finals (macroPlaces b vals)
  else
    let d : Drain := { src := j.n, dst := hTile h, region := hIdx h, layer := Step.layer j.w, position := j.ledgerPos k, block := b, slice := 0,
                       terms := terms, tag := Step.tag j.w, req := j.i, ord := j.q.order, final := decide (finals ≠ 0), values := vals }
    s.sendDrain d

/-- The final drains of all S slices of a block recorded with given values (R133, R185): as full evaluation adds them. -/
def State.fillBlock (s : State) (j : CimJob) (k b : Nat) (vals : List Int) : Option State :=
  let sl := s.slicesOf j.w
  let terms := if b = 0 then Step.k j.w * Step.count1 j.w else 0
  if hTile (Step.dst j.w) = j.n then s.drainTo j k b (sl * terms) (sl * vals.length) vals
  else (List.range sl).foldl (fun s x => s.bind (fun s =>
    s.drainTo j k b terms vals.length (if x = 0 then vals else vals.map (fun _ => 0)))) (some s)

/-- Blocks of a step: M/S (R76). -/
def State.blocksOf (s : State) (w : Nat) : Nat := Step.m w / s.slicesOf w

/-- An absent position zero-filled (R133). -/
def State.zeroFill (s : State) (j : CimJob) (k : Nat) : Option State :=
  (List.range (s.blocksOf j.w)).foldl (fun s b => s.bind (fun s =>
    if s.live j.i then s.fillBlock j k b (List.replicate (Step.outputs j.w) 0) else some s)) (some s)

/-! ### The class map (R179, R185) -/

/-- The class map entry of the n-th position; none while a circular map has not brought it. -/
def State.classEntry (s : State) (j : CimJob) (aux k : Nat) : Option Nat :=
  match (s.tile j.n).classMap j.idx j.w with
  | [] => some 0
  | h :: _ =>
    let e := s.entryOf h
    if Rg.kind e = Kind.circular then
      let c := Rg.cq e
      if k - aux < s.reg (circOcc j.n c) then
        match ((s.tile j.n).circOf c)[k - aux]? with
        | some x => if x.req = j.i then some (leNat (s.circBytes h x)) else none
        | none => none
      else none
    else some (leNat (s.viewBytes h (32 * k) 32))

/-- What the check of the class map entry of the n-th position finds, where it is there to be read (R232). -/
def State.classBad (s : State) (j : CimJob) (aux k : Nat) : Option (Verdict × Nat) :=
  match (s.tile j.n).classMap j.idx j.w with
  | [] => none
  | h :: _ =>
    let e := s.entryOf h
    if Rg.kind e = Kind.circular then
      (((s.tile j.n).circOf (Rg.cq e))[k - aux]?).bind (fun x => if x.landed then s.circBad j.q.secure h x else none)
    else s.stepReadBad j.q.secure h (32 * k) 32

/-- Whether the class of macro `m` lets it be invoked: everything but OFF without AUDIT. -/
def invokes (cls m : Nat) : Bool := decide (bitsAt cls (4 * m) 2 ≠ 3) || cls.testBit (4 * m + 2)

/-- What a skipped block receives (R185): T_b on every output with a non-zero weight in the block, else 0. -/
def State.skipValues (s : State) (j : CimJob) (b : Nat) (tb : Int) : List Int :=
  let sl := s.slicesOf j.w
  let bd := (List.range sl).map (fun x => s.bounds j.n (Step.mfirst j.w + b * sl + x))
  (List.range (Step.outputs j.w)).map (fun o => if bd.any (fun l => (l.getD o (0, false)).2) then tb else 0)

/-- The unaudited OFF blocks of a position filled. -/
def State.skipBlocks (s : State) (j : CimJob) (k cls : Nat) : Option State :=
  let sl := s.slicesOf j.w
  ((List.range (s.blocksOf j.w)).filter (fun b => !invokes cls (Step.mfirst j.w + b * sl))).foldl (fun s b => s.bind (fun s =>
    if s.live j.i then s.fillBlock j k b (s.skipValues j b (s.bound j.q j.w)) else some s)) (some s)

/-! ### The walk over the positions (R133, R138, R161) -/

/-- A present position counted: EYE_POS_PRESENT, of a delta-form input too and not of levels, which have no positions to be absent (DESIGN
CHOICE, log entry 68); POS_PRESENT of a delta frame; look-ups. -/
def State.countPresent (s : State) (j : CimJob) (k : Nat) : State :=
  let s := if j.seg.isSome then s.tally (Off.tile j.n 0x510) 1 else s
  let s := match j.q.stream with
    | some st => if Step.delta j.w && !j.q.key then s.tallyCtx st Cx.posPresent 1 else s
    | none => s
  if Step.opcode j.w = Op.cimMatch then
    s.tally (Off.tile j.n 0x51C) (sumNat ((s.posVecs j k).map (fun v => (v.getD []).length)))
  else s

/-- One position walked; none while it must wait. -/
def State.walkOne (s : State) (j : CimJob) (aux k : Nat) : Option State :=
  match s.classBad j aux k with
  | some v => some (s.failStep j.n j.i (Step.layer j.w) j.q.secure v)
  | none =>
  if s.posPresent j k then
    match s.classEntry j aux k with
    | none => none
    | some cls => (s.skipBlocks j k cls).map (fun s => s.countPresent j k)
  else if Step.delta j.w then some s
  else match s.classEntry j aux k with
    | none => none
    | some _ => (s.zeroFill j k).map (fun s => s.tally (Off.tile j.n 0x514) 1)

/-- The walk from position `k` on, as far as it gets: the position it stands at. -/
def State.walk (s : State) (j : CimJob) (aux k : Nat) : Nat → State × Nat
  | 0 => (s, k)
  | fuel + 1 =>
    if s.live j.i = false then (s, k)
    else match s.walkOne j aux k with
      | none => (s, k)
      | some t => t.walk j aux (k + 1) fuel

/-! ### What a macro still has to do -/

/-- The next vector of a position from `i` on that is present. -/
def State.nextVec (s : State) (j : CimJob) (k i : Nat) : Option Nat :=
  ((List.range (Step.count1 j.w)).drop i).find? (fun x => (s.cimVec j (k * Step.count1 j.w + x)).isSome)

/-- Positions a macro may take now: those walked, or all of a chunk. -/
def State.walked (s : State) (j : CimJob) (r : RStep) : Nat := if s.balanced j.w then Step.count0 j.w else r.next

/-- The next invocation of a macro: position and vector. -/
def State.nextWork (s : State) (j : CimJob) (r : RStep) (m : Nat) : Option (Nat × Nat) :=
  let x := s.mac j.n m
  (((List.range (s.walked j r)).drop x.position).findSome? (fun k =>
    if s.posPresent j k && invokes ((s.classEntry j r.aux k).getD 0) m then
      (s.nextVec j k (if k = x.position then x.inv else 0)).map (fun v => (k, v))
    else none))

/-- Whether a running step holds a macro, and whether the macro's shadow set is the step's (R50, R86). -/
def Macro.heldBy (x : Macro) (r : RStep) : Bool := decide (x.step = some r.idx) && decide (x.workReq = r.req)
def Macro.drains (x : Macro) (r : RStep) : Bool :=
  !x.shadow.isEmpty && decide (x.shadowReq = r.req) && decide (x.shadowIdx = r.idx)

/-- Whether a step has no work left for a macro: nothing to invoke, its working set swapped. -/
def State.macroSpent (s : State) (j : CimJob) (r : RStep) (m : Nat) : Bool :=
  let x := s.mac j.n m
  (s.nextWork j r m).isNone && !x.swapDue && x.work.isEmpty

/-- Whether a step is done with a macro: it has no work left for it and has drained. -/
def State.macroDone (s : State) (j : CimJob) (r : RStep) (m : Nat) : Bool :=
  (!(s.mac j.n m).heldBy r || s.macroSpent j r m) && !(s.mac j.n m).drains r

/-- A macro its step has no more work for let go (R50, R86): the next step may fill its working set while the shadow set drains. -/
def State.letGo (s : State) (j : CimJob) (r : RStep) (m : Nat) : State :=
  if (s.mac j.n m).heldBy r ∧ s.balanced j.w = false ∧ s.walked j r = Step.count0 j.w ∧ s.macroSpent j r m = true then
    s.updMac j.n m (fun x => { x with step := none, insole := [] })
  else s

/-- The class entries every macro has passed, consumed (R192). -/
def State.dropClasses (s : State) (j : CimJob) (r : RStep) : State × RStep :=
  match (s.tile j.n).classMap j.idx j.w with
  | [] => (s, r)
  | h :: _ =>
    if Rg.kind (s.entryOf h) ≠ Kind.circular then (s, r)
    else
      let at_ := ((Step.macros j.w).map (fun m => match s.nextWork j r m with
        | some (k, _) => k
        | none => if (s.mac j.n m).swapDue then (s.mac j.n m).position else r.next)).foldl min r.next
      (List.range (at_ - r.aux)).foldl (fun x _ => match x.1.circFront h j.i with
        | some c => (x.1.circTake h c, { x.2 with aux := x.2.aux + 1 })
        | none => x) (s, r)

/-- The TERMS a member has contributed to a position (R145). -/
def Tile.termsOf (t : Tile) (i idx p : Nat) : Nat :=
  sumNat ((t.memberTerms.filter (fun x => decide (x.1 = (i, idx)) && decide (x.2.1 = p))).map (fun x => x.2.2))

/-- The end marker of a balance-group member for its k-th position, weighted as all its drains, with the TERMS it contributed (R145): at
the owner itself entered in the slot at once, else sent to the owner. None while it has to wait. A marker on the mesh counts as a drain in
the remote drain tallies, whose balance R79 states of everything the mesh carries to a ledger (DESIGN CHOICE, log entry 68). -/
def State.endMarker (s : State) (j : CimJob) (k : Nat) : Option State :=
  let h := Step.dst j.w
  let finals := s.slotSize h * s.slicesOf j.w
  let terms := (s.tile j.n).termsOf j.i j.idx k
  if hTile h = j.n then s.addSlot h j.i (Step.layer j.w) (j.ledgerPos k) (Step.tag j.w) terms finals []
  else s.sendDrain { src := j.n, dst := hTile h, region := hIdx h, layer := Step.layer j.w, position := j.ledgerPos k
                     block := 0, slice := finals, terms := terms
                     tag := Step.tag j.w, req := j.i, ord := j.q.order, final := true, values := [] }

/-- The end markers of a balance-group member, from the `r.next`-th position on as far as they go; with the last its step is done
(R145). -/
def State.endMarkers (s : State) (j : CimJob) (r : RStep) : Nat → State
  | 0 => s
  | fuel + 1 =>
    if Step.count0 j.w ≤ r.next then
      (s.updTile j.n (fun t => { t with memberTerms := t.memberTerms.filter (fun x => decide (x.1 ≠ (j.i, j.idx))) })).setStep j.n r
        { r with finished := true }
    else match s.endMarker j r.next with
      | none => s
      | some t =>
        if t.live j.i then (t.setStep j.n r { r with next := r.next + 1 }).endMarkers j { r with next := r.next + 1 } fuel else t

/-- The chunks of a LAYER's segment: how many there are; at least one while the segment is not well formed, so that no member ends before
CHUNK_DEAL has met it. -/
def State.chunkCount (s : State) (layer : Nat) : Nat :=
  match s.balanceSrc layer with
  | none => 0
  | some h => match s.segmentOf (s.tile (hTile h)).pat h with
    | .ok g => g.chunks.length
    | .error _ => 1

/-- A member's chunk completed: its positions and its own tallies counted, its macros back at the first position (R133, R138, R146). A position
split over several chunks counts once a chunk, and an absent one is neither filled nor counted as skipped (DESIGN CHOICE, log entry 68). -/
def State.endChunk (s : State) (j : CimJob) (n i w : Nat) (c : Chunk) : State :=
  let s := (List.range (Step.count0 w)).foldl (fun s k => if s.posPresent j k then s.countPresent j k else s) s
  let s := ((s.updTile n (fun t => { t with chunks := t.chunks.erase c })).tally (Off.tile n 0x52C) 1).untally (Off.tile n 0x534) 1
  (Step.macros w).foldl (fun s m => if (s.mac n m).workReq = i then s.updMac n m (fun x => { x with position := 0, inv := 0 }) else s) s

/-- A member's step goes on to its next chunk, or ends once every chunk has been dealt and done. With PREDICT 2 the blocks of class OFF are skipped
and no T_b is entered for them (R145 is silent; DESIGN CHOICE, log entry 68). -/
def State.settleChunk (s : State) (n : Nat) (r : RStep) (q : Request) (j : CimJob) : State :=
  let w := r.w
  let l := Step.layer w
  match (s.tile n).chunkOf r.req l with
  | some c => if (Step.macros w).all (fun m => s.macroDone j r m) then s.endChunk j n r.req w c else s
  | none =>
    if s.chunkCount l ≤ layerGet q.dealt l then s.endMarkers j r (Step.count0 w + 1) else s

/-- A step whose walk is over and whose macros have drained is done but for STEP_COMPLETE. -/
def State.settleCim (s : State) (j : CimJob) (r : RStep) : State :=
  let (s, r2) := s.dropClasses j r
  let s := s.setStep j.n r r2
  let s := (Step.macros j.w).foldl (fun s m => s.letGo j r2 m) s
  if r2.next = Step.count0 j.w ∧ (Step.macros j.w).all (fun m => s.macroDone j r2 m) = true then
    s.setStep j.n r2 { r2 with finished := true }
  else s

/-- A malformed input ends the request (R131). -/
def State.eyeBad (s : State) (n i layer : Nat) (b : EyeBad) : State :=
  (s.tally (Off.tile n 0x518) 1).seamEnd n i layer .eyelet b.off (Config.checkCode b.check)

/-- The job of a running step: of a balance-group member its chunk in front, else its whole source. -/
def State.jobOf (s : State) (n : Nat) (r : RStep) (q : Request) : Except EyeBad (Option CimJob) :=
  if s.balanced r.w then s.chunkJob n r.idx r.req q r.w
  else match s.cimJob n r.idx r.req q r.w with
    | .error b => .error b
    | .ok j => .ok (some j)

/-- A job without a segment, for a member whose chunks are all done. -/
def State.bareJob (s : State) (n : Nat) (r : RStep) (q : Request) : CimJob :=
  { n := n, idx := r.idx, i := r.req, q := q, w := r.w, e := s.entryOf (Step.src r.w), pat := (s.tile n).pat, seg := none, twin := none }

/-- One advance of a running CIM step: the walk, then its end. -/
def State.advanceCim (s : State) (n : Nat) (r : RStep) (q : Request) : State :=
  match s.jobOf n r q with
  | .error b => s.eyeBad n r.req (Step.layer r.w) b
  | .ok none => s.settleChunk n r q (s.bareJob n r q)
  | .ok (some j) =>
    if s.balanced r.w then s.settleChunk n r q j
    else
      let (t, k) := s.walk j r.aux r.next (Step.count0 j.w - r.next)
      let r2 := { r with next := k }
      if t.live r.req then (t.setStep n r r2).settleCim j r2 else t

/-- What the check of the sources of a CIM step or an AWL_SCAN finds (R232): the segment, its twin where the step drives differences, or
the levels of all the slices it reads; and the tag images of a CIM_MATCH. -/
def State.cimReadBad (s : State) (q : Request) (w slices aux : Nat) (match_ : Bool) : Option (Verdict × Nat) :=
  let src := if Rg.kind (s.entryOf (Step.src w)) = Kind.eyelet then
      (s.segmentBad q.secure (Step.src w)).or
        (if Step.delta w && !q.key then s.segmentBad q.secure (Step.src w + 1) else none)
    else s.stepReadBad q.secure (Step.src w) 0 (Step.count0 w * max 1 (Step.count1 w) * (256 * slices))
  src.or (if match_ then s.stepReadBad q.secure aux 0 (1024 * Step.m w) else none)

/-- A CIM step issued: its reads checked, its tag memories loaded, its input checked whole (R131, R137, R232). -/
def State.issueCim (s : State) (n i : Nat) (q : Request) (w waits : Nat) : State :=
  match s.cimReadBad q w (s.slicesOf w) (Step.aux w) (decide (Step.opcode w = Op.cimMatch)) with
  | some v => s.failStep n i (Step.layer w) q.secure v
  | none =>
    let idx := (s.tile n).pc
    let s := s.issueStep n i w waits
    let s := if Step.opcode w = Op.cimMatch then s.loadTags n i (Step.layer w) (Step.mfirst w) (Step.m w) (Step.aux w) else s
    if s.live i = false ∨ s.balanced w = true then s
    else match s.cimJob n idx i q w with
      | .error b => s.eyeBad n i (Step.layer w) b
      | .ok _ => s

/-- A CIM step of an opcode (R43, R133): issued, and its running steps advanced. -/
def State.runCim (s : State) (n op waits : Nat) : State :=
  (s.issuing n op waits (fun s i q w => s.issueCim n i q w waits)).advance n op (fun s r q => s.advanceCim n r q)

/-- CIM_DENSE (R43, R48, R131 to R133, R145, R160, R161, R185). -/
def execCimDense (tile waits : Nat) (s : State) : Host.Outcome State Fault Refusal :=
  answer s (s.runCim tile Op.cimDense waits)

/-- CIM_MATCH (R136 to R139). -/
def execCimMatch (tile waits : Nat) (s : State) : Host.Outcome State Fault Refusal :=
  answer s (s.runCim tile Op.cimMatch waits)

/-- CIM_SCATTER (R160 to R163). -/
def execCimScatter (tile waits : Nat) (s : State) : Host.Outcome State Fault Refusal :=
  answer s (s.runCim tile Op.cimScatter waits)

/-! ### INVOCATION -/

/-- T_b where the step tests a bound on this vector: PREDICT 1, or an invoked block of PREDICT 2 with S = 1, in the
COUNT1-th invocation (R61, R185). -/
def State.testBound (s : State) (j : CimJob) (v : Nat) : Option Int :=
  if (Step.predict j.w = 1 ∨ (Step.predict j.w = 2 ∧ s.slicesOf j.w = 1)) ∧ v + 1 = Step.count1 j.w then some (s.bound j.q j.w)
  else none

/-- The registers after an invocation, and the planes left out by a bound stop (R44, R62). -/
def State.invResult (s : State) (j : CimJob) (m v : Nat) (x : InVec) (r : List Int) : List Int × Nat :=
  let full := addSums r (s.dot j.n m j.w x)
  match s.testBound j v with
  | none => (full, 0)
  | some tb =>
    match s.boundStop j.n m j.w x r tb with
    | none => (full, 0)
    | some p => ((s.bounds j.n m).zipIdx.map (fun b => if b.1.2 then tb else r.getD b.2 0), p)

/-- The exact sums of a block at a position over all its slices (R187). -/
def State.blockSums (s : State) (j : CimJob) (b k : Nat) : List Int :=
  let sl := s.slicesOf j.w
  (List.range sl).foldl (fun a x =>
    addSums a (s.dot j.n (Step.mfirst j.w + b * sl + x) j.w (s.driven j (b * sl + x) ((s.cimVec j k).getD []))))
    (List.replicate (Step.outputs j.w) 0)

/-- An audited block whose last slice has been computed is judged (R187): a miss when an output with a non-zero weight
exceeds T_b. Groups are counted per macro. -/
def State.judgeAudit (s : State) (j : CimJob) (r : RStep) (m k : Nat) : State :=
  let sl := s.slicesOf j.w
  let b := (m - Step.mfirst j.w) / sl
  let cls := (s.classEntry j r.aux k).getD 0
  let others := (List.range sl).map (fun x => Step.mfirst j.w + b * sl + x)
  if Step.predict j.w ≠ 2 ∨ bitsAt cls (4 * m) 3 ≠ 7 ∨
      others.all (fun y => let z := s.mac j.n y; decide (k < z.position) || (decide (z.position = k) && z.finalDue)) = false then s
  else
    let tb := s.bound j.q j.w
    let skip := s.skipValues j b (tb - 1)
    let miss := ((s.blockSums j b k).zip skip).any (fun v => decide (tb < v.1) && decide (v.2 = tb - 1))
    if miss = false then s
    else
      let s := s.tally (Off.tile j.n 0x718) sl
      let l := Step.layer j.w
      s.updReq j.i (fun q => { q with
        misses := q.misses + sl
        awlCounts := q.awlCounts.map (fun a => if a.1 = l then (a.1, a.2.1, a.2.2 + sl) else a) })

/-- The input vector an invocation takes: the one the insole buffer holds for it, or, where none has been read ahead, the vector as it
stands (R49). -/
def State.presented (s : State) (j : CimJob) (m k v : Nat) : InVec :=
  match (s.mac j.n m).insole.find? (fun h => decide (h.req = j.i) && decide (h.idx = j.idx) && decide (h.position = k) && decide (h.vec = v)) with
  | some h => h.values
  | none => (s.cimVec j (k * Step.count1 j.w + v)).getD []

/-- The vector of a macro's invocation as the insole buffer holds it. -/
def CimJob.hold (j : CimJob) (k v : Nat) (x : InVec) : HeldVec := { req := j.i, idx := j.idx, position := k, vec := v, values := x }

/-- The insole buffer of a macro once it has read ahead: the vector being invoked and the next (R49). -/
def State.readAhead (s : State) (j : CimJob) (r : RStep) (m k v : Nat) : State :=
  let cur := j.hold k v (s.presented j m k v)
  let next := match s.nextVec j k (v + 1) with
    | some x => some (k, x)
    | none => ((List.range (s.walked j r)).drop (k + 1)).findSome? (fun y =>
        if s.posPresent j y && invokes ((s.classEntry j r.aux y).getD 0) m then (s.nextVec j y 0).map (fun x => (y, x)) else none)
  let ahead := match next with
    | some (y, x) => [j.hold y x ((s.cimVec j (y * Step.count1 j.w + x)).getD [])]
    | none => []
  s.updMac j.n m (fun x => { x with insole := cur :: ahead })

/-- An invocation committed, or its vector passed over without one for want of a hit (R44, R47, R73, R138). The insole buffer lets its
vector go (R49). -/
def State.commit (s : State) (j : CimJob) (r : RStep) (m k v : Nat) : State :=
  let kk := m - Step.mfirst j.w
  let x := s.driven j kk (s.presented j m k v)
  let last := (s.nextVec j k (v + 1)).isNone
  let match_ := decide (Step.opcode j.w = Op.cimMatch)
  let y := s.mac j.n m
  let y := { y with insole := y.insole.drop 1 }
  if match_ && x.isEmpty then
    let s := s.tally (Off.tile j.n 0x524) 1
    let y := if Step.scatters j.w then { y with position := k + 1, inv := 0 }
      else { y with position := k, inv := v + 1, swapDue := last, finalDue := last, workTag := Step.tag j.w }
    (s.setMac j.n m y).judgeAudit j r m k
  else
    let s := if match_ then s.tally (Off.tile j.n 0x520) x.length else s
    let res := s.invResult j m v x y.work
    let s := if res.2 = 0 then s else (s.tally (Off.tile j.n 0x214) 1).tally (Off.tile j.n 0x218) res.2
    (s.setMac j.n m { y with
      work := res.1, workTag := Step.tag j.w, count := y.count + 1, termsK := y.termsK + 1
      position := k, inv := v + 1
      swapDue := last || decide (Step.spill j.w ≤ y.count + 1)
      finalDue := last }).judgeAudit j r m k

/-- Whether an attempt of an invocation meets a mismatch (R51, R65): a plane it applies has a check other than 0. The planes left out
by a bound stop are not checked (R62); a macro that no row or weight of the vector drives is not invoked. -/
def State.mismatch (s : State) (j : CimJob) (m k v attempt : Nat) (l : List Transient) : Bool :=
  let x := s.driven j (m - Step.mfirst j.w) (s.presented j m k v)
  let left := (s.invResult j m v x (s.mac j.n m).work).2
  let gap := if Step.transpose j.w then s.colGap j.n m else s.rowGap j.n m
  let gaps := (x.filter (fun d => decide (d.2 ≠ 0))).map (fun d => (d.1, d.2, gap d.1))
  !(decide (Step.opcode j.w = Op.cimMatch) && x.isEmpty) &&
  ((List.range (Step.awidth j.w)).drop left).any (fun b =>
    let change := sumNat ((l.filter (fun t => decide (t.attempt = attempt) && decide (t.plane = b))).map (·.change))
    decide ((sumInt ((gaps.filter (fun d => (twos (Step.awidth j.w) d.2.1).testBit b)).map (fun d => d.2.2)) + change) % 65536 ≠ 0))

/-- The record of a mismatch that a replay follows (R53): the macro, and the words that its diagnosis corrected. -/
def State.fileMismatch (s : State) (j : CimJob) (m k : Nat) : State :=
  s.fileError [worldNum (s.tileSecure j.n)] (((ErrRec.ofReq .macCorrected j.q .ok).unit 1 j.n).details m k)

/-- The attempts of an invocation (R53 Table 3) and its commit. A pending scrub correction is applied at the first abandon point. -/
def State.invoke (s : State) (j : CimJob) (r : RStep) (m k v : Nat) (l : List Transient) : State :=
  let s := s.readAhead j r m k v
  if s.mismatch j m k v 1 l = false then s.commit j r m k v
  else
    let s := (((s.tally (Off.tile j.n 0x200) 1).fileMismatch j m 0).correctAll j.n m)
    if s.mismatch j m k v 2 l = false then s.commit j r m k v
    else
      let (s, c) := s.diagnose j.n m
      let s := s.fileMismatch j m c
      if s.mismatch j m k v 3 l then s.retireMacro j.n m (some (j.i, j.q)) else s.commit j r m k v

/-- The running CIM step that holds a macro. -/
def State.holder (s : State) (n m : Nat) : Option RStep :=
  let x := s.mac n m
  (s.tile n).running.find? (fun r => decide (x.step = some r.idx) && decide (x.workReq = r.req) && !r.finished)

/-- The next vector of a macro invoked, where its step has one for it. -/
def State.takeVector (s : State) (n m : Nat) (l : List Transient) : State :=
  match s.holder n m with
  | none => s
  | some r =>
    match s.req? r.req with
    | none => s
    | some q =>
      if 2 ≤ s.parkState ∨ (s.mac n m).swapDue = true then s
      else match s.jobOf n r q with
        | .error b => s.eyeBad n r.req (Step.layer r.w) b
        | .ok none => s
        | .ok (some j) => match s.nextWork j r m with
          | none => s
          | some (k, v) => s.invoke j r m k v l

/-- INVOCATION (R43, R51 to R55): the macro takes its next vector; `outcome` says what its physics does to it, the cells that have
changed first (log entry 11). -/
def execInvocation (tile macroIdx : Nat) (outcome : InvOutcome) (s : State) : Host.Outcome State Fault Refusal :=
  answer s ((s.upsets tile macroIdx outcome.upsets).takeVector tile macroIdx outcome.transients)

/-! ### WORKING_SET_SWAP (R47, R73, R86) -/

/-- The output position an input position sends tap group `t` to, of `hout` rows; none where it is dropped (R161). -/
def Rg.outPos (e hout : Nat) (cell : Nat × Nat) (t : Nat) : Option Nat :=
  let y := ((cell.1 + Rg.ph e : Nat) : Int) - ((t / Rg.kw e : Nat) : Int)
  let z := ((cell.2 + Rg.pw e : Nat) : Int) - ((t % Rg.kw e : Nat) : Int)
  let sh : Int := Rg.sh e
  let sw : Int := Rg.sw e
  if y < 0 ∨ z < 0 ∨ y % sh ≠ 0 ∨ z % sw ≠ 0 ∨ (hout : Int) ≤ y / sh ∨ (Rg.wout e : Int) ≤ z / sw then none
  else some ((y / sh).toNat * Rg.wout e + (z / sw).toNat)

/-- What a shadow set of a scattering step sends (R161, R163): one contribution per group of 64 channels, none for an
output outside the tensor. -/
def State.contributions (s : State) (j : CimJob) (m : Nat) (x : Macro) : List Contribution :=
  let w := j.w
  let kk := m - Step.mfirst w
  let per := Step.m w / Step.taps w
  let t := kk / per
  let b := kk % per / s.slicesOf w
  match Rg.outPos j.e (s.prog.hout (Step.layer w)) (j.cell x.shadowAt) t with
  | none => []
  | some p =>
    (List.range (Step.outputs w / 64)).map (fun g =>
      { dst := Step.scatterTile w, req := j.i, ord := j.q.order, layer := Step.layer w, position := p, group := b * (Step.outputs w / 64) + g,
        tag := x.shadowTag, limit := Step.spill w, sums := (x.shadow.drop (64 * g)).take 64 })

/-- The step a macro's shadow set belongs to, as a job without its input, which a drain does not need (R86). -/
def State.shadowJob (s : State) (n m : Nat) : Option CimJob :=
  let x := s.mac n m
  let w := x.shadowWord.toNat
  (s.req? x.shadowReq).map (fun q =>
    { n := n, idx := x.shadowIdx, i := x.shadowReq, q := q, w := w, e := s.entryOf (Step.src w), pat := [], seg := none, twin := none })

/-- The shadow set drained for its step, if its slot can take it and nothing of it has to wait at its sender (R493). -/
def State.drainShadow (s : State) (n m : Nat) : Option State :=
  let x := s.mac n m
  let clear := fun (s : State) => s.updMac n m Macro.clearShadow
  if x.shadow.isEmpty then some s
  else match s.shadowJob n m with
    | none => some (clear s)
    | some j =>
      if Step.scatters j.w then
        let l := s.contributions j m x
        if l.any (fun c => decide (c.dst ≠ n) && s.contribHeld c) then none
        else some (clear { s with mesh := { s.mesh with contribs := s.mesh.contribs ++ l } })
      else
        let b := (m - Step.mfirst j.w) / s.slicesOf j.w
        (s.drainTo j x.shadowAt b x.shadowTerms (if x.shadowFinal then x.shadow.length else 0) x.shadow).map (fun s =>
          clear (s.tally (Off.tile n 0x300) 1))

/-- The TERMS of a macro's working set: K for each invocation, where it belongs to block 0 (R74). -/
def State.workTerms (s : State) (j : CimJob) (m : Nat) : Nat :=
  if (m - Step.mfirst j.w) / s.slicesOf j.w = 0 then (s.mac j.n m).termsK * Step.k j.w else 0

/-- The TERMS of a balance-group member's partial sums, kept for its marker (R145). -/
def State.keepTerms (s : State) (j : CimJob) (m : Nat) : State :=
  if s.balanced j.w = false ∨ s.workTerms j m = 0 then s
  else s.updTile j.n (fun t => { t with memberTerms := t.memberTerms ++ [((j.i, j.idx), (s.mac j.n m).position, s.workTerms j m)] })

/-- The working set moved to the empty shadow set. A macro that no value of its position hit swaps a set of zeros (R138; DESIGN CHOICE,
log entry 68). A spill that falls on the last invocation of a position is its final drain (R73; DESIGN CHOICE, log entry 68). -/
def State.swapSets (s : State) (j : CimJob) (m : Nat) : State :=
  (s.keepTerms j m).updMac j.n m (fun x => { x with
    shadow := if x.work.isEmpty then List.replicate (Step.outputs j.w) 0 else x.work
    shadowTag := x.workTag
    shadowAt := x.position
    shadowFinal := x.finalDue && !s.balanced j.w
    shadowTerms := if s.balanced j.w then 0 else s.workTerms j m
    shadowReq := j.i, shadowIdx := j.idx, shadowWord := BitVec.ofNat 256 j.w
    work := [], count := 0, termsK := 0, swapDue := false
    position := if x.finalDue then x.position + 1 else x.position
    inv := if x.finalDue then 0 else x.inv
    finalDue := false })

/-- The shadow set drains if it holds sums; then a due swap of the step that holds the macro takes place and drains. -/
def State.swapMacro (s : State) (n m : Nat) (held : Option (RStep × CimJob)) : State :=
  match s.drainShadow n m with
  | none => s
  | some t => match held with
    | none => t
    | some (r, j) =>
      if (t.mac n m).swapDue ∧ t.live j.i = true then
        let u := (t.swapSets j m).letGo j r m
        (u.drainShadow n m).getD u
      else t

/-- What a working-set swap does for a macro; `stalls` are the arithmetic cycles lost. -/
def State.swapTurn (s : State) (n m stalls : Nat) : State :=
  let x := s.mac n m
  if 2 ≤ s.parkState ∨ (x.swapDue = false ∧ x.shadow = []) then s
  else match s.holder n m with
    | none => (s.tally (Off.tile n 0x31C) stalls).swapMacro n m none
    | some r =>
      match s.req? r.req with
      | none => s
      | some q => match s.jobOf n r q with
        | .error b => s.eyeBad n r.req (Step.layer r.w) b
        | .ok none => s
        | .ok (some j) => (s.tally (Off.tile n 0x31C) stalls).swapMacro n m (some (r, j))

/-- WORKING_SET_SWAP (R47, R73, R86): the working set of a macro that is due swaps and drains; a shadow set that has not drained, be it of
an earlier step, drains first. `stalls` are the arithmetic cycles lost (R77; log entry 13). -/
def execWorkingSetSwap (tile macroIdx stalls : Nat) (s : State) : Host.Outcome State Fault Refusal :=
  answer s (s.swapTurn tile macroIdx stalls)

end Sys2Proof.Machine
end

