-- ==== Sys2Proof/Machine/Scrub.lean ====
section
/-! DEFINITION. Scrub of the macros, their reload, the CIM weight window and the scratchpad's accesses (R37, R38, R56 to
R59, R67, R68, R218, R231, R232, R234, R447). -/

namespace Sys2Proof.Machine

/-! ### Scrub (R57 to R59) -/

/-- The macros of a tile that scrub covers: those not retired. R57 is silent on a retired one, which is neither scrubbed nor waited for (DESIGN
CHOICE, log entry 68). -/
def State.scrubbed (s : State) (n : Nat) : List Nat := (List.range 64).filter (fun m => !s.macRetired n m)

/-- One row of a macro counted as scrubbed; the macro's pass ends with its last row. The time of the last complete pass of
a macro marked for reload stands still (R59). -/
def Macro.rowRead (x : Macro) (now : Nat) : Macro :=
  let k := x.scrubRow + 1
  { x with scrubRow := k, scrubStart := if k % 256 = 0 ∧ x.reload = false then now else x.scrubStart }

/-- A tile's scrub pass complete (R57, R58): every macro has had its 256 rows read. MAC_SCRUB_LAST is set, SCRUB_CORRECTED
posted with the corrections of the pass, if there were any; R58 gives the count and no layout of the payload (a free value, log entry 10). -/
def State.endScrubPass (s : State) (n : Nat) : State :=
  let l := s.scrubbed n
  if l.all (fun m => decide (256 ≤ (s.mac n m).scrubRow)) = false then s
  else
    let c := sumNat (l.map (fun m => (s.mac n m).passCorr))
    let s := l.foldl (fun s m => s.updMac n m (fun x => { x with scrubRow := x.scrubRow % 256, passCorr := 0 })) s
    let s := s.setReg64 (Off.tile n 0x228) s.now
    let from_ := (l.map (fun m => (s.mac n m).scrubStart)).foldl min s.now
    let s := s.updTile n (fun t => { t with doneRuns := t.doneRuns.filter (fun r => decide (from_ ≤ r.1)) })
    if c = 0 then s
    else s.postEvent bothWorlds Ev.scrubCorrected 1 n (padTo 16 (Config.packEvent Ev.scrubCorrected [c]))

/-- The words of a row that scrub cannot correct (R59): counted; the macro is marked for reload, or, outside the active TILE_USE,
invalid. -/
def State.scrubFail (s : State) (n m k : Nat) : State :=
  if k = 0 then s else (s.tally (Off.tile n 0x210) k).markReload n m

/-- The next row of a macro read and checked (R57, R59): its words that cannot be corrected are dealt with, one that can be waits for
SCRUB_CORRECTION (R58). -/
def State.checkRow (s : State) (n m : Nat) : State :=
  let r := (s.mac n m).scrubRow % 256
  let x := s.cellRow n m r
  let s := s.scrubFail n m x.badWords
  s.updMac n m (fun y => { y.rowRead s.now with corr := if x.fixes.isEmpty ∨ y.corr.contains r = true then y.corr else y.corr ++ [r] })

/-- One row read by scrub. -/
def State.scrubRow (s : State) (n m : Nat) : State := (s.checkRow n m).endScrubPass n

/-- SCRUB_ROW_READ (R57): the next row of a macro; a correctable word waits for SCRUB_CORRECTION. `upsets` are the cells of the macro
that have changed by themselves (log entry 11). A napping tile is scrubbed by NAP_BURST_SCRUB (R388). -/
def execScrubRowRead (tile macroIdx : Nat) (upsets : List CellUpset) (s : State) : Host.Outcome State Fault Refusal :=
  answer s (
    let s := s.upsets tile macroIdx upsets
    if s.unbacked tile ∨ s.macRetired tile macroIdx = true ∨ (s.tile tile).sleep = .nap then s else s.scrubRow tile macroIdx)

/-- SCRUB_CORRECTION (R58): at the macro's next invocation boundary the rows whose correction is pending are written and verified; a
stuck cell's column takes a spare. -/
def execScrubCorrection (tile macroIdx : Nat) (s : State) : Host.Outcome State Fault Refusal :=
  answer s (s.correctAll tile macroIdx)

/-- A macro marked for reload rewritten (R59, R67): from the active image; a poisoned unit leaves it invalid (R246). -/
def State.reloadMacro (s : State) (n m : Nat) : State :=
  match s.activePass with
  | none => s
  | some p =>
    match s.weightSection p n with
    | none => s.writeMacro n m []
    | some x =>
      let t := if x.host then s else (s.ownReads [(p.base + x.offset + 0x4000 * m, min x.length (0x4000 * (m + 1)) - 0x4000 * m)]).1
      if t.imagePoisoned p.base x m then t.invalidate n m
      else t.writeMacro n m (((t.secBytes p.base x).drop (0x4000 * m)).take 0x4000)

/-- MACRO_RELOAD (R59): at the tile's next seam. -/
def execMacroReload (tile macroIdx : Nat) (s : State) : Host.Outcome State Fault Refusal :=
  answer s (if (s.mac tile macroIdx).reload = false ∨ s.inActiveUse tile = false ∨ s.atSeam tile = false ∨ s.parkState ≠ 0 then s
    else s.reloadMacro tile macroIdx)

/-! ### The CIM weight window (R37, R38, R68) -/

/-- Whether an address lies in a CIM weight window. -/
def inCimWindow (a : Nat) : Bool := decide (0x020100000000 ≤ a) && decide (a < 0x020140000000)

/-- The descriptor that made a refused access ends (R37, R38). -/
def State.endAccess (s : State) (req : Option Nat) (st : Status) (a : Nat) : State :=
  match req with
  | some i => s.failAccess i st a
  | none => s

/-- WEIGHT_WINDOW_WRITE (R37, R38, R68). -/
def execWeightWindowWrite (addr : Nat) (data : List Byte) (secure : Bool) (req : Option Nat) (s : State) :
    Host.Outcome State Fault Refusal :=
  answer s (if inCimWindow addr = false ∨ inCimWindow (addr + data.length - 1) = false then s
    else match s.writeLines secure data (linePieces addr data.length) with
      | (t, _, .refused st a) => t.endAccess req st a
      | (t, _, _) => t)

/-- WEIGHT_WINDOW_READ (R38): the cells, or zeros. -/
def execWeightWindowRead (addr len : Nat) (secure : Bool) (req : Option Nat) (s : State) : Host.Outcome State Fault Refusal :=
  answer s (if inCimWindow addr = false ∨ inCimWindow (addr + len - 1) = false then s
    else match s.readLines secure false (linePieces addr len) with
      | (t, bs, .refused st a) => (t.endAccess req st a).emit (.windowRead addr (padTo len bs))
      | (t, bs, _) => t.emit (.windowRead addr bs))

/-! ### Scratchpad accesses (R218, R231, R232, R234) -/

/-- A read that finds an error (R231, R232): a corrected weight-staging unit is filed and written back; an uncorrectable one,
or a word of bad parity, stays bad until it is overwritten. Repeated errors of a row bring in a spare (R447). -/
def State.spFound (s : State) (n off : Nat) (found : CheckOutcome) : State :=
  let w := (s.tile n).weightClass off
  match found with
  | .clean => s
  | .correctable =>
    if w then
      ((s.tally (Off.tile n 0x910) 1).fileError [worldNum (s.tileSecure n)]
        (((ErrRec.of .spCorrected).unit 1 n).details n (off / 0x10000))).rowError n off
    else s
  | .uncorrectable =>
    let bad := if w then (List.range 8).map (fun k => off / 32 * 32 + 4 * k) else [off / 4 * 4]
    (s.updTile n (fun t => { t with badUnits := (t.badUnits ++ bad).eraseDups })).rowError n off

/-- An error that no code corrects, met by an admitted access: it is counted and its request ends (R231, R232). -/
def State.spBad (s : State) (n off : Nat) (req : Option Nat) : State :=
  (s.tally (Off.tile n (if (s.tile n).weightClass off then 0x914 else 0x90C)) 1).endAccess req .faultUncorrected (spBase n + off)

/-- What the checks of some units or words find, in turn; one past the end of the list is clean. -/
def State.spFoundAll (s : State) (n : Nat) (units : List Nat) (found : List CheckOutcome) : State :=
  (units.zip found).foldl (fun s x => s.spFound n x.1 x.2) s

/-- An admitted read: its bytes, or nothing and the end of its request. -/
def State.spRead (s : State) (n off len : Nat) (req : Option Nat) (found : List CheckOutcome) : State :=
  let s := s.spFoundAll n ((s.tile n).checkUnits off len) found
  let a := spBase n + off
  if s.lineBad a len then s.spBad n off req
  else s.emit (.scratchRead a (s.memBytes a len))

/-- An admitted write: the units of the weight-staging class that it covers in part are read, corrected and merged first (R231). -/
def State.spStore (s : State) (n off : Nat) (bs : List Byte) (req : Option Nat) (found : List CheckOutcome) : State :=
  let s := s.spFoundAll n ((s.tile n).mergeUnits off bs.length) found
  let a := spBase n + off
  if s.mergeBad a bs.length then s.spBad n off req else s.storeLine a bs

/-- An access to a scratchpad (R218): a refused one changes nothing but its tallies and ends its request; an admitted one wakes a
sleeping tile (R388) and is performed; one to a closed range waits (R416). -/
def State.spAccess (s : State) (x : SpAccess) (waits : Nat) : State :=
  let a := spBase x.tile + x.off
  match s.toll x.secure false x.write false a x.len with
  | .wait => { s with mesh := { s.mesh with accesses := s.mesh.accesses ++ [x] } }
  | .admitted =>
    let s := (s.wakeTile x.tile).tally (Off.tile x.tile (0x940 + 4 * (x.off / 0x10000))) waits
    if x.write then s.spStore x.tile x.off (x.data.take x.len) x.req x.found else s.spRead x.tile x.off x.len x.req x.found
  | v => (s.countRefusal v x.secure 1 a).endAccess x.req v.status a

/-- SCRATCHPAD_ACCESS (R218). `found` is what the checks of the words and units it reads find, in turn (log entry 11), `waits` the cycles it
waited for its bank (R220; log entry 13). -/
def execScratchpadAccess (write : Bool) (tile off len : Nat) (data : List Byte) (secure : Bool) (req : Option Nat)
    (found : List CheckOutcome) (waits : Nat) (s : State) : Host.Outcome State Fault Refusal :=
  answer s (s.spAccess { write := write, tile := tile, off := off, len := len, data := data, secure := secure, req := req, found := found } waits)

/-- The accesses that waited for a range to open, in order (R416); what still waits stays. -/
def State.goOnAccesses (s : State) : State :=
  s.mesh.accesses.foldl (fun s x => s.spAccess x 0) { s with mesh := { s.mesh with accesses := [] } }

/-- All 256 rows of a macro read by scrub while it takes no invocation (R57 to R59): what is correctable is corrected at once. -/
def State.scanMacro (s : State) (n m : Nat) : State :=
  let s := (s.usedRows n m).foldl (fun s r => (s.scrubFail n m (s.cellRow n m r).badWords).correctPending n m r) s
  s.updMac n m (fun x => { x with scrubRow := x.scrubRow % 256 + 256, scrubStart := if x.reload then x.scrubStart else s.now })

/-- A complete scrub pass of a tile (R57, R388, R390). -/
def State.scrubTile (s : State) (n : Nat) : State :=
  ((s.scrubbed n).foldl (fun s m => s.scanMacro n m) s).endScrubPass n

end Sys2Proof.Machine
end

