-- ==== Sys2Proof/Machine/Wake.lean ====
section
/-! DEFINITION. What an access from outside does to a sleeping package, and the writes of the rings' registers (R269, R274, R291, R294, R390,
R391). -/

namespace Sys2Proof.Machine

/-! ### The end of Rest (R390) -/

/-- MS_WAKE_CAUSE: the cause and the EVT pins latched; the latches clear. -/
def State.noteWake (s : State) (cause : Nat) : State :=
  let pins := (List.range 8).filter (fun i => (s.evtPin i).latched)
  let s := s.setReg (Off.ms 0x2C) (2 ^ cause + 2 ^ 8 * ofSetBits pins)
  pins.foldl (fun s i => s.setEvtPin i { s.evtPin i with latched := false }) s

/-- The package awake again; the backed tiles are in Nap, their macros scrubbed. -/
def State.awaken (s : State) (cause : Nat) : State :=
  let s := s.noteWake cause
  let s := { s with sleep := { s.sleep with pkg := .awake, since := s.now, idleSince := s.now, stacksWoken := none } }
  ((s.passes.tileMap.map (·.1)).foldl (fun s n => (s.scrubTile n).updTile n (fun t => { t with sleep := .nap, sleepSince := s.now }))
    s).syncSleep

/-- A wake from Rest: every macro has completed a scrub pass. -/
def State.restWake (s : State) (cause : Nat) : State := if s.sleep.pkg = .rest then s.awaken cause else s

/-- An access of the host (cause 0) or the board controller (4): it ends Rest (R390); the host's restarts the idle time of R389. -/
def State.accessed (s : State) (cause : Nat) : State := (if cause = 4 then s else s.noteTraffic).restWake cause

/-! ### What waits in Deep (R391) -/

/-- An access that arrives in Deep waits in order for the wake: the first 256 posted writes are held by the device, further ones, and requests
that are not posted, in the link (R391). -/
def State.holdAccess (s : State) (k : HeldKind) (off : Nat) (bs : List Byte) (secure : Bool) : State :=
  { s with sleep := { s.sleep with deepWrites := s.sleep.deepWrites ++ [{ kind := k, addr := off, data := bs, secure := secure }] } }

/-- A posted write of a BAR0 register: an access of the host, held while the package is in Deep (R391). A whole write of a 64-bit
register replaces a low half held for it (R483). -/
def State.posted (s : State) (off n v : Nat) (secure : Bool) (f : State → State) : State :=
  let s := if n = 8 then { s with holds := sdel s.holds off } else s
  if s.inDeep then s.noteTraffic.holdAccess .bar0 off (natLe n v) secure else f (s.accessed 0)

/-! ### Ring register rows -/

/-- SQ_ENABLE (R274): a write of SQ_CTRL with ENABLE set and ABORT clear. -/
def execSqEnable (ring : Nat) (value : Word) (secure : Bool) (s : State) : Host.Outcome State Fault Refusal :=
  answer s (s.when (value.getLsbD 0 && !value.getLsbD 1)
    (fun s => s.posted (Off.sq ring 8) 4 value.toNat secure (fun s => s.sqWorld ring secure 8 (fun s => s.writeSqCtrl ring value.toNat))))

/-- SQ_DISABLE (R274, R278): a write of SQ_CTRL with ENABLE and ABORT clear. -/
def execSqDisable (ring : Nat) (value : Word) (secure : Bool) (s : State) : Host.Outcome State Fault Refusal :=
  answer s (s.when (!value.getLsbD 0 && !value.getLsbD 1)
    (fun s => s.posted (Off.sq ring 8) 4 value.toNat secure (fun s => s.sqWorld ring secure 8 (fun s => s.writeSqCtrl ring value.toNat))))

/-- SQ_ABORT (R294): a write of SQ_CTRL with ABORT set. -/
def execSqAbort (ring : Nat) (value : Word) (secure : Bool) (s : State) : Host.Outcome State Fault Refusal :=
  answer s (s.when (value.getLsbD 1)
    (fun s => s.posted (Off.sq ring 8) 4 value.toNat secure (fun s => s.sqWorld ring secure 8 (fun s => s.writeSqCtrl ring value.toNat))))

/-- RING_ENABLE (R274): a write of the CTRL register of a ring the device writes, with ENABLE set. -/
def execRingEnable (ring : RingId) (value : Word) (secure : Bool) (s : State) : Host.Outcome State Fault Refusal :=
  answer s (s.when (value.getLsbD 0)
    (fun s => s.posted ring.ctrlOff 4 value.toNat secure (fun s =>
      s.ringWorld ring secure ring.ctrlOff (fun s => s.writeRingCtrl ring value.toNat))))

/-- RING_DISABLE (R274): a write of the CTRL register of a ring the device writes, with ENABLE clear. -/
def execRingDisable (ring : RingId) (value : Word) (secure : Bool) (s : State) : Host.Outcome State Fault Refusal :=
  answer s (s.when (!value.getLsbD 0)
    (fun s => s.posted ring.ctrlOff 4 value.toNat secure (fun s =>
      s.ringWorld ring secure ring.ctrlOff (fun s => s.writeRingCtrl ring value.toNat))))

/-- RING_HEAD_WRITE (R291): the cumulative count of entries software has consumed. -/
def execRingHeadWrite (ring : RingId) (value : Word) (secure : Bool) (s : State) : Host.Outcome State Fault Refusal :=
  answer s (s.posted ring.headOff 4 value.toNat secure (fun s =>
    s.ringWorld ring secure ring.headOff (fun s => s.writeRingHead ring value.toNat)))

/-- MSIX_COALESCE_TIMEOUT (R292): COAL_TIME µs after the first pending record the message goes out; COAL_TIME 0 sets
no limit. -/
def execMsixCoalesceTimeout (ring : RingId) (s : State) : Host.Outcome State Fault Refusal :=
  let c := s.coalOf ring
  let limit := match ring.coalOff with
    | some off => s.regBits off 0 16 * 1000
    | none => 0
  answer s (s.when (decide (0 < c.count) && decide (0 < limit) && decide (c.since + limit ≤ s.now))
    (fun s => (s.setCoal ring 0 0).sendMsix (ctrlVector (s.reg ring.ctrlOff))))

/-- MSIX_UNMASK (R269): a vector unmasked by a write of BAR0, or the function mask written over CXL.io; in Deep it is held (R391). -/
def execMsixUnmask (vector : Nat) (funcMask : Option Bool) (s : State) : Host.Outcome State Fault Refusal :=
  answer s (match funcMask with
    | some b => if s.inDeep then s.noteTraffic.holdAccess .config 0 [BitVec.ofNat 8 b.toNat] false else (s.accessed 0).setFuncMask b
    | none => s.posted (Off.msix vector 12) 4 0 false (fun s => s.unmaskVector vector))

end Sys2Proof.Machine
end

