-- ==== Sys2Proof/Machine/Links.lean ====
section
/-! DEFINITION. Irxia ports: flits and credits, roles, the map, attach, heartbeats, time (R336 to R349, R360). -/

namespace Sys2Proof.Machine

/-! ### This device and its ports -/

/-- IX_DEVICE: this device's number, and whether it has one. -/
def State.devNum (s : State) : Nat := s.regBits (Off.ix 4) 0 10
def State.mapped (s : State) : Bool := s.regBit (Off.ix 4) 12

/-- IXP_STATE of a port: 0 down, 1 training, 2 hello, 3 attached, 4 lost, 5 refused. -/
def State.ixState (s : State) (p : Nat) : Nat := s.regBits (Off.ixp p 0) 0 3
def State.setIxState (s : State) (p v : Nat) : State := s.setRegBits (Off.ixp p 0) 0 3 v

/-- The partner's device number, as IXP_PARTNER holds it. -/
def State.partnerNo (s : State) (p : Nat) : Nat := s.regBits (Off.ixp p 8) 0 10

/-- MAP_STATE of a device: state, depth, parent, parent port, ring ports (R360 Table 14). -/
def State.mapState (s : State) (d : Nat) : Nat := s.regBits (Off.map d 0) 0 2
def State.mapParent (s : State) (d : Nat) : Nat := s.regBits (Off.map d 0) 4 10
def State.ringPortsOf (s : State) (d : Nat) : Nat := s.regBits (Off.map d 0) 18 5

/-! ### Flits and credits (R337 to R339) -/

/-- Receive buffers of the four lanes (R339 Table 3). -/
def laneBuffer : List Nat := [128, 1024, 768, 128]

/-- A register of lane `v` of a port: GRANT, AVAIL, OUT, LOST, RELEASED, RX_FLITS, RX_DRAINED, RX_HELD at 0, 4, … 0x1C. -/
def Off.cred (p v k : Nat) : Nat := Off.ixp p (0x40 + 0x20 * v + k)

/-- The packet bytes of a lane that wait for credits. -/
def IxPort.waiting (x : IxPort) (v : Nat) : List Byte := x.txWait.getD v []

/-- Flits that so many packet bytes fill, packed one behind the other (R337). -/
def flitsFor (bytes : Nat) : Nat := (bytes + 239) / 240

/-- A flit (R337 Table 2): type and lane, sequence number, acknowledgement, the credits returned by lane, the payload in use, CRC-64. -/
def flitBytes (kind v seq ack : Nat) (credits : List Nat) (payload : List Byte) : List Byte :=
  let body := natLe 1 (kind + 4 * v) ++ natLe 2 seq ++ natLe 2 ack ++
    natLe 2 (sumNat ((List.range 4).map (fun l => 16 ^ l * min 15 (credits.getD l 0)))) ++ natLe 1 payload.length ++ padTo 240 payload
  body ++ natLe 8 (crc64 body).toNat

/-- The last sequence number received in order, which every flit acknowledges. -/
def IxPort.lastSeq (x : IxPort) : Nat := (x.rxSeq + 4095) % 4096

/-- The lanes of a port with one changed. -/
def IxPort.setWait (x : IxPort) (v : Nat) (bs : List Byte) : IxPort :=
  { x with txWait := (List.range 4).map (fun l => if l = v then bs else x.waiting l) }

/-- One flit of a lane sent on a credit: OUT grows, AVAIL falls, the replay buffer keeps the last 2,048. -/
def State.sendFlit (s : State) (p v : Nat) : State :=
  let x := s.port p
  let flit := flitBytes 1 v x.txSeq x.lastSeq [] ((x.waiting v).take 240)
  let y := x.setWait v ((x.waiting v).drop 240)
  ((s.setPort p { y with txSeq := (x.txSeq + 1) % 4096, replay := keepLast 2048 (x.replay ++ [(x.txSeq, flit)]) }).untally
    (Off.cred p v 4) 1).tally (Off.cred p v 8) 1

/-- So many flits of a lane sent. -/
def State.sendFlits (s : State) (p v : Nat) : Nat → State
  | 0 => s
  | n + 1 => (s.sendFlit p v).sendFlits p v n

/-- The waiting bytes of a lane sent while credits last. -/
def State.pumpLane (s : State) (p v : Nat) : State :=
  s.sendFlits p v (min (s.reg (Off.cred p v 4)) (flitsFor ((s.port p).waiting v).length))

/-- Packet bytes put behind those that wait on a lane; and sent as far as credits last. -/
def State.queueBytes (s : State) (p v : Nat) (bs : List Byte) : State :=
  let x := s.port p
  s.setPort p (x.setWait v (x.waiting v ++ bs))
def State.sendBytes (s : State) (p v : Nat) (bs : List Byte) : State := (s.queueBytes p v bs).pumpLane p v

/-- A packet whose layout the spec does not give, sent on a lane of a port: 0 heartbeat, 1 time, 2 open request, 3 its answer, 4 close notice,
5 its answer, 7 loss notice, 8 map update, 9 partition, 10 assignment, 11 power report, 12 barrier arrival, 13 barrier completion,
14 the end of an instance, 15 the header of a chunk, 16 group bitmap, 17 admission. -/
def ctlPacket (items : List Nat) : List Byte := padTo 32 (Config.packPacket items)
def State.sendCtl (s : State) (p v : Nat) (items : List Nat) : State := s.sendBytes p v (ctlPacket items)

/-- Whether a lane sends a packet at once: it holds a credit and nothing waits before it. -/
def State.laneFree (s : State) (p v : Nat) : Bool := decide (0 < s.reg (Off.cred p v 4)) && ((s.port p).waiting v).isEmpty

/-- The fields of a flit (R337 Table 2). -/
def Flit.kind (bs : List Byte) : Nat := bitsAt (fieldAt bs 0 1) 0 2
def Flit.vl (bs : List Byte) : Nat := bitsAt (fieldAt bs 0 1) 2 2
def Flit.seq (bs : List Byte) : Nat := fieldAt bs 1 2 % 4096
def Flit.ack (bs : List Byte) : Nat := fieldAt bs 3 2 % 4096
def Flit.credit (bs : List Byte) (v : Nat) : Nat := bitsAt (fieldAt bs 5 2) (4 * v) 4
/-- The payload in use: LEN bytes, 240 at most. -/
def Flit.payload (bs : List Byte) : List Byte := (bs.drop 8).take (min 240 (fieldAt bs 7 1))

/-- A dropped flit: the retry asks for the first sequence number the receiver lacks. -/
def State.askReplay (s : State) (p : Nat) : State :=
  (s.tally (Off.ixp p 0x1C) 1).emit (.replayRequest p (s.port p).rxSeq)

/-- A valid flit heard (R347), and what it acknowledges: those flits leave the replay buffer. -/
def State.hearFlit (s : State) (p : Nat) (bs : List Byte) : State :=
  let x := s.port p
  let behind := fun (q : Nat) => decide ((Flit.ack bs + 4096 - q) % 4096 < 2048)
  let s := s.setPort p { x with lastFlit := s.now, replay := x.replay.filter (fun q => !behind q.1) }
  if s.ixState p = 3 then s.restWake 2 else s

/-- The credits a flit carries taken. -/
def State.takeCredits (s : State) (p : Nat) (bs : List Byte) : State :=
  (List.range 4).foldl (fun s v =>
    let k := min (Flit.credit bs v) (s.reg (Off.cred p v 8))
    ((s.untally (Off.cred p v 8) k).tally (Off.cred p v 4) k).pumpLane p v) s

/-- The credit of a flit that has been passed on returned, in an IDLE flit of its own (R339; the spec says in which flit it returns no more
than that it is one: DESIGN CHOICE, log entry 33). Before the attach no credits are granted. -/
def State.returnCredit (s : State) (p v : Nat) : State :=
  let x := s.port p
  if s.ixState p = 3 then s.emit (.idleFlit p (flitBytes 0 0 x.txSeq x.lastSeq ((List.range 4).map (fun l => if l = v then 1 else 0)) []))
  else s

/-! ### Routes (R341 to R343) -/

/-- The device reached straight by a link, from those reached so far. -/
def nextDevs (links : List IxLink) (seen : List Nat) : List Nat :=
  (links.filterMap (fun l =>
    if seen.contains l.near && !seen.contains l.far then some l.far
    else if seen.contains l.far && !seen.contains l.near then some l.near
    else none)).eraseDups

/-- How many links a device lies away from those reached so far; none where no link leads there. -/
def hopsTo (links : List IxLink) (d : Nat) : Nat → Nat → List Nat → Option Nat
  | 0, n, seen => if seen.contains d then some n else none
  | k + 1, n, seen =>
    if seen.contains d then some n
    else
      let more := nextDevs links seen
      if more.isEmpty then none else hopsTo links d k (n + 1) (seen ++ more)

/-- Whether a port leads to the parent or, on a manager or sub-manager, to a child (R341); every other link is a cross link. -/
def State.childPort (s : State) (p : Nat) : Bool :=
  decide (s.ixState p = 3) && (s.isManager || s.isSub) && decide (s.mapState (s.partnerNo p) = 1) &&
  decide (s.mapParent (s.partnerNo p) = s.devNum) && decide (s.partnerNo p ≠ s.devNum)
def State.parentPort (s : State) (p : Nat) : Bool :=
  decide (s.ixState p = 3) && (match s.ix.uplink with
    | some u => decide (u = p) || (decide (s.ixState u = 3) && decide (s.partnerNo u = s.partnerNo p))
    | none => false)
def State.treePort (s : State) (p : Nat) : Bool := s.parentPort p || s.childPort p

/-- The ports that lead to a device and how far it lies behind each: only over ports and links of the packet's world, whatever their world
for a foreman's own packets (R343); control and management along the tree alone (R341). -/
def State.ways (s : State) (d : Nat) (world : Option Bool) (tree : Bool) : List (Nat × Nat) :=
  let fits := fun (w : Bool) => match world with
    | some x => x == w
    | none => true
  let links := s.ix.links.filter (fun l => fits l.secure && (l.tree || !tree) && decide (l.near ≠ s.devNum) && decide (l.far ≠ s.devNum))
  ((List.range 16).filter (fun p => decide (s.ixState p = 3) && fits (s.portSecure p) && (s.treePort p || !tree))).filterMap (fun p =>
    (hopsTo links d links.length 0 [s.partnerNo p]).map (fun h => (p, h)))

/-- The ports of the shortest routes, lowest first: the route table of R342, from the links as last told. A device that has been told none
yet sends up the tree. -/
def State.routePorts (s : State) (d : Nat) (world : Option Bool) (tree : Bool) : List Nat :=
  let l := s.ways d world tree
  match (l.map (·.2)).min? with
  | some m => (l.filter (fun x => decide (x.2 = m))).map (·.1)
  | none =>
    if s.ix.links.isEmpty ∧ s.isManager = false then
      (List.range 16).filter (fun p => s.parentPort p && (match world with
        | some x => x == s.portSecure p
        | none => true))
    else []

/-- The port by which control and management packets leave for a device: one fixed path (R342). -/
def State.routeTo (s : State) (d : Nat) (secure : Bool) : Option Nat := (s.routePorts d (some secure) true).head?
def State.foremanTo (s : State) (d : Nat) : Option Nat := (s.routePorts d none true).head?

/-- The ports by which data packets may leave for a device. -/
def State.dataPorts (s : State) (d : Nat) (secure : Bool) : List Nat := s.routePorts d (some secure) false

/-- The flits a lane of a port can still send beside what waits there. -/
def State.room (s : State) (p v : Nat) : Nat := s.reg (Off.cred p v 4) - flitsFor ((s.port p).waiting v).length

/-- The port a data packet takes (R342: spread adaptively): the one of its ports with the most room, the lowest of equals (DESIGN CHOICE, log
entry 33). -/
def State.roomiest (s : State) (l : List Nat) : Option Nat :=
  l.foldl (fun m p => match m with
    | some x => if s.room x 1 < s.room p 1 then some p else m
    | none => some p) none
def State.dataPort (s : State) (d : Nat) (secure : Bool) : Option Nat := s.roomiest (s.dataPorts d secure)

/-- A control packet towards a device. -/
def State.control (s : State) (d : Nat) (secure : Bool) (items : List Nat) : State :=
  match s.routeTo d secure with
  | some p => s.sendCtl p 0 items
  | none => s

/-- A foreman's packet towards a device, on the management lane. -/
def State.manage (s : State) (d : Nat) (items : List Nat) : State :=
  match s.foremanTo d with
  | some p => s.sendCtl p 3 items
  | none => s

/-- A foreman's packet to every child. -/
def State.toChildren (s : State) (items : List Nat) : State :=
  ((List.range 16).filter (fun p => s.childPort p && !s.parentPort p)).foldl (fun s p => s.sendCtl p 3 items) s

/-- Whether a device is attached, as far as this device knows (R350). -/
def State.peerAttached (s : State) (d : Nat) : Bool :=
  decide (d < 1024) && !s.ix.lost.contains d && decide (d ≠ s.devNum) &&
  (if s.isManager then decide (s.mapState d = 1)
   else s.ix.devices.contains d || (List.range 16).any (fun p => decide (s.ixState p = 3) && decide (s.partnerNo p = d)))

/-- Whether a packet's source has been declared lost, or shows an older incarnation than the one held for it (R342). -/
def State.staleSource (s : State) (d inc : Nat) : Bool :=
  s.ix.lost.contains d || decide (s.mapState d = 2) || decide (inc < sget (fun _ => 0) s.ix.incarnations d)

/-- A packet leaves by a port of its world on a route to its destination, a data packet by the one with the most room, or waits for one
(R342, R343). -/
def State.forwardOn (s : State) (f : FwdPacket) : State :=
  let world := if f.foreman then none else some f.secure
  let l := s.routePorts f.dst world (f.vl % 4 = 0 || f.vl % 4 = 3)
  match (if f.vl % 4 = 1 then s.roomiest l else l.head?) with
  | some p => ((s.tally (Off.ix 0x24) 1).emit (.forwarded p f.src)).sendBytes p (f.vl % 4) f.bytes
  | none => ({ s with ix := { s.ix with fwdHeld := s.ix.fwdHeld ++ [f] } }).tally (Off.ix 0x2C) 1

/-- A packet bound for another device: forwarded, held or discarded, and counted (R342). -/
def State.forward (s : State) (f : FwdPacket) : State :=
  let s := s.tally (Off.ix 0x20) 1
  if s.staleSource f.src f.incarnation then s.tally (Off.ix 0x28) 1 else s.forwardOn f

/-- The held packets looked at again: discarded where their source has become stale, sent where their port has come up. -/
def State.reviewHeld (s : State) : State :=
  let held := s.ix.fwdHeld
  held.foldl (fun s f => if s.staleSource f.src f.incarnation then s.tally (Off.ix 0x28) 1 else s.forwardOn f)
    ({ s with ix := { s.ix with fwdHeld := [] } }.untally (Off.ix 0x2C) held.length)

/-- FLIT_RECEIVED (R336 to R339, R342): `corrected` codewords were corrected for it; a flit that fails FEC or CRC, or that comes out of
order, is dropped, and no credit of it counts; a good one brings its credits, and a payload flit is passed on at once, its credit returned.
What its packets do is their own command. -/
def execFlitReceived (port : Nat) (bytes : List Byte) (corrected : Nat) (fecOk : Bool) (fwd : List FwdPacket) (s : State) :
    Host.Outcome State Fault Refusal :=
  answer s (
    if s.ixState port < 2 ∨ s.ixState port = 4 then s
    else
    let s := s.tally (Off.ixp port 0x20) corrected
    if fecOk = false then (s.tally (Off.ixp port 0x24) 1).askReplay port
    else if crc64 (bytes.take 0xF8) ≠ BitVec.ofNat 64 (fieldAt bytes 0xF8 8) then (s.tally (Off.ixp port 0x28) 1).askReplay port
    else
      let s := s.hearFlit port bytes
      if Flit.kind bytes = 0 ∨ Flit.kind bytes = 2 then s.takeCredits port bytes
      else if Flit.kind bytes = 3 ∨ Flit.seq bytes ≠ (s.port port).rxSeq then s
      else
        let v := Flit.vl bytes
        let x := s.port port
        let s := ((s.setPort port { x with rxSeq := (x.rxSeq + 1) % 4096 }).tally (Off.cred port v 0x14) 1).tally
          (Off.cred port v 0x18) 1
        let s := (s.takeCredits port bytes).emit (.delivered port v (Flit.payload bytes))
        (fwd.foldl (fun s f => s.forward f) s).returnCredit port v)

/-- REPLAY_REQ (R338): every flit from the number asked for is sent again in order, on the credit of its first sending. -/
def execReplayReq (port seq : Nat) (s : State) : Host.Outcome State Fault Refusal :=
  let again := (s.port port).replay.dropWhile (fun q => decide (q.1 ≠ seq % 4096))
  answer s (if again.isEmpty then s
    else again.foldl (fun s q => s.emit (.replayed port q.1)) (s.tally (Off.ixp port 0x1C) 1))

/-! ### Groups (R354, R356, R360 Table 15) -/

/-- The members of a group in ring order. -/
def State.groupMembers (s : State) (g : Nat) : List Nat :=
  (List.range 1024).filter (fun d => s.regBit (Off.grp g (4 * (d / 32))) (d % 32))

/-- The member after another in the ring, and the one before. -/
def ringNext (l : List Nat) (d : Nat) : Nat := (l.find? (fun x => decide (d < x))).getD (l.headD 0)
def ringPrev (l : List Nat) (d : Nat) : Nat := (l.reverse.find? (fun x => decide (x < d))).getD (l.getLastD 0)

/-- Ring ports of a member (R356): this device's from its own ports, another's from its map entry. -/
def State.ringPorts (s : State) (l : List Nat) (d : Nat) : Nat :=
  if d = s.devNum then
    ((List.range 16).filter (fun p => decide (s.ixState p = 3) &&
      (decide (s.partnerNo p = ringNext l d) || decide (s.partnerNo p = ringPrev l d)))).length
  else s.ringPortsOf d

/-- GRP_STATUS as the members stand. -/
def State.syncGroup (s : State) (g : Nat) (degraded : Bool) : State :=
  let l := s.groupMembers g
  let least := match l.map (fun d => s.ringPorts l d) with
    | [] => 0
    | x :: r => r.foldl min x
  s.setReg (Off.grpStatus g) (min 16 least + 2 ^ 8 * degraded.toNat + 2 ^ 16 * l.length)

/-- Whether a group has lost a member (R358). -/
def State.degraded (s : State) (g : Nat) : Bool := s.regBit (Off.grpStatus g) 8

/-- GRP_STATUS of every group that has members, after ports have come or gone. -/
def State.syncGroups (s : State) : State :=
  ((List.range 256).filter (fun g => decide (s.reg (Off.grpStatus g) ≠ 0))).foldl (fun s g => s.syncGroup g (s.degraded g)) s

/-! ### Roles (R340) -/

/-- A port in hello whose partner is a confirmed manager stays REFUSED on a confirmed manager (R340). -/
def State.refuseManagers (s : State) : State :=
  if s.isManager = false then s
  else ((List.range 16).filter (fun p => decide (s.ixState p = 2) &&
    (((s.port p).partner.map (fun h => h.manager && h.confirmed)).getD false))).foldl (fun s p => s.setIxState p 5) s

/-- A write of IX_ROLE (R340, R360 Table 11): ROLE and SUBMANAGER stored; with CONFIRM the role is confirmed where it equals the
strap. A write whose ROLE differs leaves it unconfirmed and files a ROLE record. A confirmed manager is device 0 (R341). -/
def State.writeRole (s : State) (v : Nat) : State :=
  let strap := s.regBit (Off.ix 0) 0
  let role := v.testBit 1
  let ok := role == strap
  let confirmed := ok && (v.testBit 2 || s.confirmed)
  let s := s.setReg (Off.ix 0) (strap.toNat + 2 * role.toNat + 8 * (v.testBit 3).toNat + 16 * confirmed.toNat)
  if ok = false then s.fileError bothWorlds (ErrRec.of .role)
  else if v.testBit 2 = true ∧ role = true then (s.setReg (Off.ix 4) (2 ^ 12)).refuseManagers
  else s

/-! ### Attach (R341, R344, R345, R348) -/

/-- SIGNAL_DETECT (R344): training begins; after secure boot only (R399). -/
def execSignalDetect (port : Nat) (s : State) : Host.Outcome State Fault Refusal :=
  answer s (if s.sec.stage = .booted ∧ (s.ixState port = 0 ∨ s.ixState port = 4) then s.setIxState port 1 else s)

/-- The hello of this device on a port (R2, R345 Table 5). -/
def State.ownHello (s : State) (p : Nat) : OwnHello where
  part := s.reg Off.idPart
  grade := s.reg Off.idGrade
  feature := s.sec.feature
  keyDigest := (List.range 8).flatMap (fun k => natLe 4 (s.reg (Off.sec (0x20 + 4 * k))))
  role := s.reg (Off.ix 0)
  portsUp := s.reg (Off.ix 0xC)
  port := p
  incarnation := s.clock.incarnation
  txLatency := (Config.portLatency p).1
  rxLatency := (Config.portLatency p).2
  loss := s.regBits (Off.ixp p 0x18) 0 16

/-- PORT_TRAINED (R344, R345, R474): the interface and the loss estimate stand; the port starts hellos. `lanes` is the order in which its lanes
arrive: straight or reversed; any other leaves the port untrained. -/
def execPortTrained (port iface loss : Nat) (lanes : List Nat) (s : State) : Host.Outcome State Fault Refusal :=
  answer s (
    if s.ixState port ≠ 1 ∨ (lanes ≠ [0, 1, 2, 3] ∧ lanes ≠ [3, 2, 1, 0]) then s
    else
      let x := s.port port
      let s := s.setPort port { IxPort.empty with trainedAt := s.now, lastFlit := s.now, partner := x.partner }
      let s := ((s.setIxState port 2).setRegBits (Off.ixp port 0) 4 2 iface).setRegBits (Off.ixp port 0x18) 0 16 loss
      s.emit (.hello (s.ownHello port)))

/-- The median of echoes (R345; DEDUCED, log entry 33: of an even count, the mean of the middle two, rounded down). -/
def median (l : List Nat) : Nat :=
  let t := sortNat l
  (t.getD ((t.length - 1) / 2) 0 + t.getD (t.length / 2) 0) / 2

/-- The fixed latencies of the two ends of a port. -/
def fixedLocal (p : Nat) : Nat := (Config.portLatency p).1 + (Config.portLatency p).2
def helloFixed (h : Hello) : Nat := h.txLatency + h.rxLatency

/-- The cable estimate in cm (R345): v is DELAY in 0.01 ns per metre. -/
def cableCm (rtt fixed delay : Nat) : Nat :=
  if delay = 0 ∨ rtt < fixed then Config.freeCable rtt else (rtt - fixed) * 10000 / (2 * delay)

/-- The 64 echoes measured: the round trip and the estimate stand in their registers. -/
def State.measure (s : State) (p : Nat) (h : Hello) : State :=
  let x := s.port p
  if x.rtts.length < 64 then s
  else
    let rtt := median (keepLast 64 x.rtts)
    (s.setReg (Off.ixp p 0x10) rtt).setReg (Off.ixp p 0x14)
      (cableCm rtt (fixedLocal p + helloFixed h) (s.regBits (Off.ixp p 4) 0 12))

/-- HELLO (R340, R345): the partner's items stored, an echo more measured; two confirmed managers stay REFUSED. -/
def execHello (port : Nat) (h : Hello) (s : State) : Host.Outcome State Fault Refusal :=
  answer s (
    if s.ixState port < 2 ∨ s.ixState port = 4 then s
    else
      let x := s.port port
      let s := s.setPort port { x with partner := some h, lastFlit := s.now, rtts := keepLast 64 (x.rtts ++ [h.echo]) }
      let s := s.setReg64 (Off.ixp port 8) (h.device % 1024 + 2 ^ 10 * (h.port % 16) + 2 ^ 14 * h.gradeB.toNat +
        2 ^ 15 * h.manager.toNat + 2 ^ 16 * (h.feature % 2 ^ 32))
      let s := (s.setRegBits (Off.ixp port 0x18) 16 16 h.loss).measure port h
      s.refuseManagers)

/-- A newer incarnation of a device noted; what is held of an older one is discarded (R348). -/
def State.noteIncarnation (s : State) (d inc : Nat) : State :=
  if sget (fun _ => 0) s.ix.incarnations d < inc then
    ({ s with ix := { s.ix with incarnations := sput (fun _ => 0) s.ix.incarnations d inc } }).reviewHeld
  else s

/-- The port attached (R339, R344): credits granted, the port ready, PARTNER_ATTACHED posted. -/
def State.attach (s : State) (p d : Nat) : State :=
  let s := s.setIxState p 3
  let s := (s.setRegBits (Off.ixp p 8) 0 10 d).setRegBit (Off.ixp p 0) 3 (decide (s.reg (Off.ixp p 0x10) * 100 ≤ 128 * 512))
  let s := (s.setRegBit (Off.ix 0xC) p true).tally (Off.ixp p 0x30) 1
  let s := (List.range 4).foldl (fun s v =>
    ((s.tally (Off.cred p v 0) (laneBuffer.getD v 0)).tally (Off.cred p v 4) (laneBuffer.getD v 0)).pumpLane p v) s
  let s := { s with ix := { s.ix with lost := s.ix.lost.filter (fun x => decide (x ≠ d)) } }
  (((s.setReady 5 p 1).postEvent bothWorlds Ev.partnerAttached 9 d (padTo 16 (Config.packEvent Ev.partnerAttached [d, p]))).reviewHeld).syncGroups

/-- A map entry as an attach gives it (R360 Table 14): state 1 attached, 3 refused. -/
def State.mapEntry (s : State) (d st : Nat) (a : Admit) : State :=
  (s.setReg (Off.map d 0) (st + 4 * (a.depth % 4) + 2 ^ 4 * (a.parent % 1024) + 2 ^ 14 * (a.parentPort % 16) +
    2 ^ 18 * (a.ringPorts % 32))).setReg (Off.map d 4)
    (a.gradeB.toNat + 2 ^ 4 * (a.chiplet % 1024) + 2 ^ 16 * (a.feature % 2 ^ 16))

/-- The numbers of the attached devices, the manager's own apart. -/
def State.attachedDevs (s : State) : List Nat := ((List.range 1024).drop 1).filter (fun d => decide (s.mapState d = 1))

/-- The number a new device gets (R341, R348): its former one where that is free, else the next that no device has had, else the
lowest not attached. -/
def State.nextNumber (s : State) (former : Nat) : Nat :=
  if former ≠ 0 ∧ s.mapState former ≠ 1 then former
  else if s.ix.lastNumber < 1023 then s.ix.lastNumber + 1
  else (((List.range 1024).drop 1).find? (fun d => decide (s.mapState d ≠ 1))).getD 0

/-- The map update of the manager (R342, R347, R348): what it knows of the system. -/
def State.mapNews (s : State) : MapNews where
  lost := (List.range 1024).filter (fun d => decide (s.mapState d = 2))
  devices := s.attachedDevs.map (fun d => (d, sget (fun _ => 0) s.ix.incarnations d))
  links := s.ix.links
  cut := false

/-- A map update sent to every child, which hands it on (R340, R347). -/
def State.sendNews (s : State) (n : MapNews) : State := (s.emit (.mapUpdate n)).toChildren (8 :: n.lost)

/-- Whether the hellos of a port are complete (R344 step 4): the partner's stored and 64 round trips measured. -/
def State.helloDone (s : State) (p : Nat) : Bool := (s.port p).partner.isSome && decide (64 ≤ (s.port p).rtts.length)

/-- The facts of a direct partner as its stored hello gives them (R345). -/
def State.fromHello (s : State) (p : Nat) (a : Admit) : Admit :=
  match (s.port p).partner with
  | some h => { a with gradeB := h.gradeB, chiplet := h.chiplet, feature := h.feature, incarnation := h.incarnation, port := h.port,
                       parent := s.devNum, parentPort := p, secure := s.portSecure p }
  | none => a

/-- The link of an attaching device. -/
def admitLink (a : Admit) (d : Nat) (tree : Bool) : IxLink :=
  { near := a.parent, nearPort := a.parentPort, far := d, farPort := a.port, secure := a.secure, tree := tree }

/-- A link entered, in place of an older one of the same port. -/
def State.addLink (s : State) (l : IxLink) : State :=
  { s with ix := { s.ix with links := s.ix.links.filter (fun x =>
      !(decide (x.near = l.near) && decide (x.nearPort = l.nearPort)) && !(decide (x.far = l.far) && decide (x.farPort = l.farPort))) ++ [l] } }

/-- The manager admits a device, or refuses one that would lie at depth 4 or be the 1,025th. A device that is attached already brings one
more link. Whatever it decides, it answers, and every device is told of the change (R342, R348). -/
def State.admitDevice (s : State) (p : Nat) (a : Admit) : State :=
  let direct := decide (a.depth = 1)
  let a := if direct then s.fromHello p a else a
  let full := decide (1023 ≤ s.attachedDevs.length)
  if a.number ≠ 0 ∧ s.mapState a.number = 1 then
    let s := s.addLink (admitLink a a.number (decide (s.mapParent a.number = a.parent)))
    let s := if direct then s.attach p a.number else s
    s.sendNews s.mapNews
  else if 4 ≤ a.depth ∨ full = true then
    let s := if direct then s.setIxState p 5 else s
    let s := if full then s else s.mapEntry (s.nextNumber a.number) 3 a
    (s.emit (.attachAnswer a.number true)).manage a.parent [17, a.number, 1]
  else
    let d := s.nextNumber a.number
    let s := (s.mapEntry d 1 a).noteIncarnation d a.incarnation
    let s := { s with ix := { s.ix with lastNumber := max s.ix.lastNumber d } }.addLink (admitLink a d true)
    let s := if direct then s.attach p d
      else
        let s := { s with ix := { s.ix with lost := s.ix.lost.filter (fun x => decide (x ≠ d)) } }
        s.postEvent bothWorlds Ev.partnerAttached 9 d (padTo 16 (Config.packEvent Ev.partnerAttached [d, p]))
    let s := (s.emit (.attachAnswer d false)).manage d [17, d, 0]
    s.sendNews s.mapNews

/-- A worker learns its own number by its port towards the manager, or attaches a partner that has one: a child, whose entry a
sub-manager keeps with all of its own subtree (R360), or a cross link. -/
def State.admitted (s : State) (p : Nat) (a : Admit) : State :=
  let own := !s.mapped || s.ix.uplink.isNone || decide (s.ix.uplink = some p)
  if a.refused then (if s.ixState p = 2 then s.setIxState p 5 else s)
  else if own then
    if s.ixState p ≠ 2 ∨ s.helloDone p = false then s
    else
      let s := (s.setReg (Off.ix 4) (a.number % 1024 + 2 ^ 10 * (a.depth % 4) + 2 ^ 12))
      ({ s with ix := { s.ix with uplink := some p, cut := false } }).attach p (s.partnerNo p)
  else
    let here := decide (s.ixState p = 2) && s.helloDone p
    let child := s.isSub && (decide (a.parent = s.devNum) || decide (s.mapState a.parent = 1))
    let s := s.noteIncarnation a.number a.incarnation
    let s := if child then s.mapEntry a.number 1 (if here then s.fromHello p a else a) else s
    if here then s.attach p a.number else s

/-- MAP_ADMIT (R341, R344, R348): on the manager its decision, on an attaching device its answer. A role not confirmed joins no
map (R340); a port is not admitted before its hellos are complete (R344). -/
def execMapAdmit (port : Nat) (a : Admit) (s : State) : Host.Outcome State Fault Refusal :=
  answer s (
    if s.confirmed = false then s
    else if s.isManager then
      (if a.depth = 1 ∧ (s.ixState port ≠ 2 ∨ s.helloDone port = false) then s else s.admitDevice port a)
    else s.admitted port a)

/-- HEARTBEAT_SEND (R347): on the control lane, with an echo for the round trip. -/
def execHeartbeatSend (port : Nat) (s : State) : Host.Outcome State Fault Refusal :=
  answer s (if s.ixState port ≠ 3 ∨ s.laneFree port 0 = false then s
    else ((s.setPort port { s.port port with lastBeat := s.now }).emit (.heartbeat port s.now)).sendCtl port 0 [0, s.now])

/-- The system time runs free at the nominal rate (R349, R384). -/
def State.runFree (s : State) : State :=
  let s := { (s.setReg (Off.ix 0x10) 0).setRegBits (Off.ms 0x10) 0 3 0 with clock := { s.clock with rate := nominalRate } }
  { s with ix := { s.ix with timeGood := 0, cut := true } }

/-- The partner of a port declared lost (R347): credits reclaimed, buffers flushed. Behind a lost uplink the time runs free at the nominal
rate (R384). -/
def State.losePort (s : State) (p : Nat) : State :=
  let s := (List.range 4).foldl (fun s v =>
    let out := s.reg (Off.cred p v 8)
    let av := s.reg (Off.cred p v 4)
    let held := s.reg (Off.cred p v 0x1C)
    (((((s.tally (Off.cred p v 0xC) out).tally (Off.cred p v 0x10) av).setReg (Off.cred p v 8) 0).setReg (Off.cred p v 4) 0).tally
      (Off.cred p v 0x18) held).setReg (Off.cred p v 0x1C) 0) s
  let s := s.setPort p { s.port p with replay := [], txWait := [] }
  let s := ((s.setIxState p 4).tally (Off.ixp p 0x2C) 1).setRegBit (Off.ix 0xC) p false
  let s := s.setReady 5 p 0
  (if s.ix.uplink = some p then s.runFree else s).syncGroups

/-- The children told that the path to the manager is broken (R349). -/
def State.tellCut (s : State) : State :=
  if s.isSub then s.sendNews { lost := s.ix.lost, devices := [], links := s.ix.links, cut := true } else s

/-- PARTNER_LOST (R347): the loss notice of an attached port goes to the manager; a port that was not attached goes down. -/
def execPartnerLost (port : Nat) (s : State) : Host.Outcome State Fault Refusal :=
  answer s (
    if s.ixState port = 1 ∨ s.ixState port = 2 ∨ s.ixState port = 5 then (s.setPort port IxPort.empty).setIxState port 0
    else if s.ixState port ≠ 3 then s
    else
      let d := s.partnerNo port
      let s := ((s.losePort port).emit (.lossNotice [d])).manage 0 [7, d]
      if s.ix.uplink = some port then s.tellCut else s)

/-! ### System time (R349) -/

/-- TIME_SEND (R349): the TIME packet of a manager, or of a sub-manager with a path to it, to the child at a port. Its stamp is that of its
leaving, so it goes when the lane is free. -/
def execTimeSend (port : Nat) (s : State) : Host.Outcome State Fault Refusal :=
  answer s (if (s.childPort port && !s.parentPort port) = false ∨ s.laneFree port 0 = false ∨ (s.isSub = true ∧ s.ix.cut = true) then s
    else (s.emit (.time port s.now)).sendCtl port 0 [1, s.now])

/-- Time stepped by a signed amount (R385): counted, its size recorded. -/
def State.stepTime (s : State) (e : Int) : State :=
  let t := ((s.clock.ns : Int) + e) % (2 ^ 64 : Int)
  (({ s with clock := { s.clock with ns := t.toNat } }).tally (Off.ms 0x18) 1).setReg64 (Off.ms 0x20) (twos 64 e)

/-- The rate word changed to remove an error, by at most 50 ppm (R349, R384). -/
def State.slewTime (s : State) (e : Int) : State :=
  let d := min (nominalRate / 20000) (Config.slew s.free)
  { s with free := s.free + 1, clock := { s.clock with
      rate := if e = 0 then s.clock.rate else if 0 < e then nominalRate + d else nominalRate - d } }

/-- The child's error in tenths of a nanosecond: stamp + d − local. -/
def State.timeError (s : State) (p stamp : Nat) : Int :=
  let h := (s.port p).partner
  let fixed := fixedLocal p + (match h with
    | some h => helloFixed h
    | none => 0)
  let tx := match h with
    | some h => h.txLatency
    | none => 0
  10 * ((stamp : Int) - s.clock.ns) + 5 * ((s.reg (Off.ixp p 0x10) : Int) - fixed) + 10 * tx + signedOf 16 (s.regBits (Off.ixp p 4) 16 16)

/-- TIME_PACKET (R349): from the parent; an error above 1 µs steps the time, a smaller one slews it; locked after three
consecutive packets within 5 ns. The register holds whole nanoseconds, rounded down (DEDUCED, log entry 33). -/
def execTimePacket (port stamp : Nat) (s : State) : Host.Outcome State Fault Refusal :=
  answer s (
    if s.ixState port ≠ 3 ∨ s.ix.uplink ≠ some port then s
    else
      let e := s.timeError port stamp
      let ns := e / 10
      let good := if e.natAbs ≤ 50 then s.ix.timeGood + 1 else 0
      let s := s.setReg (Off.ix 0x14) (twos 32 ns)
      let s := if 10000 < e.natAbs then s.stepTime ns else s.slewTime e
      let s := { s with ix := { s.ix with timeGood := good, cut := false } }
      let locked := decide (3 ≤ good)
      (s.setReg (Off.ix 0x10) ((if locked then 2 else 1) + 2 ^ 4 * port)).setRegBits (Off.ms 0x10) 0 3 (2 + 4 * locked.toNat))

end Sys2Proof.Machine
end

