-- ==== Sys2Proof/Machine/Moves.lean ====
section
/-! DEFINITION. The movers' descriptors: COPY, FILL, DIGEST, and FENCE and NOP (R280, R284, R490). -/

namespace Sys2Proof.Machine

/-- The numbers 0 to n - 1, as bytes of a payload repeated with period `d`. -/
def periodic (d n : Nat) (bs : List Byte) : List Byte := (List.range n).map (fun i => bs.getD (i % d) 0)

/-- The bytes a COPY stores, read in increasing address order (R284): where the destination begins inside the source,
the bytes before it repeat. -/
def copyPayload (src dst n : Nat) (bs : List Byte) : List Byte :=
  if ptrSpace src = ptrSpace dst ∧ ptrAddr src < ptrAddr dst ∧ ptrAddr dst < ptrAddr src + n then
    periodic (ptrAddr dst - ptrAddr src) bs.length bs
  else bs

/-- The lines of a destination beyond a refused source line: each holds old bytes, or the source's bytes where both
the source's lines and the destination line were admitted (R490; log entry 12). -/
def State.mixFrom (s : State) (secure : Bool) (src base : Nat) : List (Nat × Nat) → State
  | [] => s
  | (a, n) :: r =>
    let from_ := src + (a - base)
    let good := (linePieces from_ n).all (fun p => s.toll secure false false false p.1 p.2 = .admitted && !s.lineBad p.1 p.2)
    let s := if good ∧ s.toll secure false true false a n = .admitted ∧ s.mergeBad a n = false ∧ (Config.freeByte s.free).getLsbD 0 then
        match s.readLines secure false (linePieces from_ n) with
        | (t, bs, .none) => ((t.wakeAt a).snoopLine a).storeLine a bs
        | (t, _, _) => t
      else s
    ({ s with free := s.free + 1 }).mixFrom secure src base r

/-- The part of a destination range from `off` on, left undefined by a refusal (R490). -/
def State.undefinedRest (s : State) (secure : Bool) (dst off : Nat) (rest : List Byte) : State :=
  if ptrSpace dst = 1 then s
  else s.mixLines secure rest (linePieces (ptrAddr dst + off) rest.length)

/-- A move of `len` bytes: what it stored, and the refusal that stopped it or that it waits. A range closed by a
region change waits whole (R416). -/
def State.moveRange (s : State) (secure tableRead : Bool) (src dst len : Nat) : State × Nat × Stop :=
  match s.readRange secure tableRead src len with
  | (_, _, .waits) => (s, 0, .waits)
  | (s1, bs, st1) =>
    let pay := copyPayload src dst len bs
    match s1.writeRange secure dst pay with
    | (_, _, .waits) => (s, 0, .waits)
    | (s2, k, .refused st a) => (s2.undefinedRest secure dst k (pay.drop k), k, .refused st a)
    | (s2, k, .none) =>
      match st1 with
      | .refused st a =>
        let s3 := if ptrSpace dst = 1 ∨ ptrSpace src = 1 then s2
          else s2.mixFrom secure (ptrAddr src + k) (ptrAddr dst + k) (linePieces (ptrAddr dst + k) (len - k))
        (s3, k, .refused st a)
      | _ => (s2, k, .none)

/-- A mover's outcome ends its request, or leaves it to go on. -/
def State.endMove (s t : State) (i : Nat) (k : Nat) (st : Stop) : State :=
  match st with
  | .none => (t.begin_ i |>.progress i k).finishOk i k
  | .refused x a => t.stopMove i k x a
  | .waits => s.begin_ i

/-- COPY (R284). -/
def State.runCopy (s : State) (req : Nat) : State :=
  s.working req Dop.copy (fun s q =>
    match s.moveRange q.secure true (q.fld 0x10 8) (q.fld 0x18 8) (q.fld 0x20 4) with
    | (t, k, st) => s.endMove t req k st)

/-- FILL (R284): VALUE repeated, little-endian. -/
def State.runFill (s : State) (req : Nat) : State :=
  s.working req Dop.fill (fun s q =>
    let pay := periodic 8 (q.fld 0x20 4) (natLe 8 (q.fld 0x18 8))
    match s.writeRange q.secure (q.fld 0x10 8) pay with
    | (t, k, .refused x a) => s.endMove (t.undefinedRest q.secure (q.fld 0x10 8) k (pay.drop k)) req k (.refused x a)
    | (t, k, st) => s.endMove t req k st)

/-- DIGEST (R284): SHAKE256 over the range at SRC, 32 bytes written to OUT. A refusal at OUT ends it after every byte
has been hashed. -/
def State.runDigest (s : State) (req : Nat) : State :=
  s.working req Dop.digest (fun s q =>
    let n := q.fld 0x20 4
    match s.readRange q.secure false (q.fld 0x10 8) n with
    | (t, bs, .refused x a) => t.stopMove req bs.length x a
    | (_, _, .waits) => s.begin_ req
    | (t, bs, .none) =>
      match t.writeRange q.secure (q.fld 0x18 8) (shake256 bs) with
      | (u, _, .refused x a) => u.stopMove req n x a
      | (_, _, .waits) => s.begin_ req
      | (u, _, .none) => (u.updReq req (fun r => { r with digested := true })).finishOk req n)

/-- FENCE (R280): it completes once every earlier descriptor of its scope has completed; POSITION counts those it
waited for. -/
def execFence (req : Nat) (s : State) : Host.Outcome State Fault Refusal :=
  answer s (s.working req Dop.fence (fun s q =>
    let open_ := (s.earlier q).any (fun e => q.fences e.2)
    if open_ then s.begin_ req else s.finishOk req q.total))

/-- NOP (R284): it completes at once. -/
def execNop (req : Nat) (s : State) : Host.Outcome State Fault Refusal :=
  answer s (s.starting req Dop.nop (fun s _ => s.finishOk req 0))

end Sys2Proof.Machine
end

