-- ==== Sys2Proof/Machine/Slots.lean ====
section
/-! DEFINITION. Window slots at the issuer (R350, R351, R353): their registers, the copies pinned to them, closing. -/

namespace Sys2Proof.Machine

/-- The window and offset of a SPACE 2 pointer (R282). -/
def ptrWindow (p : Nat) : Nat := bitsAt p 40 8
def ptrOffset (p : Nat) : Nat := bitsAt p 0 40

/-! ### Slots (R350, R360 Table 13) -/

def State.winState (s : State) (w : Nat) : Nat := s.regBits (Off.win w 0) 0 2
def State.winEpoch (s : State) (w : Nat) : Nat := s.reg (Off.win w 4)
def State.winPeer (s : State) (w : Nat) : Nat := s.regBits (Off.win w 0) 4 10
def State.winSecure (s : State) (w : Nat) : Bool := s.regBit (Off.win w 0) 3
def State.setWinState (s : State) (w v : Nat) : State := s.setRegBits (Off.win w 0) 0 2 v

/-- The slot closed by the peer or its loss: CLOSED_BY_PEER set. -/
def State.winClosedByPeer (s : State) (w : Nat) : State := (s.setWinState w 0).setRegBit (Off.win w 0) 2 true

/-- The epoch after another: never 0 (R350). -/
def nextEpoch (e : Nat) : Nat := if e + 1 = 2 ^ 32 then 1 else e + 1

/-- The running requests of an opcode that name slot `w` in byte 8. -/
def State.slotReqs (s : State) (op w : Nat) : List Nat :=
  (s.reqs.filter (fun e => decide (e.2.opcode = op) && decide (e.2.phase = .running) && decide (e.2.fld 8 1 = w))).map (·.1)

/-- No route of the descriptor's own world: refused and counted (R343). -/
def State.noRoute (s : State) (i : Nat) : State := (s.tally (Off.ix 0x3C) 1).failReq i .faultWorld .world id

/-- The request a transaction is of, unless its entry has been taken by a later one. -/
def State.txnReq (s : State) (t : Txn) : Option Request := (s.req? t.req).filter (fun q => decide (q.order = t.order))

/-- Whether packets of a request await an answer. -/
def State.unanswered (s : State) (i : Nat) : Bool := s.ix.txns.any (fun t => decide (t.req = i) && (s.txnReq t).isSome)

/-- A REMOTE_COPY that has stopped ends once its packets have been answered; one that has sent all ends OK (R351 to R353). `wrote`
marks the stopped, `aux` counts the bytes sent. -/
def State.settleCopy (s : State) (i : Nat) : State :=
  match s.req? i with
  | none => s
  | some q =>
    if q.opcode ≠ Dop.remoteCopy ∨ q.phase ≠ .running ∨ s.unanswered i = true then s
    else
      let w := ptrWindow (if ptrSpace (q.fld 0x18 8) = 2 then q.fld 0x18 8 else q.fld 0x10 8)
      if q.wrote && q.stop.isNone then
        s.failReq i .faultWindowClosed .window (fun e => (e.unit 9 (s.winPeer w)).details (w + 2 ^ 32 * q.epoch) 0)
      else match q.stop with
        | some (st, a, k) => s.stopMove i (min k q.pos) st a
        | none => if q.aux = q.fld 0x20 4 then s.finishOk i (q.fld 0x20 4) else s

/-- A REMOTE_COPY learns of a refused line with `k` bytes below it (R490): it sends no more, and ends once what it has sent is answered; of
several the lowest counts. -/
def State.learnRefusal (s : State) (i : Nat) (st : Status) (a k : Nat) : State :=
  s.updReq i (fun r => { r with
    phase := if r.phase = .accepted then .running else r.phase
    stop := match r.stop with
      | some (x, b, j) => if k < j then some (st, a, k) else some (x, b, j)
      | none => some (st, a, k) })

/-- A REMOTE_COPY sends no more. -/
def State.stopCopy (s : State) (i : Nat) : State :=
  (s.updReq i (fun r => { r with wrote := true, phase := if r.phase = .accepted then .running else r.phase })).settleCopy i

/-- WINDOW_CLOSE completes when the target has answered the notice and every packet of the epoch has been answered or counted as
lost (R353). -/
def State.settleClose (s : State) (w : Nat) : State :=
  if s.winState w ≠ 3 ∨ s.ix.closeAnswered.contains w = false ∨
      s.ix.txns.any (fun t => decide (t.window = w) && decide (t.epoch = s.winEpoch w)) = true then s
  else
    let e := s.winEpoch w
    let s := ({ s with ix := { s.ix with closeAnswered := s.ix.closeAnswered.filter (fun x => decide (x ≠ w)) } }).setWinState w 0
    (s.slotReqs Dop.windowClose w).foldl (fun s i => s.finishOk i e) s

/-- The unfinished copies pinned to an epoch of a slot. -/
def State.liveCopies (s : State) (w e : Nat) : List Nat :=
  (s.reqs.map (·.1)).filter (fun k => match s.req? k with
    | some q => decide (q.opcode = Dop.remoteCopy) && decide (q.phase ≠ .finished) && decide (q.epoch = e) &&
      decide (ptrWindow (if ptrSpace (q.fld 0x18 8) = 2 then q.fld 0x18 8 else q.fld 0x10 8) = w)
    | none => false)

/-- A slot closed (R353): it turns closing, the copies pinned to it stop, the notice goes to the target. Without a route of its world the
descriptor ends (R343). -/
def State.closeWindow (s : State) (i : Nat) (q : Request) : State :=
  let w := q.fld 8 1
  let peer := s.winPeer w
  let e := s.winEpoch w
  if (s.routeTo peer q.secure).isNone then s.noRoute i
  else
    let s := (s.setWinState w 3).updReq i (fun r => { r with phase := .running, epoch := e })
    let s := (s.liveCopies w e).foldl (fun s i => s.stopCopy i) s
    (s.emit (.closeNotice peer w e)).control peer q.secure [4, w, e]

end Sys2Proof.Machine
end

