-- ==== Sys2Proof/Machine/Accept.lean ====
section
/-! DEFINITION. Acceptance and completion of a descriptor (R26, R175, R278 to R281, R286, R288 to R293, R297, R325, R330,
R410). -/

namespace Sys2Proof.Machine

/-- The lowest index free in a rising table. -/
def lowestFree {α : Type} : List (Nat × α) → Nat → Nat
  | [], k => k
  | (a, _) :: r, k => if a = k then lowestFree r (k + 1) else k

/-- TELEM_STALE and DIVERGED clear and a value of r at hand (R377). -/
def State.reconOk (s : State) : Bool :=
  !s.regBit (Off.pwr 8) 14 && !s.regBit (Off.pwr 8) 15 && s.power.haveR

/-- The request of a descriptor just taken (R278). -/
def State.newRequest (s : State) (f : Fetched) (desc : List Byte) : Request where
  ring := f.ring
  cq := sqCq (s.sqCtrl f.ring)
  num := f.num
  order := s.rings.orderNext
  desc := desc
  phase := .accepted
  status := .ok
  held := false
  pos := 0
  total := fieldAt desc 0x20 4
  lastMile := none
  mileMarks := 0
  gen := 0
  stream := none
  frame := 0
  key := false
  tilesLeft := []
  stepsDone := 0
  skipped := 0
  audited := 0
  misses := 0
  corrTiles := []
  varied := false
  digested := false
  digestA := []
  digestB := List.replicate 32 0
  layers := []
  energy := 0
  reconciled := s.reconOk
  epoch := 0
  awlDef := 0
  wrote := false
  aux := 0
  keepKey := false
  driftCfg := 0
  after := false
  guards := []
  moved := false
  layerDone := []
  rqDone := []
  scaleDone := []
  mags := []
  awlCounts := []
  dealt := []
  scaleTile := []
  fromGen := 0
  units := []
  stop := none
  lost := none

/-! ### Binding a RUN (R26, R165, R175, R286, R325, R410, R449) -/

/-- What a check of binding finds: the status, the reason, KIND and INDEX, DETAIL0 and DETAIL1. -/
structure BindFault where
  status : Status
  reason : Reason
  kind : Nat
  index : Nat
  d0 : Nat
  d1 : Nat
deriving DecidableEq, Repr

/-- A fault of binding with no unit. -/
def bindFault (st : Status) (d0 : Nat) : BindFault := ⟨st, st.reason, 0, 0, d0, 0⟩

/-- A request ends by a fault of binding. -/
def State.failBind (s : State) (i : Nat) (f : BindFault) : State :=
  s.failReq i f.status f.reason (fun e => (e.unit f.kind f.index).details f.d0 f.d1)

/-- The generation a RUN names does not bind under Table 7 of R26: not the active one without another activation
pending, nor a staged one with its activation pending. A generation is dropped once its DROP_PASS has taken effect (R29). -/
def State.genUnbound (s : State) (g : Nat) : Bool :=
  if g ≠ 0 ∧ g = s.genActive then s.passes.pending.any (fun a => decide (a.gen ≠ g))
  else !(s.staged g && s.actPending g)

/-- The first R286 rule a RUN's body breaks: the offset of the field. -/
def bodyBad (p : PassInfo) (prog : Prog) (q : Request) (frame : Option Nat) : Option Nat :=
  let noIn := (q.fld 0x34 4).testBit 0
  let noOut := (q.fld 0x34 4).testBit 1
  let bad := fun (h : Nat) => !p.tileUse.contains (hTile h) ||
    [Kind.none, Kind.ledger, Kind.circular].contains (Rg.kind (prog.entry h))
  let short := match frame with
    | some n => decide (q.fld 0x20 4 < n)
    | none => false
  firstBad
    [ (0x24, if noIn then decide (q.fld 0x24 2 ≠ 0) else bad (q.fld 0x24 2)),
      (0x34, !noIn && p.pixel),
      (0x20, if noIn then (!p.pixel && decide (q.fld 0x20 4 ≠ 0)) || (p.pixel && short)
             else decide (Rg.bytes (prog.entry (q.fld 0x24 2)) < q.fld 0x20 4)),
      (0x26, if noOut then decide (q.fld 0x26 2 ≠ 0) else bad (q.fld 0x26 2)),
      (0x28, noOut && decide (q.fld 0x28 8 ≠ 0)),
      (0x30, if noOut then decide (q.fld 0x30 4 ≠ 0)
             else decide (Rg.bytes (prog.entry (q.fld 0x26 2)) < q.fld 0x30 4)) ]

/-- Whether a world holds a working toe-heel unit, and a working digest engine (R410). -/
def State.holdsTh (s : State) (secure : Bool) : Bool :=
  (List.range 16).any (fun u => (s.thSecure u == secure) && !s.errs.thRetired.contains u)
def State.holdsEngine (s : State) (secure : Bool) : Bool :=
  (List.range 256).any (fun e => (s.engineSecure e == secure) && !s.errs.retiredEngines.contains (e / 64, e % 64))

/-- The faults of binding after the world check, Table 7 and the verge check, in order of their codes: they arise at one
tick, so the lower code ranks first (R293). -/
def State.bindFaults (s : State) (q : Request) (p : PassInfo) : List BindFault :=
  let prog := s.genProg p.gen
  let st := q.runStream
  let frame := match st with
    | some x => if p.pixel then some (s.streamFrame x) else none
    | none => none
  let needTh := prog.any (fun t => t.steps.any (fun w => decide (Step.opcode w = Op.toeheel)))
  let needEng := decide (q.fld 0x38 8 ≠ 0) || prog.any (fun t => t.steps.any (fun w => Step.digest w))
  let closed := match st with
    | some x => decide (s.streamState x ≠ 1)
    | none => false
  let small := match st with
    | some x => !closed && decide (s.ctx x Cx.generation 4 ≠ p.gen) && !s.areaHolds x p.gen
    | none => false
  let hold := if s.regBit (Off.err 0) 0 then s.retiredMacro prog else none
  (if needTh && !s.holdsTh q.secure then [⟨.faultNotReady, .notReady, 2, 0, 2, 0⟩] else []) ++
  (if needEng && !s.holdsEngine q.secure then [⟨.faultNotReady, .notReady, 3, 0, 3, 0⟩] else []) ++
  (if closed then [bindFault .faultNotReady 0] else []) ++
  (if small then [bindFault .faultPassGeneration p.gen] else []) ++
  (if p.vary && !q.allowVary then [bindFault .faultVaryNotAllowed 0] else []) ++
  (match bodyBad p prog q (if closed then none else frame) with
   | some o => [bindFault .faultDescriptor o]
   | none => []) ++
  (match hold with
   | some m => [⟨.faultDevice, .retiredUnit, 1, m.1, m.2, 0⟩]
   | none => [])

/-- A RUN is bound to its generation and its stream, or refused. -/
def State.bindRun (s : State) (i : Nat) (q : Request) : State :=
  let g := q.fld 8 4
  let st := q.runStream
  let other := (match s.slotOf g with
      | some e => e.2.secure != q.secure
      | none => false) ||
    (match st with
      | some x => s.streamOther x q.secure
      | none => false)
  if other then s.failReq i .faultWorld .world id
  else match s.slotOf g with
    | none => s.failBind i (bindFault .faultPassGeneration g)
    | some (_, p) =>
      if s.genUnbound g then s.failBind i (bindFault .faultPassGeneration g)
      else if s.areaSize 3 / 1024 < p.vergeNeed then s.neverReady i 0 0
      else match s.bindFaults q p with
        | f :: _ => s.failBind i f
        | [] =>
          let cfg := s.reg (Off.awl 0)
          let n := sumNat ((s.genProg g).map (fun t => t.steps.length))
          let s := s.updReq i (fun r => { r with
            gen := g, total := n, awlDef := if st.isSome then 0 else bitsAt cfg 0 4 + 256 * bitsAt cfg 4 4 })
          match st with
          | some x => s.withContext i x (fun s => s.takeFrame i q x)
          | none => s

/-! ### The other opcodes at acceptance (R307, R310, R325, R350, R351, R358, R410, R445) -/

/-- A SPACE 1 image of a secure SAVE or RESTORE (R310). -/
def Request.secureToHost (q : Request) : Bool := q.secure && decide (ptrSpace (q.fld 0x10 8) = 1)

/-- Whether the first `n` bytes of a secure image would lie outside the regions of the secure world (R310; DEDUCED, log entry 67). -/
def State.imageOutside (s : State) (q : Request) (n : Nat) : Bool :=
  let a := ptrAddr (q.fld 0x10 8)
  q.secure && !coveredBy s.regions Region.secure (a + n) (s.regions.length + 1) a

/-- The RUNs that took frames of the stream a SAVE names after its acceptance; none of them completes before it (R302). -/
def State.laterFrames (s : State) (q : Request) : List Request :=
  (s.reqs.map (·.2)).filter (fun r => decide (r.opcode = Dop.run) && decide (r.stream = some q.object) && decide (q.order < r.order))

/-- The generation of a stream at the frame boundary of a SAVE (R302): before the first later RUN that moves it. -/
def State.savedGen (s : State) (q : Request) : Nat :=
  match ((s.laterFrames q).filter (·.moved)).foldl (fun (m : Option Request) r => match m with
      | some x => if r.order < x.order then some r else m
      | none => some r) none with
  | some r => r.fromGen
  | none => s.ctx q.object Cx.generation 4

/-- Bytes of the image a SAVE writes (R304 to R307); none where its object is not there. -/
def State.saveSize (s : State) (q : Request) : Option Nat :=
  if q.scope = 0 then
    if s.streamState q.object = 1 then
      some (0x2000 + roundUp 4096 (s.needFor (s.savedGen q) (s.streamFrame q.object)))
    else none
  else if q.scope = 1 then some 1576960
  else match s.slotOf q.object with
    | some (_, p) => some p.length
    | none => none

/-- Whether a SAVE or RESTORE names an object of the other world. -/
def State.saveOther (s : State) (q : Request) : Bool :=
  q.secureToHost ||
  (if q.scope = 0 then s.streamOther q.object q.secure
   else if q.scope = 1 then s.tileSecure q.object && !q.secure
   else match s.slotOf q.object with
     | some e => e.2.secure != q.secure
     | none => false)

/-- A window slot of the other world: one that is not closed (R350, R410). -/
def State.windowOther (s : State) (w : Nat) (secure : Bool) : Bool :=
  decide (s.regBits (Off.win w 0) 0 2 ≠ 0) && (s.regBit (Off.win w 0) 3 != secure)

/-- REMOTE_COPY is pinned to its window's epoch, or refused (R351). -/
def State.bindRemote (s : State) (i : Nat) (q : Request) : State :=
  let write := decide (ptrSpace (q.fld 0x18 8) = 2)
  let p := if write then q.fld 0x18 8 else q.fld 0x10 8
  let w := ptrWindow p
  let st := s.regBits (Off.win w 0) 0 2
  if s.windowOther w q.secure then s.failReq i .faultWorld .world id
  else if st = 0 ∨ st = 3 then
    s.failReq i .faultWindowClosed .window (fun e => (e.unit 9 (s.regBits (Off.win w 0) 4 10)).details (w + 2 ^ 32 * s.reg (Off.win w 4)) 0)
  else if s.regBits (Off.win w 0) 14 2 / (if write then 2 else 1) % 2 = 0 then s.failReq i .faultWorld .world id
  else if s.reg64 (Off.win w 0x10) < ptrOffset p + q.fld 0x20 4 then
    s.failReq i .faultDescriptor .descriptor (fun e => e.details (if write then 0x18 else 0x10) 0)
  else s.updReq i (fun r => { r with epoch := s.reg (Off.win w 4) })

/-- A descriptor of a group that has lost a member ends (R358). -/
def State.failDegraded (s : State) (i g : Nat) : State :=
  let d := ((s.groupMembers g).find? (fun d => s.ix.lost.contains d)).getD 0
  s.failReq i .faultPartnerLost .partner (fun e => (e.unit 9 d).details d 0)

/-- A TEST of the other world: a secure kind on a non-secure ring, or a target of the other world (R445). -/
def State.testOther (s : State) (q : Request) : Bool :=
  let k := q.fld 8 1
  let t := q.fld 0x0C 4
  (decide (k = 3) || decide (k = 5)) && !q.secure ||
  (decide (t ≠ 0xFFFFFFFF) && (
    ((decide (k = 0) || decide (k = 3)) && (s.tileSecure t != q.secure)) ||
    (decide (k = 1) && (s.thSecure t != q.secure))))

/-- The 2 MiB units of HBM of a world (R413, R445). -/
def State.worldUnits (s : State) (secure : Bool) : List Nat :=
  (List.range (s.hbmEnd / 2 ^ 21)).filter (fun u => match s.areaOf (u * 2 ^ 21) with
    | some k => decide (5 ≤ k) && ((secure == decide (k = 6)))
    | none => match s.regionAt (u * 2 ^ 21) with
      | some v => Region.secure v == secure
      | none => !secure)

/-- The units a TEST covers, in order: kind of the unit (event KIND) and index. -/
def State.testUnits (s : State) (q : Request) : List (Nat × Nat) :=
  let t := q.fld 0xC 4
  let all := decide (t = 0xFFFFFFFF)
  let own := (List.range 1024).filter (fun n => s.tileSecure n == q.secure)
  let tiles := (own.filter (fun n => s.present n)).map (fun n => (1, n))
  match q.fld 8 1 with
  | 0 | 3 => if all then own.map (fun n => (1, n)) else [(1, t)]
  | 1 => if all then ((List.range 16).filter (fun u => s.thSecure u == q.secure)).map (fun u => (2, u)) else [(2, t)]
  | 2 => (((if all then List.range 4 else [t]).flatMap Eng.of).filter (fun e => (s.engineWorlds e).contains (worldNum q.secure))).map
    (fun e => (3, e))
  | 4 => tiles ++ (s.worldUnits q.secure).map (fun u => (0, u))
  | _ => (if all then [0, 1] else [t]).flatMap (fun tr => (s.spares tr).map (fun n => (1, 544 * tr + n)))

/-- The checks of acceptance by opcode. -/
def State.bindReq (s : State) (i : Nat) (q : Request) : State :=
  let op := q.opcode
  let otherGen := fun (g : Nat) => match s.slotOf g with
    | some e => e.2.secure != q.secure
    | none => false
  let world := s.failReq i .faultWorld .world id
  if op = Dop.run then s.bindRun i q
  else if op = Dop.loadPass then (if q.fld 0x0C 4 ≠ 0 ∧ otherGen (q.fld 0x0C 4) = true then world else s)
  else if op = Dop.dropPass then (if otherGen (q.fld 8 4) then world else s)
  else if op = Dop.streamOpen then
    (if s.streamOther q.streamNo q.secure || otherGen (q.fld 0x0C 4) then world else s)
  else if op = Dop.streamClose ∨ op = Dop.keyframe then (if s.streamOther q.streamNo q.secure then world else s)
  else if op = Dop.save then
    (if s.saveOther q then world
     else match s.saveSize q with
       | some n => if q.fld 0x18 8 < n then
           s.failReq i .faultDescriptor .descriptor (fun e => e.details 0x18 0) else s
       | none => s)
  else if op = Dop.restore then (if s.saveOther q then world else s)
  else if op = Dop.windowOpen then (if s.windowOther (q.fld 8 1) q.secure then world else s)
  else if op = Dop.windowClose then
    (if s.windowOther (q.fld 8 1) q.secure then world else if s.winState (q.fld 8 1) = 2 then s.closeWindow i q else s)
  else if op = Dop.remoteCopy then s.bindRemote i q
  else if op = Dop.collective then
    (if s.degraded (q.fld 0xA 2) then s.failDegraded i (q.fld 0xA 2)
     else if (q.fld 8 1 = 4 ∨ q.fld 8 1 = 5) ∧ q.allowVary = false then s.failReq i .faultVaryNotAllowed .vary id else s)
  else if op = Dop.barrier then (if s.degraded (q.fld 0xC 2) then s.failDegraded i (q.fld 0xC 2) else s)
  else if op = Dop.test then
    (if s.testOther q then world else s.updReq i (fun r => { r with units := s.testUnits q, total := (s.testUnits q).length }))
  else if op = Dop.fence then
    let n := (s.earlier q).filter (fun e => q.fences e.2)
    s.updReq i (fun r => { r with total := n.length })
  else s

/-! ### DESCRIPTOR_ACCEPT (R278, R283, R401) -/

/-- The opcodes management service accepts (R401). -/
def managed (op : Nat) : Bool := op == Dop.nop || op == Dop.fence || op == Dop.test

/-- The checks of an accepted descriptor: an unreadable one, its form, management only, its binding. -/
def State.checkReq (s : State) (i : Nat) (f : Fetched) : State :=
  match s.req? i with
  | none => s
  | some q =>
    if f.bad then
      (s.updReq i (fun r => { r with pos := f.num })).failReq i .faultUncorrected .uncorrected (fun e => e.details f.num 0)
    else match descCheck q.desc with
      | some o => s.failReq i .faultDescriptor .descriptor (fun e => e.details o 0)
      | none => if s.managementOnly && !managed q.opcode then s.neverReady i 0 0 else s.bindReq i q

/-- A fetched descriptor takes its entry and its reservation and moves SQ_HEAD. -/
def State.takeEntry (s : State) (f : Fetched) (i : Nat) : State :=
  let q := s.newRequest f (if f.bad then List.replicate 64 0 else f.bytes)
  let s := { s with rings := { s.rings with fetched := s.rings.fetched.erase f, orderNext := s.rings.orderNext + 1 } }
  (((s.setReq i q).tally (Off.sq f.ring 0x10) 1).tally (Off.sq f.ring 0x18) 1
    |>.tally (Off.cq q.cq 0x18) 1).tally Off.rqInuse 1

/-- What stands around the block when a descriptor is taken (R236, R246, R250, R282). -/
def State.surround (s : State) (e : Surroundings) : State :=
  let new := e.flips.filter (fun f => !s.hbm.poison.contains f.1 && !s.hbm.flips.any (fun g => decide (g.1 = f.1)))
  let s := { s with
    hostBad := e.hostBad
    hbm := { s.hbm with
      flips := s.hbm.flips ++ new
      eccReports := e.eccReports.foldl (fun t k => sput (fun _ => 0) t k (sget (fun _ => 0) t k + 1)) s.hbm.eccReports } }
  e.bridgeRetries.foldl (fun s c => s.tally (Off.cway c 0x14) 1) s

/-- DESCRIPTOR_ACCEPT (R278): the next fetched descriptor of a ring, in ring order. The lowest free request index is
taken (DESIGN CHOICE, log entry 21). -/
def execDescriptorAccept (ring : Nat) (env : Surroundings) (s : State) : Host.Outcome State Fault Refusal :=
  answer s (match s.rings.fetched.find? (fun f => decide (f.ring = ring)) with
    | none => s
    | some f =>
      let i := lowestFree s.reqs 0
      if s.parkState ≠ 0 ∨ 262144 ≤ i ∨ s.inDeep = true then s
      else ((s.surround env).takeEntry f i).checkReq i f)

/-! ### DESCRIPTOR_COMPLETION (R176, R290 to R294, R297, R330, R377) -/

/-- The kind of leaf a completing descriptor contributes (R330). -/
def Request.leafKind (q : Request) : Option Nat :=
  if q.opcode = Dop.run then (if q.fld 0x38 8 ≠ 0 then some 1 else none)
  else if q.opcode = Dop.streamOpen then some 2
  else if q.opcode = Dop.streamClose then some 3
  else if q.opcode = Dop.keyframe then some 4
  else if q.opcode = Dop.save ∧ q.scope = 0 then some 5
  else if q.opcode = Dop.restore ∧ q.scope = 0 then some 6
  else none

/-- Whether a leaf is due: a kind that contributes one while the world's provenance log is enabled. -/
def State.leafDue (s : State) (q : Request) : Bool :=
  q.leafKind.isSome && s.ringOn (.plog (worldNum q.secure))

/-- PROVENANCE of a RUN (R329), from IN_DIGEST; zero when INPUT was not read in full. -/
def State.provenance (s : State) (q : Request) : List Byte :=
  if q.digestA.isEmpty then List.replicate 32 0
  else
    let st := q.stream.isSome
    let inputs := shake256 (natLe 8 (q.fld 0x10 8) ++ natLe 4 (q.fld 0x0C 4) ++ natLe 8 (if st then q.frame else 0) ++
      natLe 1 (st && q.key).toNat ++ padTo 32 q.digestA ++ natLe 4 q.awlDef)
    match s.slotOf q.gen with
    | some (_, p) => shake256 (padTo 32 p.programDigest ++ padTo 32 p.weightsDigest ++ inputs ++ natLe 4 s.sec.feature ++ p.seed)
    | none => List.replicate 32 0

/-- The 160 bytes of a leaf with its PHASE 0 (R330 Table 6). -/
def State.leafBytes (s : State) (q : Request) (kind seq : Nat) : List Byte :=
  let st := q.errStream
  let run := decide (kind = 1)
  let frame := if run then q.frame else if kind = 4 then q.pos else s.ctx st Cx.frame 8
  let lay := if q.layers.isEmpty then List.replicate 32 0
    else shake256 ((sortNat (q.layers.map (·.1))).flatMap (fun l =>
      match q.layers.find? (fun e => decide (e.1 = l)) with
      | some e => natLe 2 l ++ e.2
      | none => []))
  padTo 160 (
    [BitVec.ofNat 8 kind, BitVec.ofNat 8 (q.varied.toNat + 2 * q.key.toNat)] ++ natLe 2 q.status.code ++
    natLe 2 q.ring ++ natLe 2 q.tag ++ natLe 8 seq ++ natLe 8 s.now ++ natLe 4 st ++
    natLe 4 (if run then q.gen else if kind = 2 ∨ kind = 6 then q.gen else 0) ++ natLe 8 frame ++
    natLe 4 (min q.skipped (2 ^ 32 - 1)) ++ natLe 2 (min q.audited 65535) ++ natLe 2 (min q.misses 65535) ++
    padTo 32 (if run then s.provenance q else if kind = 2 ∧ q.digestA.isEmpty then s.openDigest q [] else q.digestA) ++ padTo 32 q.digestB ++ padTo 32 lay)

/-- The scale records a failed frame left unfinished are marked complete (R176): no magnitude, its HISTORY slot 0; the counts the frame
left in its record are compared as those of any complete record (R115), for the tile that last updated it (R117). -/
def State.closeScales (s : State) (q : Request) (st : Nat) : State :=
  ((s.genProg q.gen).layers.filter (fun l => !q.scaleDone.contains l)).foldl (fun s l =>
    match s.scaleRec st l with
    | some a =>
      let t := s.skipHistory a
      if s.memNat (a + Srec.frame) 4 = q.frame % 2 ^ 32 then t.judgeDrift a st l q (layerGet q.scaleTile l) else t
    | none => s) s

/-- The audits and misses of a frame that ends with a fault taken out of the guard entries again (R191): it adds nothing to AUDITED and
MISSES. Those a comparison has cleared since stand in none, and GUARD never falls back. -/
def State.restoreGuards (s : State) (q : Request) : State :=
  q.guards.foldl (fun s e =>
    (s.setMemNat (e.1 + 4) 4 (s.memNat (e.1 + 4) 4 - e.2.1)).setMemNat (e.1 + 8) 4 (s.memNat (e.1 + 8) 4 - e.2.2)) s

/-- R176 for a frame that did not end with an OK code: a move it had yet to make is made, its records are closed, and every later RUN of
the stream ends with ABORTED. What this does for the frames behind it is done once: none of them does it again when it completes. -/
def State.failFrame (s : State) (q : Request) (st : Nat) : State :=
  let s := s.tallyCtx st Cx.failed 1
  let s := if q.moved then s.moveStream st q.gen else s
  if q.after then s.closeScales q st
  else
    let s := ((s.demandKey st).restoreGuards q).closeScales q st
    let later := s.reqs.filter (fun e => decide (e.2.stream = some st) && decide (q.order < e.2.order))
    let open_ := later.filter (fun e => decide (e.2.phase ≠ .finished))
    let s := (open_.foldl (fun s e => s.failReq e.1 .aborted .stream (fun x => x.details q.frame 0)) s).tally
      (Off.stream 0x38) open_.length
    later.foldl (fun s e => s.updReq e.1 (fun r => { r with after := true })) s

/-- What the end of a RUN does to its stream: the tallies and the key state of a frame that ended OK (R149, R155), or
R176 for one that did not. -/
def State.endFrame (s : State) (q : Request) (st : Nat) : State :=
  let s := s.setCtx st Cx.inflight 4 (2 ^ 32 - 1 + s.ctx st Cx.inflight 4)
  if q.status.isOk then
    let s := (s.tallyCtx st Cx.completed 1).setCtx st Cx.lastTime 8 s.now
    if q.key then
      let s := s.setCtx st Cx.keyCount 2 0
      if q.keepKey then s else s.setKeyPending st false
    else s.setCtx st Cx.keyCount 2 (min 65535 (s.ctx st Cx.keyCount 2 + 1))
  else s.failFrame q st

/-- The frames of a stream a failed frame comes after: its place in the scale history waits for them (R109, R176;
DEDUCED, log entry 19). -/
def State.framesBefore (s : State) (q : Request) (st : Nat) : Bool :=
  s.reqs.any (fun e => decide (e.2.stream = some st) && decide (e.2.order < q.order))

/-- The final record written, its ring's tallies moved, its message raised (R288, R290 to R292, R297). -/
def State.writeFinal (s : State) (i : Nat) (q : Request) : State :=
  let s := (s.pushEntry (.cq q.cq) (fun ph => s.recordBytes q false ph)).leaveRings q.ring q.cq q.irq
  { s with reqs := sdel s.reqs i }.passFences q

/-- The energy of a request moves from OPEN to ATTRIB (R377). -/
def State.closeEnergy (s : State) (q : Request) : State :=
  (s.setReg64 (Off.pwr 0x40) (2 ^ 64 - q.energy % 2 ^ 64 + s.reg64 (Off.pwr 0x40))).tally64 (Off.pwr 0x30) q.energy

/-- Everything the completion of a request does. -/
def State.completeReq (s : State) (i : Nat) (q : Request) : State :=
  let s := match q.stream with
    | some st => s.endFrame q st
    | none => s
  let s := match q.leafKind with
    | some k => if s.leafDue q then s.formLeaf (worldNum q.secure) (s.leafBytes q k) else s
    | none => s
  ((s.closeEnergy q).writeFinal i q)

/-- DESCRIPTOR_COMPLETION (R290): the final record of a request whose effects are visible. It waits for the link, for
leaf space (R331), and, of a failed frame, for the earlier frames of its stream and for
a SAVE or RESTORE that holds the stream (R302). -/
def execDescriptorCompletion (req : Nat) (s : State) : Host.Outcome State Fault Refusal :=
  answer s (match s.req? req with
    | none => s
    | some q =>
      if q.phase ≠ .finished ∨ s.link.up = false ∨ s.parkState = 2 then s
      else if s.leafDue q ∧ s.leafRoom (worldNum q.secure) = false then
        s.tally (Off.dig (worldNum q.secure) 0x20) 1
      else match q.stream with
        | some st => if q.status.isOk = false ∧ (s.framesBefore q st || s.behindHold q) = true then s else s.completeReq req q
        | none => s.completeReq req q)

end Sys2Proof.Machine
end

