-- ==== Sys2Proof/Machine/HostMem.lean ====
section
/-! DEFINITION. The host's accesses to HBM: BAR4, CXL.mem, and what waits for a range to open or for a wake (R241, R246, R247, R262,
R265, R390, R391, R416). -/

namespace Sys2Proof.Machine

/-- An access from the host in Rest wakes the stacks alone (R390). -/
def State.wakeStacks (s : State) : State :=
  if s.sleep.pkg = .rest then { s with sleep := { s.sleep with stacksWoken := some s.now } } else s

/-- The verdict on a line of a host access: HBM is all that BAR4 and CXL.mem map, so what lies beyond its end is out of range (R241). -/
def State.hostToll (s : State) (secure write : Bool) (a n : Nat) : Verdict :=
  if s.hbmEnd < a + n then .memRange else s.toll secure false write false a n

/-- The first line of a range that is not admitted, with its verdict. -/
def State.rangeVerdict (s : State) (secure write : Bool) (a n : Nat) : Option (Verdict × Nat) :=
  (linePieces a n).findSome? (fun p => match s.hostToll secure write p.1 p.2 with
    | .admitted => none
    | v => some (v, p.1))

/-- What the check of a unit read finds (R246): corrected, or poisoned. -/
def State.hbmFound (s : State) (a : Nat) (found : CheckOutcome) : State :=
  match found with
  | .clean => s
  | .correctable => s.correctUnit a
  | .uncorrectable => s.poisonUnit a

/-- The poisoned units of a range; each one met is counted. -/
def State.poisoned (s : State) (a n : Nat) : List Nat := (linePieces a n).filterMap (fun p =>
  if s.hbm.poison.contains (p.1 / 64) then some p.1 else none)
def State.countUncorr (s : State) (l : List Nat) : State := l.foldl (fun s a => s.countUncorrected a) s

/-- The lines of an admitted write; one that must merge a poisoned unit is lost and counted (R246). -/
def State.hostLines (s : State) (bs : List Byte) : List (Nat × Nat) → State
  | [] => s
  | (a, n) :: r =>
    let s := if s.mergesUnit a n then s.meet a n else s
    let s := if s.mergeBad a n then s.countUncorrected a else s.storeLine a (bs.take n)
    s.hostLines (bs.drop n) r

/-- The device address of a host access: an address below the HDM range lies beyond every range, as one above it does (R265). -/
def State.accessAddr (s : State) (x : HostAccess) : Nat :=
  if x.cxl then (x.addr + 2 ^ 64 - s.link.hdmBase) % 2 ^ 64 else x.addr

/-- An access kept until it may go on. -/
def State.keepAccess (s : State) (x : HostAccess) : State := { s with link := { s.link with waiting := s.link.waiting ++ [x] } }

/-- A refused access (R262, R265): counted; a read is answered as unsupported, or over CXL.mem with poison. -/
def State.refuseAccess (s : State) (x : HostAccess) (v : Verdict) (b : Nat) : State :=
  let s := (s.tally (Off.hl 0x10) 1).countRefusal v x.secure 0 b
  if x.write then s
  else if x.cxl then (s.tally (Off.hl 0x18) 1).emit (.cxlRead x.addr (List.replicate x.len 0) true)
  else s.emit (.bar4Unsupported x.addr)

/-- The answer to an admitted read: `found` is what the check of its first unit finds beside the changes that stand there. -/
def State.answerRead (s : State) (x : HostAccess) (a : Nat) : State :=
  let s := (s.hbmFound a x.found).meet a x.len
  let bad := s.poisoned a x.len
  if bad.isEmpty then s.emit (if x.cxl then .cxlRead x.addr (s.memBytes a x.len) false else .bar4Read x.addr (s.memBytes a x.len))
  else
    let s := s.countUncorr bad
    if x.cxl then (s.tally (Off.hl 0x18) 1).emit (.cxlRead x.addr (s.memBytes a x.len) true) else s.emit (.bar4Poison x.addr)

/-- Whether a posted write of BAR4 is not yet visible: it waits for a range to open. -/
def State.postedWaits (s : State) : Bool := s.link.waiting.any (fun x => x.write && !x.cxl && !x.door)

/-- An access of the host that reaches the device (R262, R265): it waits while the range is closed (R247, R416). A doorbell waits for the
posted writes before it (R268). -/
def State.hostAccess (s : State) (x : HostAccess) : State :=
  if x.door then (if s.postedWaits then s.keepAccess x else s.bar2Write x.addr x.len (leNat x.data) x.secure)
  else
  let a := s.accessAddr x
  match s.rangeVerdict x.secure x.write a x.len with
  | some (.wait, _) => s.keepAccess x
  | some (v, b) => s.refuseAccess x v b
  | none => if x.write then s.hostLines x.data (linePieces a x.len) else s.answerRead x a

/-- The accesses that waited, in order; what still waits stays. -/
def State.goOnHost (s : State) : State :=
  s.link.waiting.foldl (fun s x => s.hostAccess x) { s with link := { s.link with waiting := [] } }

/-- A write of BAR2 as it reaches the device, behind the posted writes before it (R268). -/
def doorbellAccess (off size value : Nat) (secure : Bool) : HostAccess :=
  { cxl := false, write := true, door := true, addr := off, len := size, data := natLe size value, secure := secure, found := .clean }

/-- DOORBELL (R268, R276, R390): a write of BAR2; in Deep it is held (R391). -/
def execDoorbell (off size : Nat) (value : DWord) (secure : Bool) (s : State) : Host.Outcome State Fault Refusal :=
  answer s (if s.inDeep then s.noteTraffic.holdAccess .bar2 off (natLe size value.toNat) secure
    else (s.accessed 0).hostAccess (doorbellAccess off size value.toNat secure))

end Sys2Proof.Machine
end

