-- ==== Sys2Proof/Machine/Windows.lean ====
section
/-! DEFINITION. Remote windows (R350 to R353): slots, packets, inbound entries. -/

namespace Sys2Proof.Machine

/-- WINDOW_OPEN (R350): a closed slot takes its next epoch and asks the target. -/
def execWindowOpen (req : Nat) (s : State) : Host.Outcome State Fault Refusal :=
  answer s (s.starting req Dop.windowOpen (fun s q =>
    let w := q.fld 8 1
    let peer := q.fld 0xA 2
    if s.winState w ≠ 0 then s.notReady req q 0 0
    else if s.peerAttached peer = false then s.notReady req q 9 peer
    else if (s.routeTo peer q.secure).isNone ∨ (s.dataPorts peer q.secure).isEmpty then s.noRoute req
    else
        let e := nextEpoch (s.winEpoch w)
        let s := s.setReg (Off.win w 0) (1 + 8 * q.secure.toNat + 2 ^ 4 * (peer % 1024) + 2 ^ 14 * (q.fld 9 1 % 4))
        let s := ((s.setReg (Off.win w 4) e).setReg64 (Off.win w 8) (q.fld 0x10 8)).setReg64 (Off.win w 0x10) (q.fld 0x18 8)
        let s := s.updReq req (fun r => { r with phase := .running, epoch := e })
        (s.emit (.openRequest peer w e (q.fld 0x10 8) (q.fld 0x18 8) (q.fld 9 1) q.secure)).control peer q.secure
          [2, w, e, q.fld 0x10 8, q.fld 0x18 8, q.fld 9 1, q.secure.toNat]))

/-! ### The issuer's copies (R351, R353) -/

/-- The bytes of a window packet (R351 Table 7). -/
def packetBytes (h : WinHdr) (kind : Nat) (data : List Byte) : List Byte :=
  natLe 1 kind ++ natLe 1 h.secure.toNat ++ natLe 2 h.src ++ natLe 2 h.dst ++ natLe 1 h.window ++ natLe 1 0 ++ natLe 4 h.epoch ++
  natLe 4 h.incarnation ++ natLe 8 h.offset ++ natLe 2 h.len ++ natLe 2 h.txn ++ natLe 4 0 ++ data

/-- One packet put on the data lane of a port: its header, its transaction, the slot's tallies (R351 Table 7, R353). -/
def State.sendPacket (s : State) (i : Nat) (q : Request) (port : Nat) (write : Bool) (w off n ptr : Nat) (data : List Byte) : State :=
  let h : WinHdr :=
    { secure := q.secure, src := s.devNum, dst := s.winPeer w, window := w, epoch := q.epoch, incarnation := s.clock.incarnation,
      offset := off, len := n, txn := s.ix.txnNext }
  let t : Txn := { txn := s.ix.txnNext, window := w, epoch := q.epoch, write := write, len := n, req := i, order := q.order, local_ := ptr }
  let kind := if write then 0x21 else 0x22
  let s := { s with ix := { s.ix with txns := s.ix.txns ++ [t], txnNext := (s.ix.txnNext + 1) % 65536 } }
  let s := if write then (s.tally (Off.win w 0x18) n).tally (Off.win w 0x28) n
    else (s.tally (Off.win w 0x2C) n).tally (Off.win w 0x3C) n
  ((s.updReq i (fun r => { r with aux := r.aux + n, phase := .running })).emit (.packet kind h data)).sendBytes port 1 (packetBytes h kind data)

/-- Whether a packet of so many bytes leaves whole on the credits that a port's data lane holds. -/
def State.roomFor (s : State) (p n : Nat) : Bool :=
  decide (flitsFor (((s.port p).waiting 1).length + n) ≤ s.reg (Off.cred p 1 4))

/-- The packets of a copy sent while credits last, each by the port with the most room (R342). A copy that finds no route of its world any
more sends no more (R343). -/
def State.sendPackets (s : State) (i w : Nat) : Nat → State
  | 0 => s
  | k + 1 =>
    match s.req? i with
    | none => s
    | some q =>
      let write := decide (ptrSpace (q.fld 0x18 8) = 2)
      let n := min 4096 (q.fld 0x20 4 - q.aux)
      if n = 0 then s
      else match s.dataPort (s.winPeer w) q.secure with
        | none => (s.tally (Off.ix 0x3C) 1).learnRefusal i .faultWorld (if write then q.fld 0x18 8 + q.aux else q.fld 0x10 8 + q.aux) q.aux
        | some p =>
          if s.roomFor p (32 + (if write then n else 0)) = false then s
          else if write then
            match s.readRange q.secure false (q.fld 0x10 8 + q.aux) n with
            | (_, _, .waits) => s
            | (t, bs, .refused st a) =>
              let m := bs.length
              (if m = 0 then t else t.sendPacket i q p true w (ptrOffset (q.fld 0x18 8) + q.aux) m (q.fld 0x10 8 + q.aux) bs).learnRefusal i st a (q.aux + m)
            | (t, bs, .none) =>
              (t.sendPacket i q p true w (ptrOffset (q.fld 0x18 8) + q.aux) n (q.fld 0x10 8 + q.aux) bs).sendPackets i w k
          else
            (s.sendPacket i q p false w (ptrOffset (q.fld 0x10 8) + q.aux) n (q.fld 0x18 8 + q.aux) []).sendPackets i w k

/-- REMOTE_COPY (R351, R353): pinned to its window's epoch, cut into packets; it ends once they have been answered. -/
def execRemoteCopy (req : Nat) (s : State) : Host.Outcome State Fault Refusal :=
  answer s (s.working req Dop.remoteCopy (fun s q =>
    let w := ptrWindow (if ptrSpace (q.fld 0x18 8) = 2 then q.fld 0x18 8 else q.fld 0x10 8)
    if q.wrote || q.stop.isSome then s.settleCopy req
    else if s.winEpoch w ≠ q.epoch ∨ s.winState w = 0 ∨ s.winState w = 3 then
      (if q.aux = q.fld 0x20 4 then s.settleCopy req else s.stopCopy req)
    else if s.winState w = 1 then s.notReady req q 0 0
    else if q.aux = 0 ∧ (s.dataPorts (s.winPeer w) q.secure).isEmpty = true then s.noRoute req
    else (s.sendPackets req w (q.fld 0x20 4 / 4096 + 1)).settleCopy req))

/-- WINDOW_CLOSE (R353): it took effect at its acceptance. One that waited for its slot to open closes it now; a slot that is not open has
nothing to close (DEDUCED, log entry 35). -/
def execWindowClose (req : Nat) (s : State) : Host.Outcome State Fault Refusal :=
  answer s (s.starting req Dop.windowClose (fun s q =>
    let w := q.fld 8 1
    if s.winState w = 1 then s.notReady req q 0 0
    else if s.winState w ≠ 2 then
      s.failReq req .faultWindowClosed .window (fun x => (x.unit 9 (s.winPeer w)).details (w + 2 ^ 32 * s.winEpoch w) 0)
    else s.closeWindow req q))

/-- The transaction a packet answers. -/
def State.txnOf (s : State) (h : WinHdr) : Option Txn :=
  s.ix.txns.find? (fun t => decide (t.txn = h.txn) && decide (t.window = h.window) && decide (t.epoch = h.epoch))

/-- A transaction answered leaves the list. -/
def State.dropTxn (s : State) (t : Txn) : State := { s with ix := { s.ix with txns := s.ix.txns.erase t } }

/-- Bytes of a live copy final. -/
def State.copied (s : State) (i n : Nat) : State :=
  match s.req? i with
  | some q => if q.phase = .running then s.progress i (q.pos + n) else s
  | none => s

/-- A packet whose SECURE flag is not the world of the port it came by (R407 Table 1) is refused and counted; it has no other effect
(DEDUCED, log entry 35). -/
def State.wrongPort (s : State) (h : WinHdr) (f : State) (portSecure : Bool) : State :=
  if h.secure = portSecure then f else s.countViolation h.secure 9 h.offset

/-- WINDOW_ANSWER (R351 to R353): an ACK or NACK_CLOSED moves its bytes; a NACK stops its copy. -/
def State.windowAnswer (s : State) (h : WinHdr) (ack : Bool) : State :=
  match s.txnOf h with
    | none => s
    | some t =>
      if ack = true ∧ t.write = false then s
      else
        let live := (s.txnReq t).isSome
        let s := s.dropTxn t
        let s := if t.write then (s.tally (Off.win t.window (if ack then 0x1C else 0x20)) t.len).untally (Off.win t.window 0x28) t.len
          else (s.tally (Off.win t.window 0x34) t.len).untally (Off.win t.window 0x3C) t.len
        if live = false then s.settleClose t.window
        else
          let s := if ack then s.copied t.req t.len else match s.req? t.req with
            | some q => if q.phase = .running then s.updReq t.req (fun r => { r with wrote := true }) else s
            | none => s
          (s.settleCopy t.req).settleClose t.window

def execWindowAnswer (h : WinHdr) (ack portSecure : Bool) (s : State) : Host.Outcome State Fault Refusal :=
  answer s (s.wrongPort h (s.windowAnswer h ack) portSecure)

/-- A window packet put aside while its range is closed (R416). -/
def State.holdPacket (s : State) (x : HeldPkt) : State := { s with ix := { s.ix with held := s.ix.held ++ [x] } }

/-- READ_DATA (R351): stored at the copy's destination; a refused line stops the copy (R490). -/
def State.readData (s : State) (h : WinHdr) (data : List Byte) : State :=
  match s.txnOf h with
    | none => s
    | some t =>
      if t.write then s
      else
        let counted := fun (s : State) => ((s.dropTxn t).tally (Off.win t.window 0x30) t.len).untally (Off.win t.window 0x3C) t.len
        match (s.txnReq t).filter (fun q => decide (q.phase = .running)) with
        | none => (counted s).settleClose t.window
        | some q =>
          let bs := data.take t.len
          match s.writeRange q.secure t.local_ bs with
          | (_, _, .waits) => s.holdPacket (.readData h data h.secure)
          | (u, k, .refused st a) =>
            let v := (counted (u.undefinedRest q.secure t.local_ k (bs.drop k))).copied t.req k
            ((v.learnRefusal t.req st a (t.local_ - q.fld 0x18 8 + k)).settleCopy t.req).settleClose t.window
          | (u, _, .none) => (((counted u).copied t.req t.len).settleCopy t.req).settleClose t.window

/-! ### The target's entries (R350, R352, R353) -/

/-- Whether the region table admits an issuer's world to a range below the end of HBM. -/
def State.peerAdmits (s : State) (secure : Bool) (base size : Nat) : Bool :=
  decide (base + size ≤ s.hbmEnd) &&
  coveredBy s.regions (fun v => if secure then Region.peerS v else Region.peerNs v) (base + size) (s.regions.length + 1) base

/-- WINDOW_OPEN_REQUEST (R350): admitted into a free inbound entry, or refused. -/
def execWindowOpenRequest (o : OpenReq) (portSecure : Bool) (s : State) : Host.Outcome State Fault Refusal :=
  answer s (
    let rest := s.ix.inbound.filter (fun e => !(decide (e.src = o.src) && decide (e.window = o.window)))
    let reply := fun (s : State) (st : Nat) => (s.emit (.openAnswer o.src o.window o.epoch st)).control o.src o.secure [3, o.window, o.epoch, st]
    if s.staleSource o.src o.incarnation then s
    else if o.secure ≠ portSecure ∨ s.peerAdmits o.secure o.base o.size = false then reply s Status.faultWorld.code
    else if 4096 ≤ rest.length then reply s Status.faultNotReady.code
    else
      let e : Inbound :=
        { src := o.src, window := o.window, epoch := o.epoch, incarnation := o.incarnation, base := o.base, size := o.size,
          access := o.access, secure := o.secure, opened := true }
      let s := { s with ix := { s.ix with inbound := rest ++ [e] } }
      reply (s.setReg (Off.ix 0x30) (rest.length + 1)) 0)

/-- Inbound entries closed by the target itself: each issuer is told (R353). -/
def State.closeInbound (s : State) (gone : Inbound → Bool) : State :=
  let l := s.ix.inbound.filter gone
  if l.isEmpty then s
  else
    let keep := s.ix.inbound.filter (fun e => !gone e)
    let s := ({ s with ix := { s.ix with inbound := keep } }).setReg (Off.ix 0x30) keep.length
    l.foldl (fun s e => (s.emit (.closeNotice e.src e.window e.epoch)).control e.src e.secure [4, e.window, e.epoch]) s

/-- The inbound windows the region table no longer admits closed (R353, R416). -/
def State.closeUnadmitted (s : State) : State := s.closeInbound (fun e => !s.peerAdmits e.secure e.base e.size)

/-- The entry that admits a packet, as it stands (R352): open with its epoch, for its incarnation and world. -/
def State.entryFor (s : State) (h : WinHdr) (portSecure : Bool) (right : Nat) : Option Inbound :=
  s.ix.inbound.find? (fun e => decide (e.src = h.src) && decide (e.window = h.window) && decide (e.epoch = h.epoch) &&
    decide (e.incarnation = h.incarnation) && e.opened && (e.secure == h.secure) && (h.secure == portSecure) &&
    e.access.testBit right && decide (h.offset + h.len ≤ e.size))

/-- A packet sent back to the issuer: an answer without data on the control lane, READ_DATA on the data lane. -/
def State.replyPacket (s : State) (kind : Nat) (h : WinHdr) (data : List Byte) : State :=
  let r : WinHdr := { h with src := s.devNum, dst := h.src }
  let s := s.emit (.packet kind r data)
  match (if kind = 0x23 then (s.dataPort h.src h.secure).map (·, 1) else (s.routeTo h.src h.secure).map (·, 0)) with
  | some (p, v) => s.sendBytes p v (packetBytes r kind data)
  | none => s

/-- The first line of a range that the toll check does not admitted, or whose merge meets a poisoned unit. -/
def State.firstRefused (s : State) (secure write : Bool) (a n : Nat) : Option (Verdict × Nat) :=
  (linePieces a n).findSome? (fun p =>
    let v := s.toll secure false write false p.1 p.2
    if v ≠ .admitted then some (v, p.1)
    else if (if write then s.mergeBad p.1 p.2 else s.lineBad p.1 p.2) then some (.admitted, p.1) else none)

/-- What the refusal of a line counts: a toll refusal (R415) or an uncorrectable detection (R246). -/
def State.countLine (s : State) (v : Verdict) (secure : Bool) (kind a : Nat) : State :=
  match v with
  | .admitted => s.tally (Off.cway (s.causewayOf a) 4) 1
  | v => s.countRefusal v secure kind a

/-- A write packet discarded: answered NACK_CLOSED, its bytes counted (R352). -/
def State.discardPacket (s : State) (h : WinHdr) : State := (s.tally (Off.ix 0x34) h.len).replyPacket 0x25 h []

/-- WINDOW_WRITE_PACKET (R352): stored whole and ACKed, or discarded. A line that the toll check refuses discards it too, as the
packet is stored whole or not at all (R415; DEDUCED, log entry 35). -/
def State.takeWrite (s : State) (h : WinHdr) (data : List Byte) (portSecure : Bool) : State :=
  match s.entryFor h portSecure 1 with
    | none => (if h.secure = portSecure then s else s.countViolation h.secure 9 h.offset).discardPacket h
    | some e =>
      match s.firstRefused h.secure true (e.base + h.offset) h.len with
      | some (.wait, _) => s.holdPacket (.write h data portSecure)
      | some (v, a) => (s.countLine v h.secure 9 a).discardPacket h
      | none =>
        match s.writeLines h.secure (data.take h.len) (linePieces (e.base + h.offset) h.len) with
        | (t, _, _) => t.replyPacket 0x24 h []

def execWindowWritePacket (h : WinHdr) (data : List Byte) (portSecure : Bool) (s : State) : Host.Outcome State Fault Refusal :=
  answer s (s.takeWrite h data portSecure)

/-- READ_REQ (R352): answered with READ_DATA, or NACK_CLOSED and no data. -/
def State.takeRead (s : State) (h : WinHdr) (portSecure : Bool) : State :=
  match s.entryFor h portSecure 0 with
    | none => (if h.secure = portSecure then s else s.countViolation h.secure 9 h.offset).replyPacket 0x25 h []
    | some e =>
      match s.firstRefused h.secure false (e.base + h.offset) h.len with
      | some (.wait, _) => s.holdPacket (.readReq h portSecure)
      | some (v, a) => (s.countLine v h.secure 9 a).replyPacket 0x25 h []
      | none =>
        match s.readLines h.secure false (linePieces (e.base + h.offset) h.len) with
        | (t, bs, _) => t.replyPacket 0x23 h bs

def execReadReq (h : WinHdr) (portSecure : Bool) (s : State) : Host.Outcome State Fault Refusal :=
  answer s (s.takeRead h portSecure)

/-- The packets that waited for a range to open, in order (R416); what still waits stays. -/
def State.goOnPackets (s : State) : State :=
  s.ix.held.foldl (fun s x => match x with
    | .write h data ps => s.takeWrite h data ps
    | .readReq h ps => s.takeRead h ps
    | .readData h data _ => s.readData h data) { s with ix := { s.ix with held := [] } }

/-- CLOSE_NOTICE (R353): from the issuer, the entry closes and the notice is answered; from the target, the issuer's slot is marked
CLOSED_BY_PEER. -/
def execCloseNotice (peer window epoch : Nat) (fromIssuer : Bool) (s : State) : Host.Outcome State Fault Refusal :=
  answer s (
    if fromIssuer then
      let keep := s.ix.inbound.filter (fun e =>
        !(decide (e.src = peer) && decide (e.window = window) && decide (e.epoch = epoch)))
      let secure := s.ix.inbound.any (fun e => decide (e.src = peer) && decide (e.window = window) && e.secure)
      let s := ({ s with ix := { s.ix with inbound := keep } }).setReg (Off.ix 0x30) keep.length
      (s.emit (.closeAnswer peer window epoch)).control peer secure [5, window, epoch]
    else if s.winState window = 2 ∧ s.winEpoch window = epoch ∧ s.winPeer window = peer then s.winClosedByPeer window
    else s)

/-- WINDOW_NOTICE_ANSWER (R350, R353): the target's answer opens the slot, or refuses the open, or ends the closing. -/
def execWindowNoticeAnswer (window epoch : Nat) (ok : Bool) (status : Nat) (s : State) : Host.Outcome State Fault Refusal :=
  answer s (
    if s.winEpoch window ≠ epoch then s
    else if s.winState window = 1 then
      let l := s.slotReqs Dop.windowOpen window
      if ok then l.foldl (fun s i => s.finishOk i epoch) (s.setWinState window 2)
      else
        let s := s.setWinState window 0
        l.foldl (fun s i =>
          if status = Status.faultNotReady.code then
            match s.req? i with
            | some q => if q.wait then s.setReq i { q with phase := .accepted } else s.notReady i q 9 (s.winPeer window)
            | none => s
          else s.failReq i .faultWorld .world id) s
    else if s.winState window = 3 then
      ({ s with ix := { s.ix with closeAnswered := window :: s.ix.closeAnswered.filter (fun x => decide (x ≠ window)) } }).settleClose window
    else s)

end Sys2Proof.Machine
end

