-- ==== Sys2Proof/Machine/Regions.lean ====
section
/-! DEFINITION. The region table and the world map (R408 to R416). -/

namespace Sys2Proof.Machine

/-! ### Region entries (R411, R412) -/

/-- The 2 MiB units of the HBM range and of the scratchpad range. -/
def hbmUnits : Nat := 0x60000
def spUnit : Nat := 0x100000
def spUnits : Nat := 0x400

/-- Whether two unit ranges meet. -/
def unitsMeet (a n b m : Nat) : Bool := decide (a < b + m) && decide (b < a + n)

/-- The reserved area whose units an entry meets without lying wholly inside the free part of area 5. -/
def State.meetsArea (s : State) (b n : Nat) : Bool :=
  let free := (s.areaBase 5 + 4 * gib + 384 * 2 ^ 20) / 2 ^ 21
  let inside := decide (free ≤ b) && decide (b + n ≤ (s.areaBase 5 + s.areaSize 5) / 2 ^ 21)
  !inside && (List.range 8).any (fun k => decide (0 < s.areaSize k) &&
    unitsMeet b n (s.areaBase k / 2 ^ 21) ((s.areaSize k + 2 ^ 21 - 1) / 2 ^ 21))

/-- Whether a write of entry `n` breaks a rule of R412. -/
def State.regionRefused (s : State) (n v : Nat) : Bool :=
  let b := Region.base v
  let k := Region.size v
  let hbm := decide (b + k ≤ hbmUnits)
  let sp := decide (spUnit ≤ b) && decide (b + k ≤ spUnit + spUnits)
  decide (bitsAt v 49 14 ≠ 0) || (Region.peerS v && !Region.secure v) ||
  (Region.valid v && (
    decide (k = 0) || decide (393216 < k) || (!hbm && !sp) ||
    s.writtenRegions.any (fun e => decide (e.1 ≠ n) && unitsMeet b k (Region.base e.2) (Region.size e.2)) ||
    (hbm && s.meetsArea b k) ||
    (sp && (List.range k).any (fun i => s.tileSecure (b - spUnit + i) != Region.secure v))))

/-- TOLL_STATUS: whether an entry changes, and which. -/
def State.syncToll (s : State) : State :=
  s.setReg (Off.sec 0x8C) (match s.sec.change with
    | c :: _ => 1 + 2 * c.n
    | [] => 0)

/-- A region entry written (R412, R416, R485): refused and counted, or read back at once; where it or its old value is valid the old
range closes until the change is done. -/
def State.writeRegion (s : State) (n v : Nat) : State :=
  if s.sec.change.any (fun c => decide (c.n = n)) || s.regionRefused n v then s.tally (Off.sec 0x88) 1
  else
    let old := s.region n
    let s := s.setReg64 (Off.region n) v
    if Region.valid old || Region.valid v then
      let c : RegionChange := { n := n, old := BitVec.ofNat 64 old, new := BitVec.ofNat 64 v }
      ({ s with sec := { s.sec with change := s.sec.change ++ [c] } }).syncToll
    else s

/-- REGION_WRITE (R412, R416). -/
def execRegionWrite (n : Nat) (value : DWord) (secure : Bool) (s : State) : Host.Outcome State Fault Refusal :=
  answer s (s.posted (Off.region n) 8 value.toNat secure (fun s =>
    s.secureOnly secure (Off.region n) (fun s => s.writeRegion n value.toNat)))

/-- Every line of a host-coherent unit back-invalidated (R266). -/
def State.snoopUnit (s : State) (u : Nat) : State :=
  let s := s.tally (Off.hl 0x1C) 32768
  { s with out := s.out ++ (List.range 32768).map (fun i => .backInvalidate (u * 32768 + i)) }

/-- The bytes of a range, given as a region value, that a test picks filled with zeros; lines of host-coherent units are
back-invalidated first, poison and invalid tags go with the old bytes. -/
def State.zeroRange (s : State) (v : Nat) (keep : Nat → Bool) : State :=
  let freed := fun (a : Nat) => Region.covers v a && keep a
  let units := (List.range (Region.size v)).map (fun i => Region.base v + i)
  let s := units.foldl (fun s u => if freed (u * 2 ^ 21) && decide (u < hbmUnits) && s.coherentUnit (u * 2 ^ 21) then
    s.snoopUnit u else s) s
  let healed := s.hbm.poison.filter (fun l => freed (64 * l))
  let s := healed.foldl (fun s l => s.untally (Off.cway (s.causewayOf (64 * l)) 8) 1) s
  let s := { s with
    mem := s.mem.filter (fun e => !freed e.1)
    hbm := { s.hbm with
      poison := s.hbm.poison.filter (fun l => !freed (64 * l)), flips := s.hbm.flips.filter (fun f => !freed (64 * f.1)) } }
  (units.filter (fun u => decide (spUnit ≤ u) && decide (u < spUnit + spUnits) && freed (u * 2 ^ 21))).foldl (fun s u =>
    (s.updTile (u - spUnit) (fun t => { t with badUnits := [] })).loseTags (u * 2 ^ 21) (2 ^ 21)) s

/-- The bytes of a secure range that no secure region covers any more filled with zeros (R416). -/
def State.zeroFreed (s : State) (v : Nat) : State :=
  s.zeroRange v (fun a => match s.regionAt a with
    | some e => !Region.secure e
    | none => true)

/-- REGION_CHANGE_DONE (R416): the oldest change: the fill, the new entry, the inbound windows no longer admitted. -/
def execRegionChangeDone (s : State) : Host.Outcome State Fault Refusal :=
  answer s (match s.sec.change with
    | [] => s
    | c :: rest =>
      let s := ({ s with sec := { s.sec with change := rest } }).syncToll
      let s := if Region.valid c.old.toNat && Region.secure c.old.toNat then s.zeroFreed c.old.toNat else s
      ((s.closeUnadmitted.goOnHost).goOnPackets).goOnAccesses)

/-! ### The world map (R408, R409, R412) -/

/-- WM_PENDING of a block. -/
def State.setPendingBit (s : State) (b : Nat) (v : Bool) : State := s.setRegBit (Off.sec (0x200 + 4 * (b / 32))) (b % 32) v

/-- Whether an entry covers a tile's window with another world (R412). -/
def State.entryForbids (s : State) (b : Nat) (secure : Bool) : Bool :=
  decide (b < 1024) && s.writtenRegions.any (fun e => Region.covers e.2 (spBase b) && (Region.secure e.2 != secure))

/-- One block's bit written: pending where the world changes. -/
def State.wantWorld (s : State) (b : Nat) (secure : Bool) : State :=
  let rest := s.sec.wantMap.filter (fun e => decide (e.1 ≠ b))
  if s.blockSecure b = secure then ({ s with sec := { s.sec with wantMap := rest } }).setPendingBit b false
  else if s.entryForbids b secure then s.tally (Off.sec 0x88) 1
  else ({ s with sec := { s.sec with wantMap := rest ++ [(b, secure)] } }).setPendingBit b true

/-- A word of the world map written (R409). -/
def State.writeWorldMap (s : State) (k v : Nat) : State :=
  (List.range (worldWord k).2).foldl (fun s i => s.wantWorld ((worldWord k).1 + i) (v.testBit i)) s

/-- WORLD_MAP_WRITE (R409, R412). -/
def execWorldMapWrite (word : Nat) (value : Word) (secure : Bool) (s : State) : Host.Outcome State Fault Refusal :=
  answer s (s.posted (Off.sec (0x100 + 4 * word)) 4 value.toNat secure (fun s =>
    s.secureOnly secure (Off.sec (0x100 + 4 * word)) (fun s => s.writeWorldMap word value.toNat)))

/-- Whether a block is idle (R409). -/
def State.blockIdle (s : State) (b : Nat) : Bool :=
  if b < 1024 then !s.inActiveUse b
  else if b < 1040 then decide (s.reg (Off.th (b - 1024) 0x10) = 0)
  else if b < 1056 then decide (s.ixState (b - 1040) ≠ 3)
  else !s.audit.digests.any (fun d => decide (d.engine = b - 1056))

/-- A tile's scratchpad and macros cleared (R409, R233, R68). -/
def State.wipeTile (s : State) (n : Nat) : State :=
  let s := (s.clearMem (spBase n) (spBase n + 0x180000)).writeWeights n [] []
  s.updTile n (fun t => { t with held := [], badUnits := [], dirty := true })

/-- WORLD_CHANGE_APPLY (R409): an idle pending block takes its new world, a tile after it has been cleared. -/
def execWorldChangeApply (block : Nat) (s : State) : Host.Outcome State Fault Refusal :=
  answer s (match s.sec.wantMap.find? (fun e => decide (e.1 = block)) with
    | none => s
    | some e =>
      if s.blockIdle block = false then s
      else
        let s := if block < 1024 then s.wipeTile block else s
        let s := s.setRegBit (worldPlace block).1 (worldPlace block).2 e.2
        ({ s with sec := { s.sec with wantMap := s.sec.wantMap.filter (fun x => decide (x.1 ≠ block)) } }).setPendingBit block false)

end Sys2Proof.Machine
end

