-- ==== Sys2Proof/Machine/Setup.lean ====
section
/-! DEFINITION. What secure boot works with: the flash, the image check, fuses and keys, the set-up record, signing indices (R2,
R242, R243, R346, R408, R417 to R429). -/

namespace Sys2Proof.Machine

/-! ### The boot flash (R420 Table 6) -/

def Flash.setup : Nat := 0x200000
def Flash.cert : Nat := 0x210000
def Flash.logs : Nat := 0x220000

/-- Bytes of the flash. -/
def State.flashBytes (s : State) (a n : Nat) : List Byte := Memory.readBytes erasedByte s.flash a n

/-- Bytes written over an erased range of the flash. -/
def State.flashWrite (s : State) (lo hi : Nat) (bs : List Byte) : State :=
  { s with flash := Memory.storeBytes erasedByte (Memory.erase s.flash lo hi) lo bs }

/-- A flash range left undefined by a failed write: free bytes (R432 Table 9; log entry 12). -/
def State.flashLost (s : State) (lo n : Nat) : State :=
  { s with flash := Memory.storeBytes erasedByte s.flash lo ((List.range n).map (fun i => Config.freeByte (s.free + i)))
           free := s.free + n }

/-- A flash write stopped by a reset leaves no valid image (R463, R464): MAGIC is gone. -/
def State.breakImage (s : State) : State := { s with flash := Memory.erase s.flash 0 4 }

/-! ### Owners and keys (R417) -/

/-- The current owner's digest: of the highest-numbered burned slot; none when it is all zero or no slot is burned. -/
def State.owner (s : State) : Option (List Byte) :=
  match s.fuses.owners.getLast? with
  | some d => if allZero d then none else some d
  | none => none

/-- The digest of the key that signs set-up records and transfers: the owner's, or the vendor's without an owner. -/
def State.rulingKey (s : State) : List Byte := s.owner.getD s.fuses.vendorDigest

/-- IDENTITY (R426): the digest of the identity public key. -/
def State.fusedIdentity (s : State) : List Byte := shake256 s.fuses.identity

/-! ### The firmware image (R418, R419) -/

def Fw.svn (g : List Byte) : Nat := fieldAt g 6 1
def Fw.feature (g : List Byte) : Nat := fieldAt g 8 4
def Fw.length (g : List Byte) : Nat := fieldAt g 0xC 4
def Fw.vendorPk (g : List Byte) : List Byte := (g.drop 0x30).take 68
def Fw.ownerPk (g : List Byte) : List Byte := (g.drop 0x74).take 68
def Fw.signed (g : List Byte) : List Byte := g.take 0x100
def Fw.vendorSig (g : List Byte) : List Byte := (g.drop 0x100).take 3072
def Fw.ownerSig (g : List Byte) : List Byte := (g.drop 0xD00).take 3072
def Fw.body (g : List Byte) : List Byte := (g.drop 0x2000).take (Fw.length g)

/-- Whether every reserved byte of the header is zero. -/
def Fw.reservedZero (g : List Byte) : Bool :=
  fieldAt g 7 1 == 0 && allZero ((g.drop 0xB8).take 0x48) && allZero ((g.drop 0x1900).take 0x700)

/-- Whether an image's signatures and body are good (R419), its SVN apart. -/
def State.imageSigned (s : State) (g : List Byte) : Bool :=
  decide (fieldAt g 0 4 = 0x4D524946) && decide (fieldAt g 4 2 = 1) && decide (1 ≤ Fw.length g) && decide (Fw.length g ≤ 2088960) &&
  Fw.reservedZero g && decide (shake256 (Fw.vendorPk g) = s.fuses.vendorDigest) &&
  Config.xmssVerify (Fw.vendorPk g) (Fw.signed g) (Fw.vendorSig g) &&
  (match s.owner with
   | some d => decide (shake256 (Fw.ownerPk g) = d) && Config.xmssVerify (Fw.ownerPk g) (Fw.signed g) (Fw.ownerSig g)
   | none => true) &&
  decide (shake256 (Fw.body g) = (g.drop 0x10).take 32)

/-- Whether an image is valid (R419). -/
def State.imageValid (s : State) (g : List Byte) : Bool := s.imageSigned g && decide (s.fuses.svnMin ≤ Fw.svn g)

/-- The image in flash: its header and body. -/
def State.flashImage (s : State) : List Byte := s.flashBytes 0 (0x2000 + min (Fw.length (s.flashBytes 0 16)) 2088960)

/-! ### Registers "from fuses" (R486, R433, R452, R488) -/

/-- SEC_STATUS (R433). -/
def State.syncSecStatus (s : State) : State :=
  let boot := match s.sec.stage with
    | .failedBoot => 2
    | _ => if s.sec.fromRecovery then 1 else 0
  s.setReg (Off.sec 0) (boot + 4 * s.owner.isSome.toNat + 8 * s.sec.setupDefault.toNat + 16 * s.sec.certBad.toNat +
    2 ^ 5 * (s.fuses.svnMin % 128) + 2 ^ 12 * ((s.fuses.owners.length - 1) % 8))

/-- ID_EPOCH and ID_INDEX (R433). -/
def State.syncEpoch (s : State) : State :=
  (s.setReg (Off.sec 8) (s.sec.sigEpoch % 4096 + 2 ^ 16 * (4096 - s.fuses.epochsBurned))).setReg64 (Off.sec 0x10)
    (s.sec.sigEpoch * 2 ^ 28 + s.sec.sigC)

/-- SEC_OWNER_DIGEST (R433). -/
def State.syncOwner (s : State) : State := s.setRegBytes (Off.sec 0x60) (padTo 32 (s.owner.getD []))

/-- The registers loaded from fuses during secure boot. -/
def State.loadFuses (s : State) : State :=
  let f := s.fuses
  let s := s.setReg Off.idPart (f.vendor % 65536 + 2 ^ 16 * 0x7680)
  let s := s.setReg Off.idGrade (f.gradeB.toNat + 2 ^ 4 * (f.chipletIndex % 1024) + 2 ^ 16 * (f.code0 % 256) + 2 ^ 24 * (f.code1 % 256))
  let s := { s with link := { s.link with cfg := { s.link.cfg with
    vendor := f.vendor % 65536, subsystem := 2 ^ 15 * f.gradeB.toNat + f.chipletIndex % 1024 } } }
  let s := (s.setReg64 Off.idSerial f.serial).setReg Off.idDieRev (f.dieRev % 2 ^ 24)
  let s := s.setRegBits Off.idTiles 0 11 (2 * s.quota)
  let s := (s.setRegBytes (Off.sec 0x20) s.fusedIdentity).syncOwner
  s.setReg (Off.err 0x68) f.repairs.length

/-! ### Epochs and signatures (R346, R428, R429) -/

/-- The first of `n` fuses from number `k` on that is not bad. -/
def firstGood (bad : List Nat) : Nat → Nat → Option Nat
  | 0, _ => none
  | n + 1, k => if bad.contains k then firstGood bad n (k + 1) else some k

/-- The next unburned epoch fuse that a burn verifies: those that read neither clean nor burned count as burned and are skipped (R428). -/
def State.nextFuse (s : State) : Option Nat := firstGood s.fuses.epochsBad (4096 - s.fuses.epochsBurned) s.fuses.epochsBurned

/-- The next epoch fuse burned, C at 0 (R428). EPOCH_LOW each time the epochs remaining fall to 64 or fewer; once every fuse is burned the device
stops signing (R429). -/
def State.burnEpoch (s : State) : State :=
  let t := match s.nextFuse with
    | some i => { s with
        fuses := { s.fuses with epochsBurned := i + 1 }
        sec := { s.sec with sigEpoch := i, sigC := 0, noEpoch := decide (4095 ≤ i), burned := true } }
    | none => { s with fuses := { s.fuses with epochsBurned := 4096 }, sec := { s.sec with noEpoch := true, burned := true } }
  if t.fuses.epochsBurned < 4032 then t.syncEpoch else t.syncEpoch.fileError bothWorlds (ErrRec.of .epochLow)

/-- The next signing index: the next epoch is burned first when C has come to its end. -/
def State.nextEpochDue (s : State) : State := if 2 ^ 28 - 2 ^ 16 ≤ s.sec.sigC ∧ s.sec.noEpoch = false then s.burnEpoch else s
def State.sigIndex (s : State) : Nat := s.sec.sigEpoch * 2 ^ 28 + s.sec.sigC

/-- The index of a signature consumed; a signature that failed its check is counted (R429). -/
def State.useIndex (s : State) : State :=
  let t := ({ s with sec := { s.sec with sigC := s.sec.sigC + 1 } }).syncEpoch
  if Config.signatureFails s.sigIndex then t.tally (Off.sec 0xC) 1 else t

/-- Whether the device can sign now: an epoch burned and the tree state rebuilt. -/
def State.signerReady (s : State) : Bool := s.sec.treeReady && !s.sec.noEpoch

/-- The incarnation formed after the epoch burn of the boot (R346). -/
def State.formIncarnation (s : State) : State :=
  let n := s.sec.sigEpoch * 2 ^ 20 + s.clock.warmCount
  ({ s with clock := { s.clock with incarnation := n } }).setReg (Off.ix 8) n

/-! ### Reserved areas (R242, R243) -/

/-- A default size scaled by I / 768 GiB and rounded down to 2 MiB. -/
def State.scaled (s : State) (size : Nat) : Nat := size * (s.stacksU * (32 - s.localGib)) / 768 / 2 ^ 21 * 2 ^ 21

/-- The default sizes of the areas, in order. -/
def State.defaultSizes (s : State) : List Nat :=
  [32 * 2 ^ 20, 16 * 2 ^ 20, 256 * 2 ^ 20, s.scaled (64 * gib) / (2 * gib) * (2 * gib), s.scaled (64 * gib), s.scaled (32 * gib),
   s.scaled (32 * gib), s.scaled (384 * gib)]

/-- Areas laid downward from an address. -/
def layDown : Nat → List Nat → List (Nat × Nat)
  | _, [] => []
  | top, n :: r => (top - n, n) :: layDown (top - n) r

/-- The default areas. -/
def State.defaultAreas (s : State) : List (Nat × Nat) := layDown s.interleaved s.defaultSizes

/-- Whether no two of the areas meet. -/
def apart : List (Nat × Nat) → Bool
  | [] => true
  | a :: r => r.all (fun b => decide (a.1 + a.2 ≤ b.1) || decide (b.1 + b.2 ≤ a.1)) && apart r

/-- Whether areas are aligned to 2 MiB, inside the interleaved space, and apart. -/
def State.areasGood (s : State) (l : List (Nat × Nat)) : Bool :=
  decide (l.length = 8) && l.all (fun a => decide (a.1 % 2 ^ 21 = 0) && decide (a.2 % 2 ^ 21 = 0) && decide (a.1 + a.2 ≤ s.interleaved)) &&
  apart l

/-- The area registers written. -/
def State.setAreas (s : State) (l : List (Nat × Nat)) : State :=
  l.zipIdx.foldl (fun s e => (s.setReg64 (Off.memBase e.2) e.1.1).setReg64 (Off.memSize e.2) e.1.2) s

/-- MEM_I_LIMIT (R253). -/
def State.syncLimit (s : State) : State := s.setReg64 (Off.mem 0x18) s.interleaved

/-! ### Applying the set-up record (R421 Table 7 step 6, R424) -/

/-- Whether a set-up record has the right form and one whose digest is given has signed it (R424); MAGIC and VERSION stand first, as in every
header of the spec (DEDUCED, log entry 9). -/
def setupGood (key r : List Byte) : Bool :=
  decide (fieldAt r 0 4 = 0x50555453) && decide (fieldAt r 4 2 = 1) && decide (0x1000 ≤ r.length) && decide (r.length ≤ 0x10000) &&
  decide (Config.setupSpan r = r.length) && decide (shake256 (Config.setupKey r) = key) &&
  Config.xmssVerify (Config.setupKey r) (Config.setupRest r) (Config.setupSig r)

/-- The record in flash, and whether it is one the ruling key has signed. -/
def State.setupRecord (s : State) : List Byte :=
  let r := s.flashBytes Flash.setup 0x10000
  r.take (min (Config.setupSpan r) 0x10000)
def State.setupValid (s : State) : Bool := setupGood s.rulingKey s.setupRecord

/-- The default of a word of the world map (R408 Table 2): engines 0 to 3 of each causeway secure. -/
def defaultMap (k : Nat) : Nat := if 40 ≤ k ∧ k < 48 ∧ k % 2 = 0 then 0xF else 0

/-- The world map set at boot: it stands at once, every block being idle. -/
def State.bootMap (s : State) (word : Nat → Nat) : State :=
  let s := (List.range 48).foldl (fun s k => if (worldWord k).2 = 0 then s
    else s.setReg (Off.sec (0x100 + 4 * k)) (word k % 2 ^ (worldWord k).2)) s
  let s := (List.range 41).foldl (fun s k => s.setReg (Off.sec (0x200 + 4 * k)) 0) s
  { s with sec := { s.sec with wantMap := [] } }

/-- The record verified and the world map set; a record that fails leaves the defaults (R424). -/
def State.applyRecord (s : State) : State :=
  let good := s.setupValid
  let rec_ := s.setupRecord
  let s := { s with sec := { s.sec with setupDefault := !good, setup := if good then rec_ else [], change := [] } }
  let s := s.syncToll
  let s := (List.range 1024).foldl (fun s n => if s.region n = 0 then s else s.setReg64 (Off.region n) 0) s
  let s := if good then s.bootMap (Config.setupMap rec_) else (s.bootMap defaultMap).fileError bothWorlds (ErrRec.of .setup)
  s.syncSecStatus

/-- The region entries of the record placed: those that break R412 dropped one by one and counted. -/
def State.bootRegions (s : State) : List (Nat × Nat) → State
  | [] => s
  | (n, v) :: r => (if s.regionRefused n v then s.tally (Off.sec 0x88) 1 else s.setReg64 (Off.region n) v).bootRegions r

/-- The areas placed and LOCKED set (R243), then the region entries: once secure boot has run and the usable set is fixed (DEDUCED,
log entry 37). -/
def State.placeAreas (s : State) : State :=
  if s.sec.stage ≠ .booted ∨ s.hbm.usableFixed = false then s
  else
    let want := Config.setupAreas s.sec.setup
    let own := !s.sec.setupDefault
    let s := if own && s.areasGood want then s.setAreas want
      else
        let s := s.setAreas s.defaultAreas
        if own then s.fileError bothWorlds (ErrRec.of .layout) else s
    let s := (s.setRegBit (Off.mem 4) 9 true).syncLimit
    if own then s.bootRegions ((List.range 1024).zip (Config.setupRegions s.sec.setup)) else s

/-- Steps 4 to 6 of Table 7 (R421) for a good image: record, epoch, worlds, areas; secure boot ready. -/
def State.finishBoot (s : State) (g : List Byte) (recovery : Bool) : State :=
  let s := if recovery then s else { s with fuses := { s.fuses with svnMin := max s.fuses.svnMin (min 64 (Fw.svn g)) } }
  let dig := shake256 (Fw.signed g)
  let cert := !Config.certGood s.fuses.vendorDigest (s.flashBytes Flash.cert 0x10000)
  let s := { s with sec := { s.sec with
    stage := .booted, fromRecovery := recovery, fwDigest := dig, svn := Fw.svn g, feature := Fw.feature g, certBad := cert
    treeReady := false, recoverImage := [] } }
  let s := { s with pins := { s.pins with live := true } }
  let s := (s.setReg (Off.sec 4) (Fw.feature g)).setRegBytes (Off.sec 0x40) dig
  let s := if s.sec.burned then s else s.burnEpoch
  let s := if s.sec.p384.isEmpty then { s with sec := { s.sec with p384 := Config.spdmKey s.sec.sigEpoch } } else s
  (((s.formIncarnation.syncEpoch).applyRecord).setReady 0 2 1).placeAreas

end Sys2Proof.Machine
end

