-- ==== Sys2Proof/Machine/Audit.lean ====
section
/-! DEFINITION. Signed batches and attestation reports (R333, R334, R426 to R430). -/

namespace Sys2Proof.Machine

/-! ### Attestation report (R430) -/

/-- The bytes of a range of registers. -/
def State.worldBytes (s : State) : List Byte :=
  s.regBytes (Off.sec 0x100) 128 ++ natLe 2 (s.reg (Off.sec 0x180)) ++ natLe 2 (s.reg (Off.sec 0x184)) ++
  s.regBytes (Off.sec 0x1A0) 32 ++ s.regBytes (Off.region 0) 8192

/-- Bytes 0x00 to 0xFF of the report (Table 8) for a nonce and a signature index. -/
def State.report (s : State) (w : Nat) (nonce : List Byte) (index : Nat) : List Byte :=
  let flags := s.sec.fromRecovery.toNat + 2 * s.owner.isSome.toNat + 4 * s.sec.setupDefault.toNat + 8 * s.sec.certBad.toNat
  padTo 256 (natLe 4 0x54535441 ++ natLe 2 1 ++ natLe 1 w ++ natLe 1 flags ++ natLe 8 s.now ++ padTo 32 nonce ++
    padTo 32 s.fusedIdentity ++ padTo 32 s.sec.fwDigest ++ padTo 32 (s.owner.getD []) ++
    padTo 32 (if s.sec.setupDefault then [] else shake256 s.sec.setup) ++ padTo 32 (shake256 s.worldBytes) ++
    natLe 4 s.sec.feature ++ natLe 1 s.sec.svn ++ natLe 1 s.fuses.gradeB.toNat ++ natLe 2 s.fuses.chipletIndex ++ natLe 8 index ++
    natLe 4 s.clock.incarnation ++ natLe 2 (4096 - s.fuses.epochsBurned))

/-! ### The signer (R426, R428, R429) -/

/-- A signature of the identity key is 5,605 bytes (R426). -/
def signWith (index : Nat) (msg : List Byte) : List Byte := padTo 5605 (Config.identitySign index msg)

/-- The first waiting batch of a world with its signature decided: empty for an unsigned one. -/
def setSig : List Batch → List Byte → List Batch
  | [], _ => []
  | b :: r, sig => match b.sig with
    | none => { b with sig := some sig } :: r
    | some _ => b :: setSig r sig

/-- The batch of a world whose signature is next. -/
def State.unsignedBatch (s : State) (w : Nat) : Option Batch := (s.auditWorld w).waiting.find? (fun b => b.sig.isNone)

/-- A batch's signature decided. -/
def State.decideSig (s : State) (w : Nat) (sig : List Byte) : State :=
  let a := s.auditWorld w
  (s.setAuditWorld w { a with waiting := setSig a.waiting sig }).drainBatches w

/-- The signature of a message with the next index: none where it fails its check and is discarded (R429). -/
def State.signed (s : State) (msg : List Byte) : List Byte := if Config.signatureFails s.sigIndex then [] else signWith s.sigIndex msg

/-- A batch signed: a signature that does not verify is discarded with its index consumed, and the batch goes out unsigned. -/
def State.signBatch (s : State) (w : Nat) : State :=
  match s.unsignedBatch w with
  | none => s
  | some b =>
    let s := s.nextEpochDue
    if s.sec.noEpoch then s.decideSig w []
    else s.useIndex.decideSig w (s.signed (s.batchHead w b 5605))

/-- The result and response of a mailbox command decided (R432). -/
def State.setMbox (s : State) (w result : Nat) (response : List Byte) : State :=
  { s with sec := { s.sec with mbox := s.sec.mbox.map (fun m =>
      if m.world = w then { m with result := result, response := response } else m) } }

/-- A report signed for the mailbox that asked: its request's nonce stands in the entry until then. Where its signature is discarded it goes
out without one (DESIGN CHOICE, log entry 9). -/
def State.signReport (s : State) (w : Nat) : State :=
  match s.sec.mbox.find? (fun m => decide (m.world = w)) with
  | none => s
  | some m =>
    let s := s.nextEpochDue
    if s.sec.noEpoch then s.setMbox w 5 []
    else
      let r := s.report w m.response s.sigIndex
      s.useIndex.setMbox w 0 (r ++ s.signed r)

/-- The waiting signatures issued in the order their requests came (R429), while the signer is ready; without an epoch left every
one is refused. -/
def State.serveSigner (s : State) : State :=
  if s.sec.treeReady = false ∧ s.sec.noEpoch = false then s
  else
    s.sec.signQueue.foldl (fun s e => if e < 2 then s.signBatch e else s.signReport (e - 2)) { s with sec := { s.sec with signQueue := [] } }

/-- A signature asked for. -/
def State.askSignature (s : State) (what : Nat) : State :=
  ({ s with sec := { s.sec with signQueue := s.sec.signQueue ++ [what] } }).serveSigner

/-! ### Closing a batch (R333) -/

/-- The open leaves of a world closed into a batch, whose signature is asked for; while 16 closed batches wait the batch stays open
(R334). -/
def State.closeBatch (s : State) (w : Nat) (early : Bool) : State :=
  let a := s.auditWorld w
  match a.openLeaves with
  | [] => s
  | leaf :: _ => if 16 ≤ a.waiting.length then s else
    let b : Batch :=
      { index := a.nextBatch, firstSeq := fieldAt leaf 8 8, leaves := a.openLeaves, opened := a.openedAt, closed := s.now,
        early := early, sig := none }
    let s := s.setAuditWorld w { a with
      openLeaves := [], lastClose := s.now, nextBatch := a.nextBatch + 1, waiting := a.waiting ++ [b]
      interval := s.regBits (Off.dig w 0xC) 0 14 }
    (s.drainLeaves w).askSignature w

/-- BATCH_CLOSE (R333, R334): INTERVAL ms after the last close, or at 65,536 leaves; not while 16 closed batches wait on die. -/
def execBatchClose (world : Nat) (s : State) : Host.Outcome State Fault Refusal :=
  answerBurning s (
    let a := s.auditWorld world
    let full := decide (batchLeaves ≤ a.openLeaves.length)
    if full = false ∧ s.now < a.lastClose + a.interval * 1000000 then s else s.closeBatch world full)

/-- SIGNER_TREE_REBUILT (R428): what waited is signed. -/
def execSignerTreeRebuilt (s : State) : Host.Outcome State Fault Refusal :=
  answerBurning s (
    if s.sec.stage ≠ .booted ∨ s.sec.treeReady = true then s
    else ({ s with sec := { s.sec with treeReady := true } }).serveSigner)

end Sys2Proof.Machine
end

