-- ==== Sys2Proof/Machine/Reduce.lean ====
section
/-! DEFINITION. REDUCE and COLLECT (R78, R81 to R83, R87 to R94): sums and moments, stochastic rounding, update, export and
import, and gathering from other tiles. -/

namespace Sys2Proof.Machine

/-! ### Stochastic rounding (R90, R91) -/

/-- mix of R91. -/
def mix64 (z : BitVec 64) : BitVec 64 :=
  let z := (z ^^^ (z >>> 30)) * 0xBF58476D1CE4E5B9
  let z := (z ^^^ (z >>> 27)) * 0x94D049BB133111EB
  z ^^^ (z >>> 31)

/-- The 64 random bits of a value: key, nonce, LAYER and element (R91). -/
def srBits (key : DWord) (nonce layer elem : Nat) : Nat :=
  (mix64 (mix64 (key ^^^ BitVec.ofNat 64 nonce) ^^^ BitVec.ofNat 64 (layer * 2 ^ 40 + elem))).toNat

/-- v without its low k bits, rounded up with the probability of what is dropped (R90). -/
def stochRound (v : Int) (k r : Nat) : Int :=
  let q := v / 2 ^ k
  let f := v - q * 2 ^ k
  if ((r % 2 ^ k : Nat) : Int) < f then q + 1 else q

/-! ### Records (R82 Table 2) -/

def recordOf (value : BitVec 80) (tag terms : Nat) : List Byte :=
  natLe 16 (value.toNat + 2 ^ 80 * (tag % 16) + 2 ^ 84 * (terms % 2 ^ 40))
def Rec.value (v : Nat) : BitVec 80 := BitVec.ofNat 80 v
def Rec.tag (v : Nat) : Nat := bitsAt v 80 4
def Rec.terms (v : Nat) : Nat := bitsAt v 84 40
def Rec.reserved (v : Nat) : Nat := bitsAt v 124 4

/-! ### Sums and moments (R89) -/

/-- The elements a REDUCE reads from its scratchpad source: format code and patterns. -/
def State.redElems (s : State) (w : Nat) : Nat × List Nat :=
  let code := if Red.float w then (if Red.inf w = 1 then 2 else 4) else (if Red.inf w = 0 then 0 else if Red.inf w = 1 then 1 else 7)
  let b := fmtBytes code
  (code, (wordsOf b (s.viewBytes (Step.src w) 0 (b * Step.count0 w))).take (Step.count0 w))

/-- The result of one group of integers. -/
def groupInt (kind : Nat) (l : List Int) : List Byte :=
  let n := l.length
  let s1 := sumInt l
  let s2 := sumInt (l.map (fun x => x * x))
  if kind = 0 then natLe 16 (twos 128 s1)
  else if kind = 1 then natLe 16 (twos 128 s1) ++ natLe 16 (twos 128 s2)
  else natLe 4 (ratFp32 s1 n) ++ natLe 4 (ratFp32 (n * s2 - s1 * s1) (n * n))

/-- The result of one group of floats: FP32 sums in the order given; moments formed from them (DEDUCED, log entry 26). -/
def groupFloat (kind code : Nat) (l : List Nat) : List Byte :=
  let v := l.map (fun x => fp32Bits (elemFp code x))
  let s1 := v.foldl fadd 0
  let s2 := v.foldl (fun a x => ffma x x a) 0
  let n := fp32Bits (.fin false l.length 0)
  if kind = 0 then natLe 4 s1
  else if kind = 1 then natLe 4 s1 ++ natLe 4 s2
  else natLe 4 (fdiv s1 n) ++ natLe 4 (fdiv (fsub (ffma n s2 0) (ffma s1 s1 0)) (ffma n n 0))

/-- A list cut into groups of `n`. -/
def groupsOf {α : Type} (n : Nat) (l : List α) : List (List α) :=
  (List.range (l.length / max 1 n)).map (fun k => (l.drop (k * n)).take n)

/-- NaN and infinite results of an FP32 result string, counted in SHK_FP_SPECIAL (R215). -/
def specials (bs : List Byte) : Nat := ((wordsOf 4 bs).filter (fun v => (fp32 v).special)).length

/-- SUM, SUMSQ and MOMENTS of a scratchpad source, whole. The elements of one group of a varying FP32 sum arrive in a free order (R89). -/
def State.reduceWords (s : State) (n : Nat) (r : RStep) (q : Request) : State :=
  let w := r.w
  let (code, l) := s.redElems w
  let arrived := fun (g : List Nat × Nat) => if Step.vary w then freeOrder (s.free + g.2 * Red.group w) g.1 else g.1
  let out := if Red.float w then (groupsOf (Red.group w) l).zipIdx.flatMap (fun g => groupFloat (Red.kind w) code (arrived g))
    else (groupsOf (Red.group w) (l.map (elemInt code))).flatMap (groupInt (Red.kind w))
  let s := if Step.vary w then { s with free := s.free + l.length } else s
  let s := s.stepWrite n r.req (Step.layer r.w) q.secure (Step.dst w) 0 out
  let sp := if Red.float w then specials out else if Red.kind w = 2 then specials out else 0
  if s.live r.req then (s.tally (Off.tile n 0x80C) sp).setStep n r { r with next := Step.count0 w, finished := true } else s

/-! ### Consumers of a ledger range -/

/-- What a consuming REDUCE keeps between slots: the tag it expects, and a partial sum (RStep.aux). -/
def redTag (aux : Nat) : Option Nat := if aux % 32 = 0 then none else some (aux % 32 - 1)
def redPart (aux : Nat) : Int := signedOf 128 (aux / 32)
def redPack (tag : Nat) (x : Int) : Nat := tag + 1 + 32 * twos 128 x

/-- SUM over ledger entries: the group sums that end among these entries, and the partial sum left. -/
def sumGroups (g : Nat) : List Int → Nat → Int → List Byte × Int
  | [], _, p => ([], p)
  | x :: r, at_, p =>
    if (at_ + 1) % g = 0 then
      let (bs, q) := sumGroups g r (at_ + 1) 0
      (natLe 16 (twos 128 (p + x)) ++ bs, q)
    else sumGroups g r (at_ + 1) (p + x)

/-- NARROW16 of entries: the bytes and how many were clamped (R92). -/
def narrowOne (key : DWord) (nonce layer k elem : Nat) (v : Int) : Nat × Bool :=
  let x := stochRound v k (srBits key nonce layer elem)
  (twos 16 (clampInt (-32768) 32767 x), decide (x < -32768) || decide (32767 < x))

/-- A weight stepped by UPDATE (R93): the byte and whether it was clamped. -/
def updateOne (key : DWord) (nonce layer k elem wb : Nat) (signed : Bool) (g : Int) (old : Byte) : Byte × Bool :=
  let x := (if signed then signedOf 8 old.toNat else (old.toNat : Int)) + stochRound (-g) k (srBits key nonce layer elem)
  let lo : Int := if signed then -(2 ^ (wb - 1)) else 0
  let hi : Int := if signed then 2 ^ (wb - 1) - 1 else 2 ^ wb - 1
  (BitVec.ofInt 8 (clampInt lo hi x), decide (x < lo) || decide (hi < x))

/-- UPDATE of a run of gradients from element `at_` on (R93, R94). -/
def State.updateRun (s : State) (n : Nat) (r : RStep) (q : Request) (at_ : Nat) (gs : List Int) : State :=
  let w := r.w
  let mask := s.viewBytes (Step.aux w) (at_ / 8) (gs.length / 8 + 2)
  let old := s.spBytes (hTile (Step.dst w)) (Rg.lo (s.entryOf (Step.dst w)) + at_) gs.length
  let on := fun (k : Nat) => (mask.getD ((at_ + k) / 8 - at_ / 8) 0).getLsbD ((at_ + k) % 8)
  let out := gs.zipIdx.map (fun g => if on g.2 then
      updateOne s.passes.srKey (q.fld 0x10 8) (Step.layer w) (Red.shift w) (at_ + g.2) (wBits (Red.outw w)) (Red.osigned w) g.1
        (old.getD g.2 0)
    else (old.getD g.2 0, false))
  ((s.tally (Off.tile n 0x320) ((List.range gs.length).filter on).length).tally (Off.tile n 0x324)
    (out.filter (·.2)).length).stepWrite n r.req (Step.layer r.w) q.secure (Step.dst w) at_ (out.map (·.1))

/-- The work of a consuming REDUCE on one slot. -/
def State.reduceSlot (s : State) (n : Nat) (r : RStep) (q : Request) (x : Slot) (es : List LedgerEntry) : State × RStep :=
  let w := r.w
  let vs := es.map (fun e => e.value.toInt)
  let tag := (redTag r.aux).getD ((es.head?.map (·.tag)).getD 0)
  let r2 := { r with next := r.next + es.length, aux := redPack tag (redPart r.aux) }
  let dst := Step.dst w
  if Red.kind w = 0 then
    let (bs, p) := sumGroups (max 1 (Red.group w)) vs r.next (redPart r.aux)
    (s.stepWrite n r.req (Step.layer r.w) q.secure dst (16 * (r.next / max 1 (Red.group w))) bs, { r2 with aux := redPack tag p })
  else if Red.kind w = 3 then
    let out := vs.zipIdx.map (fun v => narrowOne s.passes.srKey (q.fld 0x10 8) (Step.layer w) (Red.shift w) (r.next + v.2) v.1)
    (((s.tally (Off.tile n 0x320) out.length).tally (Off.tile n 0x324) (out.filter (·.2)).length).stepWrite n r.req (Step.layer r.w) q.secure dst
      (2 * r.next) (out.flatMap (fun v => natLe 2 v.1)), r2)
  else if Red.kind w = 4 then (s.updateRun n r q r.next vs, r2)
  else (s.stepWrite n r.req (Step.layer r.w) q.secure dst (16 * r.next) (es.flatMap (fun e => recordOf e.value e.tag x.terms)), r2)

/-- A consuming REDUCE as far as complete slots allow. -/
def State.reduceSlots (s : State) (n : Nat) (r : RStep) (q : Request) : Nat → State
  | 0 => s
  | fuel + 1 =>
    if s.live r.req = false then s
    else if Step.count0 r.w ≤ r.next then s.setStep n r { r with finished := true }
    else match s.takeSlot (Step.src r.w) r.req (Step.layer r.w) (redTag r.aux) with
      | .wait => s
      | .bad t => t
      | .got t x es =>
        let (u, r2) := t.reduceSlot n r q x es
        if u.live r.req then (u.setStep n r r2).reduceSlots n r2 q fuel else u

/-! ### IMPORT (R83) -/

/-- The position the next import of a request opens. -/
def State.importPosition (s : State) (h i : Nat) : Option Nat :=
  let t := s.tile (hTile h)
  s.prog.position h (t.consumedOf i (hIdx h) +
    (t.slots.filter (fun x => decide (x.region = hIdx h) && decide (x.req = i) && x.imported)).length)

/-- One slot imported; none while it cannot open. -/
def State.importSlot (s : State) (n : Nat) (r : RStep) (b : Nat) : Option State :=
  let w := r.w
  let h := Step.dst w
  let l := (wordsOf 16 (s.viewBytes (Step.src w) (16 * r.next) (16 * b))).take b
  let v0 := l.headD 0
  if l.any (fun v => decide (Rec.reserved v ≠ 0) || decide (Rec.tag v ≠ Rec.tag v0) || decide (Rec.terms v ≠ Rec.terms v0)) then
    some (s.seamFault n r.req (Step.layer w) .record 0 0)
  else match s.importPosition h r.req with
    | none => none
    | some p =>
      (s.addSlot h r.req (Step.layer w) p (Rec.tag v0) (Rec.terms v0) 0 (l.zipIdx.map (fun v => (v.2, (Rec.value v.1).toInt)))).map (fun s =>
        s.updTile (hTile h) (fun t => { t with slots := t.slots.map (fun x =>
          if x.region = hIdx h ∧ x.req = r.req ∧ x.position = p then { x with imported := true } else x) }))

/-- IMPORT as far as slots can open. -/
def State.importSlots (s : State) (n : Nat) (r : RStep) : Nat → State
  | 0 => s
  | fuel + 1 =>
    if s.live r.req = false then s
    else if Step.count0 r.w ≤ r.next then s.setStep n r { r with finished := true }
    else
      let b := max 1 (s.slotSize (Step.dst r.w))
      match s.importSlot n r b with
      | none => s
      | some t =>
        let r2 := { r with next := r.next + b }
        if t.live r.req then (t.setStep n r r2).importSlots n r2 fuel else t

/-! ### REDUCE -/

/-- The bytes of scratchpad a REDUCE reads from SRC. -/
def redSrcBytes (w : Nat) : Nat :=
  if Red.kind w = 6 then 16 * Step.count0 w
  else if Red.inf w = 3 then 0
  else Step.count0 w * (if Red.inf w = 0 then 1 else if Red.inf w = 1 then 2 else 4)

/-- A REDUCE step's first refused or bad read. -/
def State.redRefusal (s : State) (q : Request) (w : Nat) : Option (Verdict × Nat) :=
  let a := if redSrcBytes w = 0 then none else s.stepReadBad q.secure (Step.src w) 0 (redSrcBytes w)
  let b := if Red.kind w = 4 then
      (s.stepReadBad q.secure (Step.aux w) 0 ((Step.count0 w + 7) / 8)).or (s.stepReadBad q.secure (Step.dst w) 0 (Step.count0 w))
    else none
  a.or b

/-- One advance of a running REDUCE. -/
def State.advanceReduce (s : State) (n : Nat) (r : RStep) (q : Request) : State :=
  let w := r.w
  match s.redRefusal q w with
  | some v => s.failStep n r.req (Step.layer r.w) q.secure v
  | none =>
    if Red.kind w = 6 then s.importSlots n r (Step.count0 w + 1)
    else if Red.inf w = 3 then s.reduceSlots n r q (Step.count0 w + 1)
    else if Red.kind w = 4 then
      let t := s.updateRun n r q 0 ((s.redElems w).2.map (elemInt 7))
      if t.live r.req then t.setStep n r { r with next := Step.count0 w, finished := true } else t
    else s.reduceWords n r q

/-- Whether the shank unit of a tile is free for another step: it runs one SHANK or REDUCE step at a time (R212). -/
def State.shankFree (s : State) (n : Nat) : Bool :=
  (s.tile n).running.all (fun r => r.finished || (decide (Step.opcode r.w ≠ Op.shank) && decide (Step.opcode r.w ≠ Op.reduce)))

/-- REDUCE (R88 to R94). -/
def execReduce (tile waits cycles : Nat) (s : State) : Host.Outcome State Fault Refusal :=
  answer s (((s.issuing tile Op.reduce waits (fun s i _ w => if s.shankFree tile then s.issueStep tile i w waits else s)).busyFor
    tile Op.reduce 0x804 cycles).advance tile Op.reduce (fun s r q => s.advanceReduce tile r q))

/-! ### COLLECT (R81) -/

/-- The entries of a slot added to the slot of the same position of a ledger range, tag by tag; the TERMS go with the
first. -/
def State.collectInto (s : State) (h i layer p terms : Nat) (es : List LedgerEntry) : Option State :=
  (es.map (·.tag)).eraseDups.zipIdx.foldl (fun s t => s.bind (fun s =>
    if s.live i then
      s.addSlot h i layer p t.1 (if t.2 = 0 then terms else 0) 0
        ((es.zipIdx.filter (fun e => decide (e.1.tag = t.1))).map (fun e => (e.2, e.1.value.toInt)))
    else some s)) (some s)

/-- COLLECT as far as complete slots and its destination allow. -/
def State.collectSlots (s : State) (n : Nat) (r : RStep) (q : Request) : Nat → State
  | 0 => s
  | fuel + 1 =>
    let w := r.w
    if s.live r.req = false then s
    else if Step.count0 w ≤ r.next then s.setStep n r { r with finished := true }
    else match s.readySlot (Step.src w) r.req with
      | none => s
      | some x =>
        let es := (s.tile (hTile (Step.src w))).slotEntries x 0
        let r2 := { r with next := r.next + 1 }
        let done := if Rg.kind (s.entryOf (Step.dst w)) = Kind.ledger then s.collectInto (Step.dst w) r.req (Step.layer w) x.position x.terms es
          else some (s.stepWrite n r.req (Step.layer r.w) q.secure (Step.dst w) (16 * x.size * r.next)
            (es.flatMap (fun e => recordOf e.value e.tag x.terms)))
        match done with
        | none => s
        | some t =>
          if t.live r.req then ((t.consumeSlot (Step.src w) r.req x).setStep n r r2).collectSlots n r2 q fuel else t

/-- COLLECT (R81). -/
def execCollect (tile waits : Nat) (s : State) : Host.Outcome State Fault Refusal :=
  answer s (s.engine tile Op.collect waits (fun s r q => s.collectSlots tile r q (Step.count0 r.w + 1)))

end Sys2Proof.Machine
end

