-- ==== Sys2Proof/Machine/Awl.lean ====
section
/-! DEFINITION. AWL_SCAN: generators, lanes, classes, audits and the class map (R179 to R187, R190, R193 to R195, R197). -/

namespace Sys2Proof.Machine

/-! ### Generators (R193) -/

/-- One shift of a generator: taps at bits 63, 62, 60 and 59, the feedback into bit 0. -/
def genShift (z : BitVec 64) : BitVec 64 :=
  (z <<< 1) ||| ((z >>> 63 ^^^ z >>> 62 ^^^ z >>> 60 ^^^ z >>> 59) &&& 1)

/-- A state after `t` shifts. -/
def genAfter (z : BitVec 64) : Nat → BitVec 64
  | 0 => z
  | t + 1 => genAfter (genShift z) t

/-- The low 16 bits of a generator's output. -/
def genOut (z : BitVec 64) : Nat := (mix64 z).toNat % 65536

/-- The state a generator restarts with for a step and the number of the seed it comes from (R193): the next successor takes the place
of a seed that gives a zero state. -/
def restart (seed : List Byte) (tile g nonce place : Nat) : Nat → Nat → BitVec 64 × Nat
  | c, 0 => (0, c)
  | c, fuel + 1 =>
    let v := seedFrom seed tile g c 256
    let z := mix64 (mix64 (BitVec.ofNat 64 v.2 ^^^ BitVec.ofNat 64 nonce) ^^^ BitVec.ofNat 64 place)
    if z = 0 then restart seed tile g nonce place (v.1 + 1) fuel else (z, v.1)

/-- How often a restart moved on to a successor, over zero states and zero seeds alike; the zero seeds before the one in force since
the activation were counted then. -/
def restartMoves (seed : List Byte) (tile g nonce place : Nat) : Nat :=
  (restart seed tile g nonce place 0 256).2 - (seedFrom seed tile g 0 256).1

/-! ### The store (R184) -/

/-- What a scan knows: the paired CIM step's job, A (the AWL_SCAN's AWIDTH, R179), the store, stream length, guard and audit
settings, and the restart facts. -/
structure Scan where
  j : CimJob
  a : Nat
  store : List Byte
  len : Nat
  guard : Nat
  auditLog : Nat
  phase : Nat
  seed : List Byte
  nonce : Nat
deriving DecidableEq, Repr

/-- Header of a macro's image. -/
def Scan.header (c : Scan) (m : Nat) : Nat := fieldAt c.store (awlOffset c.store m) 8
def Awl.sel (h : Nat) : Nat := bitsAt h 0 6
def Awl.act (h : Nat) : Nat := bitsAt h 8 6
def Awl.wgt (h : Nat) : Nat := bitsAt h 16 6

/-- Outputs of a block. -/
def Scan.outputs (c : Scan) : Nat := 512 / wBits (Step.wcode c.j.w)
/-- STEP and MARGIN of an output. -/
def Scan.step (c : Scan) (m o : Nat) : Nat := fieldAt c.store (awlOffset c.store m + 8 + 4 * o) 2
def Scan.margin (c : Scan) (m o : Nat) : Nat := fieldAt c.store (awlOffset c.store m + 10 + 4 * o) 2
/-- A row of 3-bit copies of a macro's image. -/
def Scan.copyRow (c : Scan) (m row : Nat) : Nat :=
  let k := 192 / wBits (Step.wcode c.j.w)
  fieldAt c.store (awlOffset c.store m + 8 + 4 * c.outputs + row * k) k

/-- Shift offsets of the three roles: 17 for each earlier role that names the same generator (R195). -/
def roleShifts (h : Nat) : Nat × Nat :=
  (if Awl.act h = Awl.sel h then 17 else 0,
   17 * ((decide (Awl.wgt h = Awl.sel h)).toNat + (decide (Awl.wgt h = Awl.act h)).toNat))

/-- Whether two roles of an image share a generator. -/
def correlatedImage (h : Nat) : Bool :=
  decide (Awl.act h = Awl.sel h) || decide (Awl.wgt h = Awl.sel h) || decide (Awl.wgt h = Awl.act h)

/-- The key of a step's restarts (R193) and of its audit phase (R186). -/
def stepPlace (w : Nat) : Nat := Step.layer w * 2 ^ 40 + Step.mfirst w * 2 ^ 32

/-- The three states of a block's generators at index `t`. -/
def Scan.states (c : Scan) (m t : Nat) : BitVec 64 × BitVec 64 × BitVec 64 :=
  let h := c.header m
  let z := fun (g : Nat) => (restart c.seed c.j.n g c.nonce (stepPlace c.j.w) 0 256).1
  let k := roleShifts h
  (genAfter (z (Awl.sel h)) t, genAfter (z (Awl.act h)) (t + k.1), genAfter (z (Awl.wgt h)) (t + k.2))

/-! ### Lanes and classes (R181 to R183) -/

/-- One input of a block: its level and its row of copies. -/
abbrev LaneRow := Int × Nat

/-- The counts of one output over L bit-times: c₊ and c₋. `rows` are the block's inputs, N of them. -/
def laneCounts (rows : List LaneRow) (a o : Nat) (z : BitVec 64 × BitVec 64 × BitVec 64) (p n : Nat) : Nat → Nat × Nat
  | 0 => (p, n)
  | k + 1 =>
    let i := genOut z.1 * rows.length / 65536
    let r := rows.getD i (0, 0)
    let c := bitsAt r.2 (3 * o) 3
    let b := decide (genOut z.2.1 < r.1.natAbs * 2 ^ (16 - a)) && decide (3 * genOut z.2.2 < c % 4 * 65536)
    let neg := decide (r.1 < 0) != c.testBit 2
    laneCounts rows a o (genShift z.1, genShift z.2.1, genShift z.2.2) (if b && !neg then p + 1 else p) (if b && neg then n + 1 else n) k

/-- The smallest s with s·s·L ≥ x. -/
def sigmaOf (x len : Nat) : Nat :=
  let r := isqrt ((x + len - 1) / len)
  if x ≤ r * r * len then r else r + 1

/-- off and on of an output (R182). -/
def judgeOutput (len a guard n q margin : Nat) (tb : Int) (p m : Nat) : Bool × Bool :=
  let d : Int := (p : Int) - m
  let v := (len * (p + m) : Int) - d * d
  let sg := sigmaOf (256 * v.toNat) len
  let f : Int := (q * 3 * n * 2 ^ a : Nat)
  let mg : Int := (16 * len * q * margin : Nat)
  let lim := 16 * (len : Int) * tb
  (decide (f * (16 * d + guard * sg) + mg ≤ lim), decide (lim < f * (16 * d - guard * sg) - mg))

/-- The inputs of a block at a position: every row of its S macros, or the rows that have a hit (R181). -/
def State.laneRows (s : State) (c : Scan) (b : Nat) (x : InVec) : List LaneRow :=
  let sl := s.slicesOf c.j.w
  (List.range sl).flatMap (fun k =>
    let m := Step.mfirst c.j.w + b * sl + k
    let d := s.driven c.j (b * sl + k) x
    ((List.range 256).filter (fun r => Step.opcode c.j.w ≠ Op.cimMatch || d.any (fun v => decide (v.1 = r)))).map (fun r =>
      ((match d.find? (fun v => decide (v.1 = r)) with
        | some v => v.2
        | none => 0), c.copyRow m r)))

/-- The class of a block: 0 NONE, 1 ON, 2 UNCERTAIN, 3 OFF. -/
def State.classOf (s : State) (c : Scan) (b present : Nat) (x : InVec) : Nat :=
  let sl := s.slicesOf c.j.w
  let m := Step.mfirst c.j.w + b * sl
  let rows := s.laneRows c b x
  if rows.isEmpty then 0
  else
    let tb := s.bound c.j.q c.j.w
    let z := c.states m (present * c.len)
    let used := s.skipValues c.j b 1
    let res := (List.range c.outputs).map (fun o =>
      let k := laneCounts rows c.a o z 0 0 c.len
      (judgeOutput c.len c.a c.guard rows.length (c.step m o) (c.margin m o) tb k.1 k.2, decide (used.getD o 0 = 1)))
    if res.all (fun r => !r.2 || r.1.1) then 3
    else if res.any (fun r => r.1.2) then 1 else 2

/-! ### One position -/

/-- The entry of a position, the off groups after it, and groups by class: on, uncertain, off, audited. -/
structure Classed where
  entry : Nat
  offs : Nat
  on : Nat
  uncertain : Nat
  off : Nat
  audited : Nat
deriving DecidableEq, Repr

/-- The blocks of a present position classed in increasing MFIRST; off groups audited by ordinal (R186). -/
def State.classBlocks (s : State) (c : Scan) (present : Nat) (x : InVec) (offs : Nat) : Classed :=
  let sl := s.slicesOf c.j.w
  (List.range (s.blocksOf c.j.w)).foldl (fun r b =>
    let cls := s.classOf c b present x
    let aud := decide (cls = 3) && decide ((r.offs + c.phase) % 2 ^ c.auditLog = 0)
    let field := cls + 4 * aud.toNat
    let bits := sumNat ((List.range sl).map (fun k => field * 2 ^ (4 * (Step.mfirst c.j.w + b * sl + k))))
    { entry := r.entry + bits
      offs := r.offs + (decide (cls = 3)).toNat
      on := r.on + (decide (cls = 1)).toNat
      uncertain := r.uncertain + (decide (cls = 2)).toNat
      off := r.off + (decide (cls = 3)).toNat
      audited := r.audited + aud.toNat }) ⟨0, offs, 0, 0, 0, 0⟩

/-- A count added to the audited groups of a LAYER of a request. -/
def Request.addAudits (q : Request) (layer k : Nat) : Request :=
  let old := match q.awlCounts.find? (fun x => decide (x.1 = layer)) with
    | some x => x.2
    | none => (0, 0)
  { q with awlCounts := (layer, old.1 + k, old.2) :: q.awlCounts.filter (fun x => decide (x.1 ≠ layer)) }

/-- The groups of a position counted, per macro (R187, R197). -/
def State.countClasses (s : State) (c : Scan) (r : Classed) : State :=
  let n := c.j.n
  let sl := s.slicesOf c.j.w
  let skip := r.off - r.audited
  let s := (((s.tally (Off.tile n 0x700) (sl * (r.on + r.uncertain + r.off))).tally (Off.tile n 0x704) (sl * r.off)).tally
    (Off.tile n 0x708) (sl * r.on)).tally (Off.tile n 0x70C) (sl * r.uncertain)
  let s := (s.tally (Off.tile n 0x710) (sl * skip)).tally (Off.tile n 0x714) (sl * r.audited)
  s.updReq c.j.i (fun q => ({ q with skipped := q.skipped + sl * skip, audited := q.audited + sl * r.audited }).addAudits
    (Step.layer c.j.w) (sl * r.audited))

/-- The scan from its next position on as far as the class map takes entries. `r.aux` packs present positions passed (low 32
bits) and off groups numbered. -/
def State.scanPositions (s : State) (c : Scan) (r : RStep) : Nat → State
  | 0 => s
  | fuel + 1 =>
    let n := c.j.n
    let h := Step.dst r.w
    if s.live r.req = false then s
    else if Step.count0 r.w ≤ r.next then s.setStep n r { r with finished := true }
    else
      let circ := decide (Rg.kind (s.entryOf h) = Kind.circular)
      if circ && !s.mayPut n r.req h then s
      else
        let x := s.cimVec c.j r.next
        let present := r.aux % 2 ^ 32
        let offs := r.aux / 2 ^ 32
        let k := match x with
          | some v => s.classBlocks c present v offs
          | none => ⟨0, offs, 0, 0, 0, 0⟩
        let s := s.countClasses c k
        let bs := natLe 32 k.entry
        let t := if circ then s.circPut n r.req (Step.layer c.j.w) c.j.q.secure h bs else s.stepWrite n r.req (Step.layer c.j.w) c.j.q.secure h (32 * r.next) bs
        let r2 := { r with next := r.next + 1, aux := present + x.isSome.toNat + 2 ^ 32 * k.offs }
        if t.live r.req then (t.setStep n r r2).scanPositions c r2 fuel else t

/-! ### The step -/

/-- The CIM step a scan is paired with (R179). -/
def Tile.pairedCim (t : Tile) (idx : Nat) : Option (Nat × Nat) :=
  let ws := t.steps.map (·.toNat)
  let v := ws.getD idx 0
  ((ws.zipIdx.drop (idx + 1)).find? (fun x => Step.isCim x.1 && decide (Step.predict x.1 = 2) &&
    decide (awlPair (ws.take x.2) x.1 = some v))).map (fun x => (x.2, x.1))

/-- The guard and audit settings in force for a request and LAYER (R186, R190). -/
def State.awlSettings (s : State) (q : Request) (layer : Nat) : Nat × Nat :=
  match q.stream with
  | none => (q.awlDef % 256, q.awlDef / 256)
  | some st => match s.guardOf st s.prog layer with
    | some a => (s.memNat a 1, s.memNat (a + 1) 1)
    | none => (q.awlDef % 256, q.awlDef / 256)

/-- The audit phase of a step (R186). -/
def State.auditPhase (s : State) (n w nonce auditLog : Nat) : Nat :=
  (mix64 (mix64 (s.passes.auditKey ^^^ BitVec.ofNat 64 nonce) ^^^
    BitVec.ofNat 64 (Step.layer w * 2 ^ 40 + n * 2 ^ 16 + Step.mfirst w))).toNat % 2 ^ auditLog

/-- The CIM step a scan's job is of: the paired one (R179). A scan that no step is paired with runs as for a CIM_DENSE of its own fields,
its COUNT1 1, its WCODE that of its first macro's image and its DST no ledger range (DESIGN CHOICE, log entry 68). -/
def Tile.scanStep (t : Tile) (idx w : Nat) : Nat × Nat :=
  match t.pairedCim idx with
  | some x => x
  | none => (idx, putBits (putBits (putBits w 0 8 Op.cimDense) 160 32 1) 24 2
      (bitsAt (fieldAt t.awlStore (awlOffset t.awlStore (Step.mfirst w)) 8) 24 2))

/-- A running scan as the lanes see it. -/
def State.scanOf (s : State) (n : Nat) (r : RStep) (q : Request) : Option (Except EyeBad Scan) :=
  match (s.tile n).scanStep r.idx r.w, s.activePass with
  | (idx, w), some p =>
    match s.cimJob n idx r.req q w with
    | .error b => some (.error b)
    | .ok j =>
      let set := s.awlSettings q (Step.layer w)
      some (.ok { j := j, a := Step.awidth r.w, store := (s.tile n).awlStore, len := 64 * 2 ^ p.awlLen, guard := set.1, auditLog := set.2,
                  phase := s.auditPhase n w (q.fld 0x10 8) set.2, seed := p.seed, nonce := q.fld 0x10 8 })
  | _, _ => none

/-- One advance of a running AWL_SCAN. -/
def State.advanceScan (s : State) (n : Nat) (r : RStep) (q : Request) : State :=
  match s.scanOf n r q with
  | none => s
  | some (.error b) => s.eyeBad n r.req (Step.layer r.w) b
  | some (.ok c) => s.scanPositions c r (Step.count0 r.w + 1)

/-- The restarts of a scan: zero states replaced and images with a correlation substitute counted; CORRELATION_FAULT once for
each tile and request (R193, R195). -/
def State.restartScan (s : State) (n i : Nat) (q : Request) (w : Nat) (seed : List Byte) : State :=
  let store := (s.tile n).awlStore
  let heads := (Step.macros w).map (fun m => fieldAt store (awlOffset store m) 8)
  let gens := (heads.flatMap (fun h => [Awl.sel h, Awl.act h, Awl.wgt h])).eraseDups
  let s := s.noteReseeds n (sumNat (gens.map (fun g => restartMoves seed n g (q.fld 0x10 8) (stepPlace w))))
  let c := (heads.filter correlatedImage).length
  if c = 0 then s
  else
    let s := s.tally (Off.tile n 0x71C) c
    if q.corrTiles.contains n then s
    else
      ((s.tally (Off.awl 0x14) 1).postEvent bothWorlds Ev.correlationFault 1 n
        (padTo 16 (Config.packEvent Ev.correlationFault [c]))).updReq i (fun r => { r with corrTiles := r.corrTiles ++ [n] })

/-- An AWL_SCAN issued: its reads checked (R232), tag memories of a CIM_MATCH pair loaded with its AUX (R180), generators restarted,
input checked. -/
def State.issueScan (s : State) (n i : Nat) (q : Request) (w waits : Nat) : State :=
  let pair := ((s.tile n).pairedCim (s.tile n).pc).map (·.2)
  let tags := pair.filter (fun v => decide (Step.opcode v = Op.cimMatch))
  match s.cimReadBad q w (s.slicesOf ((s.tile n).scanStep (s.tile n).pc w).2) ((tags.map Step.aux).getD 0) tags.isSome with
  | some v => s.failStep n i (Step.layer w) q.secure v
  | none =>
    let seed := match s.activePass with
      | some p => p.seed
      | none => []
    let s := (s.issueStep n i w waits).restartScan n i q w seed
    match tags with
    | some v => s.loadTags n i (Step.layer w) (Step.mfirst v) (Step.m v) (Step.aux v)
    | none => s

/-- Generators that locked during a scan (R194): counted, posted and filed; the rescan changes no bit. -/
def State.noteLocks (s : State) (n : Nat) (locked : List Nat) : State :=
  locked.foldl (fun s g =>
    (((s.tally (Off.tile n 0x720) 1).tally (Off.awl 0x18) 1).postEvent bothWorlds Ev.generatorLock 1 n []).fileError
      [worldNum (s.tileSecure n)] (((ErrRec.of .genLock).unit 1 n).details g 0)) s

/-- AWL_SCAN (R179 to R183, R186, R193 to R195). `locked` are the generators found locked (log entry 11). -/
def execAwlScan (tile waits cycles : Nat) (locked : List Nat) (s : State) : Host.Outcome State Fault Refusal :=
  answer s (
    let s := (s.issuing tile Op.awlScan waits (fun s i q w => s.issueScan tile i q w waits)).busyFor tile Op.awlScan 0x728 cycles
    let scanning := (s.tile tile).running.any (fun r => decide (Step.opcode r.w = Op.awlScan) && !r.finished)
    let s := if scanning then s.noteLocks tile locked else s
    s.advance tile Op.awlScan (fun s r q => s.advanceScan tile r q))

end Sys2Proof.Machine
end

