-- ==== Sys2Proof/Machine/MemStacks.lean ====
section
/-! DEFINITION. The memory stacks (R237 to R249): presence, the usable set, patrol scrub, temperatures, protection ranges. -/

namespace Sys2Proof.Machine

/-- The mask of the stacks whose code is 1. -/
def State.readyStacks (s : State) : Nat := ofSetBits ((List.range 24).filter (fun k => decide (s.readyCode 4 k = 1)))

/-- All HBM content lost (R238, R463): the cells, the poison, the pass slots, the cached contexts. -/
def State.loseHbm (s : State) : State :=
  let s := s.clearMem 0 0x00C000000000
  let s := (List.range 4).foldl (fun s c => s.setReg (Off.cway c 8) 0) s
  let s := { s with hbm := { s.hbm with poison := [], flips := [], ctxCache := [], patrolSeen := [] } }
  s.setPasses { s.passes with slots := [] }

/-- The usable set fixed (R237, R238): U, the set, I; MAP_CHANGED when it differs from the set before the warm reset, and then the
content is lost. -/
def State.fixStacks (s : State) : State :=
  let l := s.readyStacks
  let changed := decide (s.hbm.prevStacks ≠ 0) && decide (s.hbm.prevStacks ≠ l)
  let s := (s.setReg (Off.mem 8) l).setRegBits (Off.mem 4) 0 5 (setBits 24 l).length
  let s := s.setRegBit (Off.mem 4) 8 changed
  let s := if changed then s.loseHbm else s
  ({ s with hbm := { s.hbm with usableFixed := true } }.syncLimit).placeAreas

/-- A causeway's code from its stacks (R397, R399): ready with its first stack, failed when none of the six is usable. -/
def State.judgeCauseway (s : State) (c : Nat) : State :=
  let codes := (List.range 6).map (fun k => s.readyCode 4 (6 * c + k))
  if s.readyCode 3 c ≠ 0 then s
  else if codes.contains 1 then s.setReady 3 c 1
  else if codes.all (fun x => decide (x = 2)) then s.setReady 3 c 2
  else s

/-- STACK_READY (R237): a stack trained, or failed. -/
def execStackReady (stack : Nat) (ok : Bool) (s : State) : Host.Outcome State Fault Refusal :=
  answer s (
    if s.sec.stage = .inReset ∨ s.hbm.usableFixed = true ∨ s.readyCode 4 stack ≠ 0 then s
    else
      let s := (s.setReady 4 stack (if ok then 1 else 2)).setRegBit (Off.mem 0xC) stack (!ok)
      let s := s.judgeCauseway (stack / 6)
      if (List.range 24).all (fun k => decide (s.readyCode 4 k ≠ 0)) then s.fixStacks else s)

/-- STACK_FAILED (R238): a usable stack fails: a fatal record; the park begins when it is handled (R438). -/
def execStackFailed (stack : Nat) (s : State) : Host.Outcome State Fault Refusal :=
  answer s (
    if s.hbm.usableFixed = false ∨ s.readyCode 4 stack ≠ 1 then s
    else
      let s := (s.setReady 4 stack 2).setRegBit (Off.mem 0xC) stack true
      s.fileError bothWorlds (((ErrRec.of .stackFailed).unit 4 stack).details stack 0))

/-- Bytes of HBM a causeway's stacks hold. -/
def State.cwayUnits (s : State) (c : Nat) : Nat :=
  ((List.range 6).filter (fun k => s.regBit (Off.mem 8) (6 * c + k))).length * 2 ^ 29

/-- A unit of a causeway scrubbed: the last of a pass adds 1 to MEM_SCRUB_PASSES. -/
def State.scrubCount (s : State) (c : Nat) : State :=
  let n := match s.hbm.patrolSeen.find? (fun e => decide (e.1 = c)) with
    | some e => e.2 + 1
    | none => 1
  let full := decide (s.cwayUnits c ≤ n)
  let rest := s.hbm.patrolSeen.filter (fun e => decide (e.1 ≠ c))
  let s := { s with hbm := { s.hbm with patrolSeen := if full then rest else (c, n) :: rest } }
  if full then s.tally (Off.cway c 0xC) 1 else s

/-- A unit read by scrub (R248): corrected and counted, or poisoned with a POISONED record. One already poisoned is found again and stays so.
`found` is what the check finds where the model holds no change of the unit. -/
def State.scrubUnit (s : State) (a : Nat) (found : CheckOutcome) : State :=
  let c := s.causewayOf a
  let found := match s.hbm.flips.find? (fun f => decide (f.1 = a / 64)) with
    | some f => if f.2 then CheckOutcome.uncorrectable else CheckOutcome.correctable
    | none => found
  let s := { s with hbm := { s.hbm with flips := s.hbm.flips.filter (fun f => decide (f.1 ≠ a / 64)) } }
  match found with
  | .clean => s
  | .correctable => s.tally (Off.cway c 0) 1
  | .uncorrectable =>
    if s.hbm.poison.contains (a / 64) then s
    else ((s.tally (Off.cway c 4) 1).poisonUnit a).fileError bothWorlds { (ErrRec.of .poisoned).unit 3 c with address := a }

/-- PATROL_SCRUB (R248): a unit read in an idle cycle. -/
def execPatrolScrub (unitAddr : Nat) (found : CheckOutcome) (s : State) : Host.Outcome State Fault Refusal :=
  answer s (
    let a := unitAddr / 64 * 64
    if s.hbm.usableFixed = false ∨ s.hbmEnd ≤ a ∨ s.sleep.pkg ≠ .awake then s
    else ((s.snoopLine a).scrubUnit a found).scrubCount (s.causewayOf a))

/-- The units of a 2 MiB unit of HBM read by the patrol of a TEST (R445). -/
def State.scrubPage (s : State) (u : Nat) : State :=
  let s := if s.coherentUnit (u * 2 ^ 21) then s.snoopUnit u else s
  (s.hbm.flips.filter (fun f => decide (f.1 / 32768 = u))).foldl (fun s f => s.scrubUnit (64 * f.1) .clean) s

/-- STACK_TEMP_READ (R249): the temperature shown; the halved interval from 85 °C, the normal one again at 82 °C. -/
def execStackTempRead (stack temp : Nat) (s : State) : Host.Outcome State Fault Refusal :=
  answer s (
    if s.readyCode 4 stack ≠ 1 then s
    else
      let c := stack / 6
      let k := stack % 6
      let s := if k < 4 then s.setRegBits (Off.cway c 0x18) (8 * k) 8 (min 255 temp)
        else s.setRegBits (Off.cway c 0x1C) (8 * (k - 4)) 8 (min 255 temp)
      if 85 ≤ temp then s.setRegBit (Off.cway c 0x10) k true
      else if temp ≤ 82 then s.setRegBit (Off.cway c 0x10) k false
      else s)

/-! ### Protection ranges (R245, R247) -/

/-- Whether a range of 2 MiB units meets a reserved area. -/
def State.unitsMeetArea (s : State) (b n : Nat) : Bool :=
  (List.range 8).any (fun k => decide (0 < s.areaSize k) &&
    unitsMeet b n (s.areaBase k / 2 ^ 21) ((s.areaSize k + 2 ^ 21 - 1) / 2 ^ 21))

/-- A write of MEM_PROTn (R247): a valid range is refused where it meets a reserved area or a region of the other world; an
accepted write sets BUSY. -/
def State.writeProt (s : State) (n v : Nat) (secure : Bool) : State :=
  let b := bitsAt v 0 19
  let k := bitsAt v 19 19
  let ask := bitsAt v 0 39
  let other := s.writtenRegions.any (fun e => (Region.secure e.2 != secure) && unitsMeet b k (Region.base e.2) (Region.size e.2))
  if v.testBit 38 && (s.unitsMeetArea b k || other) then
    (s.setReg64 (Off.memProt n) (bitsAt v 0 38)).tally (Off.mem 0x10) 1
  else s.setReg64 (Off.memProt n) (ask + 2 ^ 39)

/-- MEM_PROT_WRITE (R247). -/
def execMemProtWrite (n : Nat) (value : DWord) (secure : Bool) (s : State) : Host.Outcome State Fault Refusal :=
  answer s (s.posted (Off.memProt n) 8 value.toNat secure (fun s => s.writeProt n value.toNat secure))

/-- The units of a MEM_PROT entry. -/
def State.protUnits (s : State) (n : Nat) : List Nat :=
  let v := s.reg64 (Off.memProt n)
  (List.range (bitsAt v 19 19)).map (bitsAt v 0 19 + ·)

/-- MEM_PROT_DONE (R247): the range re-encoded line by line, the host snooped first where it is coherent (R266); BUSY clears, and what
waited for the range goes on. -/
def execMemProtDone (n : Nat) (s : State) : Host.Outcome State Fault Refusal :=
  answer s (
    if s.regBit (Off.memProt n + 4) 7 = false then s
    else
      let t := ((s.protUnits n).filter (fun u => s.coherentUnit (u * 2 ^ 21))).foldl (fun s u => s.snoopUnit u) s
      ((t.setRegBit (Off.memProt n + 4) 7 false).goOnHost).goOnPackets)

end Sys2Proof.Machine
end

