-- ==== Sys2Proof/Machine/Groups.lean ====
section
/-! DEFINITION. Groups, collectives and barriers; lost partners; partitions (R347, R354 to R359). -/

namespace Sys2Proof.Machine

/-! ### Groups (R354) -/

/-- An instance of a group. -/
def State.inst? (s : State) (g : Nat) (barrier : Bool) (n : Nat) : Option GroupInst :=
  s.ix.insts.find? (fun x => decide (x.group = g) && (x.isBarrier == barrier) && decide (x.number = n))

/-- An instance entered or changed. -/
def State.setInst (s : State) (x : GroupInst) : State :=
  { s with ix := { s.ix with insts := x :: s.ix.insts.filter (fun y =>
      !(decide (y.group = x.group) && (y.isBarrier == x.isBarrier) && decide (y.number = x.number))) } }

/-- An instance gone. -/
def State.dropInst (s : State) (x : GroupInst) : State := { s with ix := { s.ix with insts := s.ix.insts.filter (fun y =>
    !(decide (y.group = x.group) && (y.isBarrier == x.isBarrier) && decide (y.number = x.number))) } }

/-- The number of a group's next instance of a kind on this member, and the count moved on. -/
def State.instNext (s : State) (g : Nat) (barrier : Bool) : Nat :=
  match s.ix.instCount.find? (fun e => decide (e.1 = 2 * g + barrier.toNat)) with
  | some e => e.2
  | none => 0
def State.countInst (s : State) (g : Nat) (barrier : Bool) : State :=
  let k := 2 * g + barrier.toNat
  { s with ix := { s.ix with instCount := (k, s.instNext g barrier + 1) :: s.ix.instCount.filter (fun e => decide (e.1 ≠ k)) } }

/-- The unfinished instances of a group end: `f` ends the request of each. -/
def State.endGroup (s : State) (g : Nat) (f : State → Nat → State) : State :=
  let l := s.ix.insts.filter (fun x => decide (x.group = g))
  let s := { s with ix := { s.ix with
    insts := s.ix.insts.filter (fun x => decide (x.group ≠ g)), early := s.ix.early.filter (fun x => decide (x.group ≠ g)) } }
  l.foldl (fun s x => match x.req with
    | some i => f s i
    | none => s) s

/-- The COLLECTIVEs and BARRIERs of a group in flight, joined or not. -/
def State.groupReqs (s : State) (g : Nat) : List Nat :=
  (s.reqs.filter (fun e => decide (e.2.phase ≠ .finished) &&
    ((decide (e.2.opcode = Dop.collective) && decide (e.2.fld 0xA 2 = g)) || (decide (e.2.opcode = Dop.barrier) && decide (e.2.fld 0xC 2 = g))))).map (·.1)

/-- A word of a group's bitmap written (R354, R358): unfinished instances end with ABORTED, the count restarts, DEGRADED clears. -/
def State.setGroup (s : State) (group word v : Nat) : State :=
  let s := s.setReg (Off.grp group (4 * word)) v
  let s := s.endGroup group (fun s i => s.failReq i .aborted .abort id)
  let s := { s with ix := { s.ix with instCount := s.ix.instCount.filter (fun e => decide (e.1 / 2 ≠ group)) } }
  s.syncGroup group false

/-- On the manager the write goes to every device that is a member before or after it, so that its instances end there too. -/
def State.writeGroup (s : State) (group word v : Nat) : State :=
  if s.isManager = false then s.setGroup group word v
  else
    let t := s.setGroup group word v
    ((s.groupMembers group ++ t.groupMembers group).eraseDups.filter (fun d => decide (d ≠ s.devNum))).foldl
      (fun t d => t.manage d [16, group, word, v]) (t.emit (.groupWrite group word v))

/-- GROUP_WRITE (R354, R358): a word of the bitmap; unfinished instances end with ABORTED, the count restarts, DEGRADED clears. On a
member it is the manager's bitmap as the foreman hands it on (DEDUCED, log entry 36). -/
def execGroupWrite (group word : Nat) (value : Word) (s : State) : Host.Outcome State Fault Refusal :=
  answer s (if s.isManager || s.isSub then s.posted (Off.grp group (4 * word)) 4 value.toNat false (fun s => s.writeGroup group word value.toNat)
    else s.writeGroup group word value.toNat)

/-- What a descriptor of a group meets at its start: not a member, a group that lost one, no route of its world; none when it may
join. -/
def State.joinRefused (s : State) (i : Nat) (q : Request) (g off : Nat) : Option State :=
  let l := s.groupMembers g
  if l.contains s.devNum = false then some (s.failReq i .faultDescriptor .descriptor (fun e => e.details off 0))
  else if s.degraded g then some (s.failDegraded i g)
  else if l.any (fun d => decide (d ≠ s.devNum) && (s.dataPorts d q.secure).isEmpty) then some (s.noRoute i)
  else none

/-! ### Collectives (R355, R356) -/

/-- Element size of a kind (R355 Table 9), and the chunk of a length (R356). -/
def collElem (kind : Nat) : Nat := [4, 8, 4, 4, 4, 2, 1, 1, 16].getD kind 1
def collChunk (len : Nat) : Nat := if len < 2 ^ 18 then 2 ^ 14 else 2 ^ 16

/-- The bytes a member receives, and the bytes of DST that are then final. -/
def collExpect (kind len n : Nat) (root : Bool) : Nat := if kind = 7 then (if root then 0 else len) else (n - 1) * len
def collFinal (kind len n : Nat) : Nat := if kind = 6 then n * len else len

/-- What joining one element with another gives: the bytes, and whether an integer sum wrapped. -/
def joinElem (kind a b : Nat) : List Byte × Bool :=
  match kind with
  | 0 =>
    let x := signedOf 32 a + signedOf 32 b
    (natLe 4 (twos 32 x), decide (signedOf 32 (twos 32 x) ≠ x))
  | 1 =>
    let x := signedOf 64 a + signedOf 64 b
    (natLe 8 (twos 64 x), decide (signedOf 64 (twos 64 x) ≠ x))
  | 2 => (natLe 4 (twos 32 (max (signedOf 32 a) (signedOf 32 b))), false)
  | 3 => (natLe 4 (twos 32 (min (signedOf 32 a) (signedOf 32 b))), false)
  | 4 => (natLe 4 (fadd a b), false)
  | _ => (recordOf (Rec.value a + Rec.value b) (Rec.tag a) (Rec.terms a + Rec.terms b), false)

/-- An FP32 pattern rounded to BF16 (R200). -/
def bf16Bits (v : Nat) : Nat :=
  let f : Fmt := ⟨8, 7, true⟩
  f.encode (f.narrow (fp32 v))

/-- What forbids joining two export records (R83, R87): reserved bits, two tags, too many terms. -/
def recordClash (a b : Nat) : Option Reason :=
  if Rec.reserved a ≠ 0 ∨ Rec.reserved b ≠ 0 then some .record
  else if Rec.tag a ≠ Rec.tag b then some .seam
  else if 2 ^ 40 - 1 < Rec.terms a + Rec.terms b then some .terms
  else none

/-! ### The schedule (R356) -/

/-- The parent of a device in the tree, from the links. -/
def State.treeParent (s : State) (d : Nat) : Option Nat :=
  match s.ix.links.find? (fun l => l.tree && decide (l.far = d)) with
  | some l => some l.near
  | none => if d = s.devNum then s.ix.uplink.map (fun p => s.partnerNo p) else none

/-- The nearest device above another that is a member, three links up at most. -/
def State.memberAbove (s : State) (l : List Nat) : Nat → Nat → Option Nat
  | 0, _ => none
  | k + 1, d => match s.treeParent d with
    | none => none
    | some p => if l.contains p then some p else s.memberAbove l k p

/-- The parent of a member in a group's tree over the hierarchy: the nearest member above it; the members with none hang from the first of
them. -/
def State.collParent (s : State) (l : List Nat) (d : Nat) : Option Nat :=
  match s.memberAbove l 3 d with
  | some p => some p
  | none => match l.find? (fun x => (s.memberAbove l 3 x).isNone) with
    | some t => if t = d then none else some t
    | none => none

/-- The members on the way from one up to the root, itself first. -/
def State.collPath (s : State) (l : List Nat) : Nat → Nat → List Nat
  | 0, d => [d]
  | k + 1, d => match s.collParent l d with
    | some p => d :: s.collPath l k p
    | none => [d]

/-- The neighbour of a member in the group's tree that lies towards another. -/
def State.collTowards (s : State) (l : List Nat) (me d : Nat) : Option Nat :=
  let path := s.collPath l 5 d
  if path.contains me then path[path.idxOf me - 1]? else s.collParent l me

/-- The members to which this one passes the contribution of another, or its own, to a chunk on (R356): below 256 KiB its neighbours in the tree
but for the one it came from; else the next in the ring, for the second half of the data the one before, until it is round. -/
def State.collTargets (s : State) (l : List Nat) (len off from_ : Nat) : List Nat :=
  let me := s.devNum
  if l.length < 2 then []
  else if len < 2 ^ 18 then
    (l.filter (fun d => decide (s.collParent l d = some me) || decide (s.collParent l me = some d))).filter (fun d =>
      decide (from_ = me) || decide (s.collTowards l me from_ ≠ some d))
  else
    let next := if off * 2 < len then ringNext l me else ringPrev l me
    if next = from_ then [] else [next]

/-- A chunk sent to a member: by a port that joins them directly, on the collective lane, else by the routed path, as data (R356). -/
def State.sendChunk (s : State) (d : Nat) (secure : Bool) (x : GroupInst) (rank chunk : Nat) (data : List Byte) : State :=
  let bytes := ctlPacket [15, x.group, x.number, rank, chunk, x.kind, x.len] ++ data
  let s := s.emit (.collectiveChunk x.group x.number chunk data)
  match (List.range 16).find? (fun p => decide (s.ixState p = 3) && decide (s.partnerNo p = d) && (s.portSecure p == secure)) with
  | some p => s.sendBytes p 2 bytes
  | none => match s.dataPort d secure with
    | some p => s.sendBytes p 1 bytes
    | none => s

/-- A packet of a group's instance to every other member, on the collective lane. -/
def State.tellMembers (s : State) (g : Nat) (secure : Bool) (items : List Nat) : State :=
  ((s.groupMembers g).filter (fun d => decide (d ≠ s.devNum))).foldl (fun s d => match (s.dataPorts d secure).head? with
    | some p => s.sendCtl p 2 items
    | none => s) s

/-- A finished collective ends. -/
def State.settleColl (s : State) (x : GroupInst) (root : Bool) : State :=
  let n := (s.groupMembers x.group).length
  match x.req with
  | none => s
  | some i => if x.done = collExpect x.kind x.len n root then (s.dropInst x).finishOk i (collFinal x.kind x.len n) else s

/-- The bytes of DST that are final (R355): the gathered and broadcast kinds' as they come, the joined kinds' once every other member's
contribution to the chunk has come. -/
def GroupInst.finalBytes (x : GroupInst) (n chunk size : Nat) : Nat :=
  if x.kind = 6 ∨ x.kind = 7 then size else if sget (fun _ => 0) x.got chunk = n - 1 then size else 0

/-- Records that may not be added end the instance on every member with FAULT_SEAM (R355). -/
def collStopOf (r : Reason) : CollStop :=
  match r with
  | .seam => .seam
  | .terms => .terms
  | _ => .record

/-- The reason and status of an instance's end that another member tells of. -/
def collEnd (c : CollStop) : Option (Status × Reason) :=
  match c with
  | .none => none
  | .mismatch => some (.faultDescriptor, .mismatch)
  | .seam => some (.faultSeam, .seam)
  | .terms => some (.faultSeam, .terms)
  | .record => some (.faultSeam, .record)

/-- This member's instance ended for a reason, the other members told. -/
def State.stopInst (s : State) (i : Nat) (q : Request) (x : GroupInst) (c : CollStop) : State :=
  match collEnd c with
  | none => s
  | some (st, r) =>
    let s := (s.dropInst x).failReq i st r (fun e => if r = .mismatch then e.details x.group x.number else e)
    let s := s.emit (if r = .mismatch then .mismatch x.group x.number else .collStop x.group x.number c)
    s.tellMembers x.group q.secure [14, x.group, x.number]

/-- One chunk joined into DST and passed on; a member's contribution to it. -/
def State.takeChunk (s : State) (i : Nat) (q : Request) (x : GroupInst) (rank chunk : Nat) (data : List Byte) : State :=
  let off := chunk * collChunk x.len
  let dst := q.fld 0x18 8 + off + (if x.kind = 6 then rank * x.len else 0)
  let e := collElem x.kind
  match (if x.kind = 6 ∨ x.kind = 7 then (s, data, .none) else s.readRange q.secure false dst data.length) with
  | (_, _, .waits) => s
  | (t, _, .refused st a) => (t.dropInst x).stopMove i q.pos st a
  | (t, old, .none) =>
    let pairs := (wordsOf e old).zip (wordsOf e data)
    let clash := if x.kind = 8 then pairs.findSome? (fun p => recordClash p.1 p.2) else none
    match clash with
    | some r => t.stopInst i q x (collStopOf r)
    | none =>
      let joined := pairs.map (fun p => joinElem x.kind p.1 p.2)
      let sums := (wordsOf 2 data).zipIdx.map (fun p =>
        let k := off / 2 + p.2
        (k, fadd (sget (fun _ => 0) x.acc k) (p.1 * 65536)))
      let bs := if x.kind = 6 ∨ x.kind = 7 then data
        else if x.kind = 5 then (sums.map (fun p => natLe 2 (bf16Bits p.2))).flatten
        else (joined.map (·.1)).flatten
      let x := { x with
        done := x.done + data.length
        got := sput (fun _ => 0) x.got chunk (sget (fun _ => 0) x.got chunk + 1)
        acc := if x.kind = 5 then sums.foldl (fun a p => sins p.1 p.2 a) x.acc else x.acc }
      match t.writeRange q.secure dst bs with
      | (_, _, .waits) => s
      | (u, k, .refused st a) => ((u.undefinedRest q.secure dst k (bs.drop k)).dropInst x).stopMove i q.pos st a
      | (u, _, .none) =>
        let u := (u.tally (Off.ix 0x38) (joined.filter (fun j => j.2)).length).setInst x
        let l := u.groupMembers x.group
        let u := (u.collTargets l x.len off (l.getD rank 0)).foldl (fun u d => u.sendChunk d q.secure x rank chunk data) u
        u.progress i (q.pos + x.finalBytes l.length chunk data.length)

/-- A chunk of an instance that this member has joined (R354 to R356): joined and passed on (DEDUCED, log entry
36: the schedule moves contributions; the exact kinds give the same bits however they are combined). A chunk that disagrees on
KIND or LENGTH ends the instance with MISMATCH on every member; so does a packet that tells of such an end. -/
def State.memberChunk (s : State) (group inst rank chunk kind len : Nat) (data : List Byte) (stop : CollStop) : State :=
  match s.inst? group false inst with
    | none => s
    | some x => match x.req with
      | none => s
      | some i => match s.req? i with
        | none => s
        | some q =>
          if q.phase ≠ .running then s
          else match collEnd stop with
          | some (st, r) => (s.dropInst x).failReq i st r (fun e => if r = .mismatch then e.details group inst else e)
          | none =>
            if kind ≠ x.kind ∨ len ≠ x.len then s.stopInst i q x .mismatch
            else if (s.groupMembers group).idxOf s.devNum = rank ∨ (x.kind = 7 ∧ rank ≠ 0) then s
            else s.takeChunk i q x rank chunk data

/-- A finished instance ends. -/
def State.settleInst (s : State) (g inst : Nat) (root : Bool) : State :=
  match s.inst? g false inst with
  | some x => s.settleColl x root
  | none => s

/-- COLLECTIVE_CHUNK (R354 to R356): for an instance joined, its effect; one that comes before this member has joined waits for that. -/
def State.collectiveChunk (s : State) (group inst rank chunk : Nat) (kind len : Nat) (data : List Byte) (stop : CollStop) : State :=
  let l := s.groupMembers group
  if (s.inst? group false inst).isNone ∧ s.instNext group false ≤ inst ∧ l.contains s.devNum = true then
    { s with ix := { s.ix with early := s.ix.early ++
      [{ group := group, inst := inst, rank := rank, chunk := chunk, kind := kind, len := len, data := data, stop := stop }] } }
  else (s.memberChunk group inst rank chunk kind len data stop).settleInst group inst (decide (l.headD 0 = s.devNum))

/-- A member joins (R354): it counts whatever its own range then meets; its own part stands at DST, its chunks go out by the schedule. -/
def State.joinColl (s : State) (i : Nat) (q : Request) : State :=
  let kind := q.fld 8 1
  let g := q.fld 0xA 2
  let len := q.fld 0x20 4
  let l := s.groupMembers g
  let me := s.devNum
  let root := decide (l.headD 0 = me)
  let gives := kind ≠ 7 ∨ root = true
  let dst := q.fld 0x18 8 + (if kind = 6 then l.idxOf me * len else 0)
  match (if gives then s.readRange q.secure false (q.fld 0x10 8) len else (s, [], .none)) with
  | (_, _, .waits) => s
  | (t, _, .refused st a) => (t.countInst g false).stopMove i 0 st a
  | (t, bs, .none) =>
    match (if gives then t.writeRange q.secure dst bs else (t, 0, .none)) with
    | (_, _, .waits) => s
    | (u, k, .refused st a) => ((u.undefinedRest q.secure dst k (bs.drop k)).countInst g false).stopMove i 0 st a
    | (u, _, .none) =>
      let inst := u.instNext g false
      let acc := if kind = 5 then (wordsOf 2 bs).zipIdx.map (fun e => (e.2, e.1 * 65536)) else []
      let x : GroupInst :=
        { group := g, number := inst, isBarrier := false, kind := kind, len := len, joined := [me], firstAt := u.now,
          req := some i, done := 0, acc := acc, got := [] }
      let own := if kind = 6 ∨ kind = 7 then bs.length else 0
      let u := ((u.countInst g false).setInst x).updReq i (fun r => { r with phase := .running, aux := inst, pos := own })
      let u := (chunksOf (collChunk len) bs).zipIdx.foldl (fun u c =>
        (u.collTargets l len (c.2 * collChunk len) me).foldl (fun u d => u.sendChunk d q.secure x (l.idxOf me) c.2 c.1) u) u
      let early := u.ix.early.filter (fun e => decide (e.group = g) && decide (e.inst = inst))
      let u := { u with ix := { u.ix with early := u.ix.early.filter (fun e => !(decide (e.group = g) && decide (e.inst = inst))) } }
      (early.foldl (fun u e => u.memberChunk e.group e.inst e.rank e.chunk e.kind e.len e.data e.stop) u).settleInst g inst root

/-- COLLECTIVE (R354 to R356, R358). -/
def State.runCollective (s : State) (req : Nat) : State :=
  s.starting req Dop.collective (fun s q =>
    match s.joinRefused req q (q.fld 0xA 2) 0x0A with
    | some t => t
    | none => s.joinColl req q)

/-! ### Barriers (R357) -/

/-- A worker's lag recorded: the last 1,024, their mean and the largest in its map entry. -/
def State.notePace (s : State) (d lag : Nat) : State :=
  let mine := keepLast 1024 ((s.ix.pace.filter (fun (e : Nat × Nat) => decide (e.1 = d))).map (·.2) ++ [lag])
  let s := { s with ix := { s.ix with pace := s.ix.pace.filter (fun (e : Nat × Nat) => decide (e.1 ≠ d)) ++ mine.map (fun v => (d, v)) } }
  ((s.setReg (Off.map d 0x10) (sumNat mine / mine.length)).setReg (Off.map d 0x14) (mine.foldl max 0)).tally (Off.map d 0x18) 1

/-- The request of a barrier instance ends. -/
def State.endBarrier (s : State) (x : GroupInst) (f : State → Nat → State) : State :=
  match x.req with
  | some i => f s i
  | none => s

/-- The manager records an arrival (R354, R357): a disagreement on BARRIER_ID ends the instance, the last arrival completes it. -/
def State.recordArrival (s : State) (g inst member id_ : Nat) (secure : Bool) (req : Option Nat) : State :=
  let x := (s.inst? g true inst).getD
    { group := g, number := inst, isBarrier := true, kind := id_, len := 0, joined := [], firstAt := s.now, req := none,
      done := 0, acc := [], got := [] }
  let x := { x with req := req.orElse (fun _ => x.req), joined := (x.joined ++ [member]).eraseDups }
  let s := match x.req with
    | some i => s.updReq i (fun r => { r with pos := x.joined.length })
    | none => s
  let s := if member = 0 then s else s.notePace member (s.now - x.firstAt)
  let all := (s.groupMembers g).all (fun d => x.joined.contains d)
  if x.kind ≠ id_ ∨ x.done = 1 then
    let s := (s.endBarrier x (fun s i => s.failReq i .faultDescriptor .mismatch (fun e => e.details g inst))).emit (.mismatch g inst)
    let s := s.tellMembers g secure [14, g, inst]
    if all then s.dropInst x else s.setInst { x with done := 1, req := none }
  else if all then
    (((s.dropInst x).endBarrier x (fun s i => s.finishOk i (s.groupMembers g).length)).emit (.barrierDone g inst)).tellMembers g secure [13, g, inst]
  else s.setInst x

/-- BARRIER (R354, R357, R358): joins the next instance of its group; the manager records its own arrival at once. -/
def execBarrier (req : Nat) (s : State) : Host.Outcome State Fault Refusal :=
  answer s (s.starting req Dop.barrier (fun s q =>
    let g := q.fld 0xC 2
    match s.joinRefused req q g 0x0C with
    | some t => t
    | none =>
      let inst := s.instNext g true
      let s := (s.countInst g true).updReq req (fun r => { r with phase := .running, aux := inst })
      if s.isManager then s.recordArrival g inst 0 (q.fld 8 4) q.secure (some req)
      else
        let x : GroupInst :=
          { group := g, number := inst, isBarrier := true, kind := q.fld 8 4, len := 0, joined := [s.devNum], firstAt := s.now,
            req := some req, done := 0, acc := [], got := [] }
        let s := ((s.setInst x).updReq req (fun r => { r with pos := 1 })).emit (.barrierArrive g inst (q.fld 8 4))
        match (s.dataPorts 0 q.secure).head? with
        | some p => s.sendCtl p 2 [12, g, inst, q.fld 8 4]
        | none => s))

/-- BARRIER_ARRIVAL (R357): on the manager. -/
def execBarrierArrival (group inst member barrierId : Nat) (secure : Bool) (s : State) : Host.Outcome State Fault Refusal :=
  answer s (if s.isManager = false ∨ (s.groupMembers group).contains member = false then s
    else s.recordArrival group inst member barrierId secure none)

/-- BARRIER_COMPLETE_NOTICE (R354, R357): POSITION is the number of members; or the manager tells that the members disagree. -/
def execBarrierCompleteNotice (group inst : Nat) (mismatch : Bool) (s : State) : Host.Outcome State Fault Refusal :=
  answer s (match s.inst? group true inst with
    | none => s
    | some x => if x.req.isNone then s
      else (s.dropInst x).endBarrier x (fun s i =>
        if mismatch then s.failReq i .faultDescriptor .mismatch (fun e => e.details group inst)
        else s.finishOk i (s.groupMembers group).length))

/-! ### Lost devices (R347, R358) -/

/-- The port by which a device was reached. -/
def State.portOf (s : State) (d : Nat) : Nat :=
  match (List.range 16).find? (fun p => decide (s.partnerNo p = d) && decide (2 ≤ s.ixState p)) with
  | some p => p
  | none => s.ix.uplink.getD 0

/-- A window to a lost device: its unanswered bytes counted as lost, one record filed, the slot marked CLOSED_BY_PEER, what waits
on it ended. -/
def State.loseWindow (s : State) (d w : Nat) : State :=
  let e := s.winEpoch w
  let wr := s.reg (Off.win w 0x28)
  let rd := s.reg (Off.win w 0x3C)
  let s := (((s.tally (Off.win w 0x24) wr).setReg (Off.win w 0x28) 0).tally (Off.win w 0x38) rd).setReg (Off.win w 0x3C) 0
  let s := { s with ix := { s.ix with
    txns := s.ix.txns.filter (fun t => decide (t.window ≠ w))
    closeAnswered := s.ix.closeAnswered.filter (fun x => decide (x ≠ w)) } }
  let s := s.fileError [worldNum (s.winSecure w)] (((ErrRec.of .window).unit 9 d).details (w + 2 ^ 32 * e) (wr + rd))
  let s := s.winClosedByPeer w
  let gone := fun (s : State) (i : Nat) => s.failReq i .faultPartnerLost .partner (fun x => (x.unit 9 d).details d (s.portOf d))
  let s := (s.slotReqs Dop.windowOpen w).foldl gone s
  let s := (s.slotReqs Dop.windowClose w).foldl (fun s i => s.finishOk i e) s
  (s.liveCopies w e).foldl gone s

/-- What a device does for one lost device. -/
def State.loseDevice (s : State) (port d : Nat) : State :=
  let ws := (List.range 256).filter (fun w => decide (s.winPeer w = d) &&
    (decide (s.winState w ≠ 0) || s.ix.txns.any (fun t => decide (t.window = w))))
  let s := ws.foldl (fun s w => s.loseWindow d w) s
  let s := s.closeInbound (fun e => decide (e.src = d))
  let gs := (List.range 256).filter (fun g => s.regBit (Off.grp g (4 * (d / 32))) (d % 32))
  let s := gs.foldl (fun s g =>
    ((s.groupReqs g).foldl (fun s i => s.failReq i .faultPartnerLost .partner (fun e => (e.unit 9 d).details d (s.portOf d)))
      (s.endGroup g (fun s _ => s))).syncGroup g true) s
  s.postEvent bothWorlds Ev.partnerLost 9 d (padTo 16 (Config.packEvent Ev.partnerLost [d, port]))

/-- The update's lost devices: those not lost before are acted for; what is held of them is discarded. -/
def State.loseDevices (s : State) (port : Option Nat) (lost : List Nat) : State :=
  let new := lost.filter (fun d => !s.ix.lost.contains d)
  let s := { s with ix := { s.ix with lost := lost } }
  (new.foldl (fun s d => s.loseDevice (port.getD (s.portOf d)) d) s).reviewHeld

/-- MAP_UPDATE (R342, R347 to R349, R358): the links and the attached devices stand as told, a newer incarnation discards what is held of an
older one, the lost devices are acted for; a sub-manager hands it on to its children (R340), its own map entries following. Of a sender that has
lost its path to the manager the device learns that it has lost its own. -/
def execMapUpdate (port : Nat) (news : MapNews) (s : State) : Host.Outcome State Fault Refusal :=
  answer s (
    if s.confirmed = false then s
    else
      let s := if s.isSub then
          (news.lost.foldl (fun s d => if s.mapState d = 1 then s.setRegBits (Off.map d 0) 0 2 2 else s) s).sendNews news
        else s
      if news.cut then (if s.ix.uplink = some port then s.runFree else s)
      else
        let s := { s with ix := { s.ix with links := news.links, devices := news.devices.map (fun d => d.1) } }
        (news.devices.foldl (fun (s : State) d => s.noteIncarnation d.1 d.2) s).loseDevices (some port) news.lost)

/-- The devices that some link still reaches, the lost ones apart. -/
def reached (links : List IxLink) : Nat → List Nat → List Nat
  | 0, seen => seen
  | k + 1, seen => reached links k (seen ++ nextDevs links seen)

/-- The devices that no remaining route reaches, by the tree or by cross links, the noticed ones among them (R347). -/
def State.unreachable (s : State) (lost : List Nat) : List Nat :=
  let links := s.ix.links.filter (fun l => !lost.contains l.near && !lost.contains l.far)
  let there := reached links links.length [s.devNum]
  s.attachedDevs.filter (fun d => lost.contains d || !there.contains d)

/-- LOSS_NOTICE (R347): the manager marks the lost devices, sends the map update, and acts for them itself. -/
def execLossNotice (lost : List Nat) (s : State) : Host.Outcome State Fault Refusal :=
  answer s (
    if s.isManager = false then s
    else
      let l := s.unreachable (lost.filter (fun d => decide (s.mapState d = 1)))
      let s := l.foldl (fun s d => s.setRegBits (Off.map d 0) 0 2 2) s
      let s := { s with ix := { s.ix with links := s.ix.links.filter (fun x => !l.contains x.near && !l.contains x.far) } }
      (s.sendNews s.mapNews).loseDevices none s.mapNews.lost)

/-! ### Roles (R340) -/

/-- IX_ROLE_CONFIRM (R340): a secure write of IX_ROLE with CONFIRM set. -/
def execIxRoleConfirm (value : Word) (secure : Bool) (s : State) : Host.Outcome State Fault Refusal :=
  answer s (s.when (value.getLsbD 2) (fun s => s.posted (Off.ix 0) 4 value.toNat secure (fun s =>
    s.secureOnly secure (Off.ix 0) (fun s => s.writeRole value.toNat))))

/-! ### Partitions (R359) -/

/-- MAP_PARTITION written on a manager or sub-manager: the value is delivered to the device it names. -/
def State.writePartition (s : State) (device : Nat) (value : DWord) : State :=
  if (s.isManager || s.isSub) = false then s
  else
    let s := (s.setReg64 (Off.map device 8) value.toNat).emit (.partition device value)
    if device = s.devNum then s.setReg64 (Off.ix 0x18) value.toNat
    else s.manage device [9, value.toNat]

/-- MAP_PARTITION_WRITE (R359): the foreman delivers the value over the management lane. The map of a device that is neither
manager nor sub-manager reads zero and takes no write (R360). -/
def execMapPartitionWrite (device : Nat) (value : DWord) (s : State) : Host.Outcome State Fault Refusal :=
  answer s (s.posted (Off.map device 8) 8 value.toNat false (fun s => s.writePartition device value))

/-- PARTITION_DELIVERY (R359). -/
def execPartitionDelivery (value : DWord) (s : State) : Host.Outcome State Fault Refusal :=
  answer s (if s.mapped = false ∨ s.isManager = true then s else s.setReg64 (Off.ix 0x18) value.toNat)

end Sys2Proof.Machine
end

