-- ==== Sys2Proof/Machine/Park.lean ====
section
/-! DEFINITION. Parking (R313 to R319): its start, its completion, the step time-out, the resumption, the halting park and the
on-die copy of its requests. -/

namespace Sys2Proof.Machine

/-- PARK_STATUS HALT and the causes of R319. -/
def State.halted (s : State) : Bool := s.regBit (Off.park 0) 2
def Cause.vr : Nat := 0
def Cause.link : Nat := 1
def Cause.request : Nat := 2
def Cause.stack : Nat := 3
def Cause.fatal : Nat := 4
def State.parkCause (s : State) (c : Nat) : Bool := s.regBit (Off.park 4) c

/-- The requests accepted and not ended. -/
def State.openReqs (s : State) : List Nat := (s.reqs.filter (fun e => decide (e.2.phase ≠ .finished))).map (·.1)

/-- Whether the park records fit the save-image area (R313). -/
def State.parkFits (s : State) : Bool := decide (4 * gib + 384 * 2 ^ 20 ≤ s.areaSize 5)

/-- Requests ended with ABORTED, reason PARK (R313, R315), counted. -/
def State.abortParked (s : State) (l : List Nat) : State :=
  (l.foldl (fun s i => s.failReq i .aborted .park id) s).tally (Off.park 0x1C) (l.filter (fun i => s.openReqs.contains i)).length

/-- A cause of parking noted; the first begins the park: its count, its time. -/
def State.noteCause (s : State) (c : Nat) : State :=
  let s := if s.parkState = 0 then
      let s := s.raiseIbi 4
      { ((s.tally (Off.park 0xC) 1).setReg64 (Off.park 0x10) s.now).setReg (Off.park 4) 0 with
        park := { s.park with since := s.now } }
    else s
  s.setRegBit (Off.park 4) c true

/-- A suspending park begins (R315): fetching and issuing stop. Where no park record fits, every request in flight ends at once
(R313). A park already begun only gains the cause. -/
def State.startPark (s : State) (c : Nat) : State :=
  if s.parkState ≠ 0 then s.noteCause c
  else
    let s := (s.noteCause c).setRegBits (Off.park 0) 0 2 1
    if s.parkFits then s else s.abortParked s.openReqs

/-- PARK (R314, R319): a secure write of PARK_CTRL with PARK set. -/
def execPark (value : Word) (secure : Bool) (s : State) : Host.Outcome State Fault Refusal :=
  answer s (s.when (value.getLsbD 0) (fun s => s.posted (Off.park 8) 4 value.toNat secure (fun s =>
    s.secureOnly secure (Off.park 8) (fun s => s.startPark Cause.request))))

/-- The request's cause withdrawn, where it is the only one (R319). -/
def State.endRequest (s : State) : State :=
  if s.reg (Off.park 4) ≠ 4 ∨ s.parkState = 0 then s
  else
    let s := s.setReg (Off.park 4) 0
    if s.parkState = 2 then s.setRegBits (Off.park 0) 0 2 3 else s

/-- UNPARK (R319): a secure write of PARK_CTRL with UNPARK set. -/
def execUnpark (value : Word) (secure : Bool) (s : State) : Host.Outcome State Fault Refusal :=
  answer s (s.when (value.getLsbD 1 && !value.getLsbD 0) (fun s => s.posted (Off.park 8) 4 value.toNat secure (fun s =>
    s.secureOnly secure (Off.park 8) (fun s => s.endRequest))))

/-- Whether nothing issued is still running: no step, no toe-heel entry, no activation past its drain (R315). -/
def State.quiet (s : State) : Bool :=
  s.tiles.all (fun e => e.2.running.isEmpty) && s.th.all (fun e => e.2.running.isNone) &&
  !s.passes.pending.any (fun a => decide (a.phase = .written))

/-- The bytes of a tile's scratchpad: 24 banks (R219). -/
def spSize : Nat := 0x180000

/-- Where the park records of Table 4 stand in area 5 (R313). -/
def State.tileRecord (s : State) (n : Nat) : Nat := s.areaBase 5 + n * 2 ^ 22
def State.thRecord (s : State) (u : Nat) : Nat := s.areaBase 5 + 4 * gib + u * 2 ^ 24
def State.junctionRecord (s : State) : Nat := s.areaBase 5 + 4 * gib + 2 ^ 28

/-- Bytes of a park record whose layout the spec does not give: free values (log entry 32). -/
def State.freeRecord (s : State) (a n : Nat) : State :=
  { s.fillMem a ((List.range n).map (fun i => Config.freeByte (s.free + i))) with free := s.free + n }

/-- The park record of a tile (R313 Table 4): its scratchpad first, as the table lists it, then the rest of what it holds. -/
def State.writeTileRecord (s : State) (n : Nat) : State :=
  (s.fillMem (s.tileRecord n) (s.memBytes (spBase n) spSize)).freeRecord (s.tileRecord n + spSize) (2 ^ 22 - spSize)

/-- PARK_COMPLETE (R315): the park records written, the contexts back, the rails idle. What the records hold beside scratchpads stays
where the model keeps it too (DEDUCED, log entry 32). -/
def execParkComplete (s : State) : Host.Outcome State Fault Refusal :=
  answer s (
    if s.parkState ≠ 1 ∨ s.quiet = false then s
    else
      let s := ((s.setRegBits (Off.park 0) 0 2 2).setReg (Off.park 0x18) s.openReqs.length)
      let tiles := s.tiles.map (·.1)
      let s := { s with
        park := { s.park with records := if s.parkFits then tiles else [], railsIdle := true }
        hbm := { s.hbm with ctxCache := [] } }
      if s.parkFits then
        (((s.th.map (·.1)).foldl (fun s u => s.freeRecord (s.thRecord u) (2 ^ 24)) (tiles.foldl (fun s n => s.writeTileRecord n) s)).freeRecord
          s.junctionRecord (2 ^ 27))
      else s)

/-- The requests with a step still running or a kernel still in its unit. -/
def State.stuckReqs (s : State) : List Nat :=
  sortNat ((s.tiles.flatMap (fun e => e.2.running.map (·.req))) ++ s.th.filterMap (fun e => e.2.running.map (·.req)))

/-- PARK_STEP_TIMEOUT (R315): 20 ms after the tiles stopped issuing, 1 µs into the park, the requests of the steps still running
end; their open state is discarded. -/
def execParkStepTimeout (s : State) : Host.Outcome State Fault Refusal :=
  answer s (
    if s.parkState ≠ 1 ∨ s.now < s.park.since + 20001000 then s
    else
      let s := s.abortParked (s.stuckReqs.filter (fun i => s.openReqs.contains i))
      (s.th.map (·.1)).foldl (fun s u => match (s.thUnit u).running with
        | some _ => (((s.setTh u { s.thUnit u with running := none }).setRegBits (Off.th u 0) 0 2 1).untally (Off.th u 0x10)
            1).tally (Off.th u 0xC) 1
        | none => s) s)

/-- Whether every cause of the park has ended (R314): the alert released for 1 ms, a module up and the link ready, UNPARK
written. -/
def State.causesOver (s : State) : Bool :=
  (!s.parkCause Cause.vr || !s.power.vrForced) && (!s.parkCause Cause.link || s.link.up) && !s.parkCause Cause.request

/-- The readiness sequence of a tread at an unpark (R316, R397): a ready tread's loop locks and its mesh is tested again, and it reports
ready again (DEDUCED, log entry 32). -/
def State.treadAgain (s : State) (t : Nat) : State :=
  if s.readyCode 0 (4 + t) = 1 then (s.setReady 0 (4 + t) 0).setReady 0 (4 + t) 1 else s

/-- A tile's scratchpad read back from its park record (R316). No request reads here that could end: the words of a unit of the record that
cannot be read stay bad until they are written (R232, R246; DESIGN CHOICE, log entry 32). -/
def State.reloadScratch (s : State) (n : Nat) : State :=
  let a := s.tileRecord n
  let s := (s.ownReads [(a, spSize)]).1
  let lost := ((s.hbm.poison.filter (fun u => decide (a ≤ 64 * u) && decide (64 * u < a + spSize))).flatMap (fun u =>
    (List.range 16).map (fun k => 64 * u - a + 4 * k))).filter (fun w => !(s.tile n).badUnits.contains w)
  (s.setMemBytes (spBase n) (s.memBytes a spSize)).when (!lost.isEmpty) (fun s =>
    s.updTile n (fun t => { t with badUnits := t.badUnits ++ lost }))

/-- The tiles reloaded at an unpark (R316): their scratchpads from the park records, the macros of the active pass from its staged
image. -/
def State.reloadArray (s : State) : State :=
  let s := s.park.records.foldl (fun s n => s.reloadScratch n) s
  match s.activePass with
  | some p => p.tileUse.foldl (fun s n => s.rewriteWeights n) s
  | none => s

/-- RESUME_FROM_PARK (R316): rails, treads, tiles and macros back, the suspended requests and fetching go on where they stood. -/
def execResumeFromPark (s : State) : Host.Outcome State Fault Refusal :=
  answer s (
    if s.parkState < 2 ∨ s.halted = true ∨ s.causesOver = false then s
    else
      let s := (s.setRegBits (Off.park 0) 0 2 0).setReg (Off.park 4) 0
      let s := { s.noteTraffic with park := { s.park with railsIdle := false } }
      let s := ((s.treadAgain 0).treadAgain 1).reloadArray
      { s with park := { s.park with records := [] } })

/-! ### The halting park (R317) -/

/-- One request that a halting park has ended leaves the table: its stream's tallies, its energy, its copy on die and the leaf it is to form
(R330), whose SEQ is given as it forms. -/
def State.haltOne (s : State) (i : Nat) (q : Request) : State :=
  let s := match q.stream with
    | some st => s.endFrame q st
    | none => s
  let s := s.closeEnergy q
  let leaf := match q.leafKind with
    | some k => if s.leafDue q then some (s.leafBytes q k 0) else none
    | none => none
  let r : HaltRec :=
    { ring := q.ring, cq := q.cq, tag := q.tag, status := q.status.code, irq := q.irq, time := s.now, leaf := leaf }
  { s with reqs := sdel s.reqs i, park := { s.park with onDie := s.park.onDie ++ [r] } }

/-- Every request in flight ended with FAULT_DEVICE; one that has ended already keeps its status. -/
def State.haltReqs (s : State) : State :=
  let s := (s.reqs.map (·.1)).foldl (fun s i => s.endReq i .faultDevice) s
  ((s.reqs.map (·.1)).foldl (fun s i => match s.req? i with
    | some q => s.haltOne i q
    | none => s) s).formHalted.flushHalt

/-- A halting park (R314, R317): it turns a suspending one into a halting one; a second cause is only noted. -/
def State.haltPark (s : State) (c : Nat) : State :=
  if s.halted then s.noteCause c
  else
    let s := ((s.noteCause c).setReg (Off.park 0) 6).setReg (Off.park 0x18) 0
    { s with passes := { s.passes with pending := [] } }.haltReqs

/-- What a fatal record does when it is handled (R314, R438). -/
def State.parkFor (s : State) (r : Reason) : State :=
  match r with
  | .vrPark => s.startPark Cause.vr
  | .linkDown => s.startPark Cause.link
  | .stackFailed => s.haltPark Cause.stack
  | _ => s.haltPark Cause.fatal

end Sys2Proof.Machine
end

