-- ==== Sys2Proof/Machine/Power.lean ====
section
/-! DEFINITION. Power cap, operating points, thermal control, energy (R361 to R380). -/

namespace Sys2Proof.Machine

/-! ### Operating points (R361, R363, R373, R374) -/

/-- Arithmetic clock in MHz and base voltage in mV of an operating point. -/
def opMhz (k : Nat) : Nat := 150 + 50 * k
def opVolt (k : Nat) : Nat := [600, 620, 645, 670, 700, 730, 770, 810].getD k 810

/-- Trim of a tread in 2.5 mV steps, and its available points (PWR_TRIM). -/
def State.trim (s : State) (t : Nat) : Nat := s.regBits (Off.pwr 0x18) (8 * t) 5
def State.opAvail (s : State) (t k : Nat) : Bool := s.regBit (Off.pwr 0x18) (16 + 8 * t + k)

/-- Rail voltage of a point in units of 0.1 mV. -/
def State.opRail (s : State) (t k : Nat) : Nat := 10 * opVolt k + 25 * s.trim t

/-- The voltage asked for, in whole mV (PWR_VREQ has no finer unit; DEDUCED, log entry 38: rounded up). -/
def State.opReq (s : State) (t k : Nat) : Nat := (s.opRail t k + 9) / 10

/-- Operating point and duty of a tread as PWR_STATUS shows them, the duty as n. -/
def State.opNow (s : State) (t : Nat) : Nat × Nat :=
  (s.regBits (Off.pwr 8) (7 * t) 3, s.regBits (Off.pwr 8) (7 * t + 3) 4 + 1)
def State.setOp (s : State) (t : Nat) (c : Nat × Nat) : State :=
  (s.setRegBits (Off.pwr 8) (7 * t) 3 c.1).setRegBits (Off.pwr 8) (7 * t + 3) 4 (c.2 - 1)

/-- The rail of a tread in mV, and what the governor last chose for it. -/
def State.rail (s : State) (t : Nat) : Nat := if t = 0 then s.power.railA else s.power.railB
def State.want (s : State) (t : Nat) : Nat × Nat := if t = 0 then s.power.wantA else s.power.wantB
def State.setWant (s : State) (t : Nat) (c : Nat × Nat) : State :=
  if t = 0 then { s with power := { s.power with wantA := c } } else { s with power := { s.power with wantB := c } }

/-- What a tread's rail is certain to have: a rail that has been asked to fall may have fallen (R363). -/
def State.sure (s : State) (t : Nat) : Nat := if t = 0 then s.power.sureA else s.power.sureB
def State.setSure (s : State) (t v : Nat) : State :=
  if t = 0 then { s with power := { s.power with sureA := v } } else { s with power := { s.power with sureB := v } }

/-- The point a tread's last voltage request was for. -/
def State.asked (s : State) (t : Nat) : Option Nat := if t = 0 then s.power.askedA else s.power.askedB
def State.setAsked (s : State) (t k : Nat) : State :=
  if t = 0 then { s with power := { s.power with askedA := some k } } else { s with power := { s.power with askedB := some k } }

/-- A voltage requested for another point: PWR_VREQ, and an in-band interrupt when it changes (R362). A new trim waits for such a change
(R373). -/
def State.requestRail (s : State) (t k : Nat) : State :=
  if s.asked t = some k then s
  else
    let v := s.opReq t k
    let s := (s.setAsked t k).setSure t (min (s.sure t) v)
    if s.regBits (Off.pwr 0x24) (16 * t) 10 = v then s else (s.setRegBits (Off.pwr 0x24) (16 * t) 10 v).raiseIbi 1

/-- The chosen point put in force (R363): a lower frequency falls at once and the voltage follows; a higher one waits until its rail
has arrived. -/
def State.applyOp (s : State) (t : Nat) : State :=
  let c := s.want t
  let now := s.opNow t
  if c.1 ≤ now.1 ∨ s.opReq t c.1 ≤ s.sure t then (s.setOp t c).requestRail t c.1
  else s.requestRail t c.1

/-- The preference ceiling of the LAYERs that run on a tread (R374). -/
def State.opPref (s : State) (layers : List Nat) : Nat :=
  let one := fun (l : Nat) =>
    match (List.range 8).find? (fun n =>
      let v := s.reg64 (Off.pwr (0x80 + 8 * n))
      v.testBit 35 && decide (bitsAt v 0 16 ≤ l) && decide (l ≤ bitsAt v 16 16)) with
    | some n => bitsAt (s.reg64 (Off.pwr (0x80 + 8 * n))) 32 3
    | none => 7
  if layers.isEmpty then 7 else (layers.map one).foldl max 0

/-! ### The governor (R364 to R368) -/

/-- 2^((T − 60)/20) in units of 2^-16, rounded down: the greatest x with x^20 ≤ 2^(260 + T) (R375 Table 3). -/
def leakScale (T : Nat) : Nat :=
  (List.range 40).foldl (fun x i => let y := x + 2 ^ (39 - i); if y ^ 20 ≤ 2 ^ (260 + T) then y else x) 0

/-- A coefficient of Table 3 as it stands, in 10^-19 J. -/
def State.coeff (s : State) (i : Nat) : Nat := s.power.coeff.getD i 0

/-- Energy of an activity in 10^-19 J with its tread's rail at `mv` (R375 Table 3): the first five terms scale with (V/0.81)². -/
def State.actEnergy (s : State) (mv : Nat) (counts : List Nat) : Nat :=
  sumNat ((List.range 8).map (fun i => counts.getD i 0 * s.coeff i * (if i < 5 then mv ^ 2 else 810 ^ 2) / 810 ^ 2))

/-- Leakage of a tread at 0.81 V in 10^-19 J per µs. -/
def State.leakBase (s : State) (T : Nat) : Nat := s.coeff 8 * leakScale T / 65536

/-- Dynamic power of a tread's tick at OP7 and full duty, in 10^-14 W; it stands to the point and duty of the tick as f · n (DEDUCED, log
entry 38). -/
def State.tickDyn (s : State) (g : GovInput) (t : Nat) : Nat :=
  let e := sumNat ((g.acts.filter (fun a => decide (a.tread = t))).map (fun a => s.actEnergy 810 a.counts))
  e * (opMhz 7 * 16) / (opMhz (s.opNow t).1 * (s.opNow t).2)

/-- What a tick adds to the activity of the last 100 µs. -/
def State.tickActivity (s : State) (g : GovInput) : Nat × Nat × Nat :=
  (s.tickDyn g 0, s.tickDyn g 1,
    sumNat ((g.acts.filter (fun a => decide (1 < a.tread))).map (fun a => s.actEnergy 810 a.counts)) + 10 * s.coeff 9)

/-- What the governor predicts from (R366): power outside the treads and, of each tread, its dynamic power at OP7 and full duty and its
leakage at 0.81 V, in mW, with the LAYERs that run on it. -/
structure Forecast where
  outside : Nat
  dynA : Nat
  leakA : Nat
  dynB : Nat
  leakB : Nat
  layersA : List Nat
  layersB : List Nat
deriving DecidableEq, Repr

/-- The LAYERs whose steps run on a tread (R374). -/
def State.layersOn (s : State) (t : Nat) : List Nat :=
  (s.tiles.filter (fun e => decide (e.1 / 512 = t))).flatMap (fun e =>
    (e.2.running.filter (fun r => !r.finished)).map (fun r => Step.layer r.word.toNat))

/-- A term of the energy model reconciled: times r (PWR_RECON). -/
def State.recon (s : State) (x : Nat) : Nat := x * s.regBits (Off.pwr 0x68) 0 17 / 65536

/-- Measured and modelled power as averages over the last ms, in mW (R376). -/
def State.modelMw (s : State) : Nat := sumNat s.power.tickUj * 100 / max 1 s.power.tickUj.length
def State.measMw (s : State) : Nat := sumNat s.power.tickMeas * 100 / max 1 s.power.tickMeas.length

/-- Modelled power as the governor controls on it: times r, and during a divergence raised to the measured power where that is the larger
(R375, R376). -/
def State.controlled (s : State) (x : Nat) : Nat :=
  let y := s.recon x
  if s.regBit (Off.pwr 8) 14 ∧ s.modelMw < s.measMw ∧ s.modelMw ≠ 0 then y * s.measMw / s.modelMw else y

/-- The prediction (R366) from the activity of ticks and the hottest sensors of the treads. -/
def State.forecastFrom (s : State) (l : List (Nat × Nat × Nat)) (tempA tempB : Nat) : Forecast :=
  let mean := fun (f : Nat × Nat × Nat → Nat) => s.controlled (sumNat (l.map f) / l.length / 10 ^ 11)
  { outside := mean (·.2.2)
    dynA := mean (·.1)
    leakA := s.controlled (s.leakBase tempA / 10 ^ 10)
    dynB := mean (·.2.1)
    leakB := s.controlled (s.leakBase tempB / 10 ^ 10)
    layersA := s.layersOn 0
    layersB := s.layersOn 1 }

/-- The prediction of a tick: the activity of the last 100 µs with this tick's. -/
def State.forecast (s : State) (g : GovInput) : Forecast :=
  s.forecastFrom (keepLast 10 (s.power.recent ++ [s.tickActivity g])) g.tempA g.tempB

/-- Predicted power of a tread at a point and duty, in units of mW / (8000 · 8100³): `dyn` at OP7 and full duty, `leak` at
0.81 V. -/
def State.predict (s : State) (t dyn leak k n : Nat) : Nat :=
  let v := s.opRail t k
  dyn * opMhz k * n * v ^ 2 * 8100 + leak * v ^ 3 * 8000
def predictUnit : Nat := 8000 * 8100 ^ 3

/-- The point and duty with the greatest f · n/16 within a share in mW, a tie to the lower point (R366). Where every
point up to the preference is withdrawn, the lowest that is not: a withdrawn point overrides a preference (R364). -/
def State.chooseOp (s : State) (t top dyn leak share : Nat) : Option (Nat × Nat) :=
  let low := ((List.range 8).find? (fun k => s.opAvail t k)).getD 0
  let all := ((List.range (max top low + 1)).filter (fun k => s.opAvail t k)).flatMap (fun k =>
    (List.range 16).map (fun n => (k, n + 1)))
  (all.filter (fun c => decide (s.predict t dyn leak c.1 c.2 ≤ share * predictUnit))).foldl
    (fun best c => match best with
      | none => some c
      | some b => if opMhz b.1 * b.2 < opMhz c.1 * c.2 then some c else some b) none

/-- What a tread's choice draws, in mW, rounded up. -/
def State.drawOf (s : State) (t dyn leak : Nat) (c : Nat × Nat) : Nat :=
  (s.predict t dyn leak c.1 c.2 + predictUnit - 1) / predictUnit

/-- The cap or the assignment, in W. -/
def State.capW (s : State) : Nat :=
  if s.regBit (Off.pwr 0x1C) 12 then s.regBits (Off.pwr 0x1C) 0 12 else s.regBits (Off.pwr 0) 0 12

/-- The effective limit in W (R364). -/
def State.limitW (s : State) : Nat := min s.capW s.power.ceiling

/-- What the governor lets the device draw, in mW: the limit, less what P exceeds it by, so that the averages of P come down to it (R365:
the spec gives the obligation and no law of control; DESIGN CHOICE, log entry 38). -/
def State.governMw (s : State) : Nat := s.limitW * 1000 - (s.power.estimate - s.limitW) * 1000

/-- The treads of which a running maintenance test has asked for OP7 at full duty (R444). -/
def State.maintTreads (s : State) : List Nat :=
  s.reqs.flatMap (fun e => if e.2.opcode = Dop.test ∧ e.2.phase = .running then e.2.maintTreads else [])

/-- The ceiling of a tread's operating point: its preference, but for a maintenance test (R374, R444). -/
def State.opTop (s : State) (t : Nat) (layers : List Nat) : Nat := if s.maintTreads.contains t then 7 else s.opPref layers

/-- Both treads' choices for a limit: each its half of what is left; a tread that cannot use its share returns the rest (R366). None
where the lowest point does not fit. -/
def State.chooseBoth (s : State) (g : Forecast) : Option ((Nat × Nat) × (Nat × Nat)) :=
  let topA := s.opTop 0 g.layersA
  let topB := s.opTop 1 g.layersB
  let room := s.governMw - g.outside
  let bestA := s.chooseOp 0 topA g.dynA g.leakA (10 ^ 9)
  let bestB := s.chooseOp 1 topB g.dynB g.leakB (10 ^ 9)
  let a := s.chooseOp 0 topA g.dynA g.leakA (room / 2)
  let b := s.chooseOp 1 topB g.dynB g.leakB (room / 2)
  let a' := match b with
    | some y => if b = bestB then s.chooseOp 0 topA g.dynA g.leakA (room - s.drawOf 1 g.dynB g.leakB y) else a
    | none => a
  let b' := match a with
    | some x => if a = bestA then s.chooseOp 1 topB g.dynB g.leakB (room - s.drawOf 0 g.dynA g.leakA x) else b
    | none => b
  match a', b' with
  | some x, some y => some (x, y)
  | _, _ => none

/-- The treads' choices from the activity of the last 100 µs as it stands. -/
def State.choiceNow (s : State) : Option ((Nat × Nat) × (Nat × Nat)) :=
  s.chooseBoth (s.forecastFrom s.power.recent s.power.tempA s.power.tempB)

/-- The first of some treads of which the governor cannot give OP7 at full duty (R444): an alert forces it, a thermal limit or an episode of
R368 holds the floor, the point is withdrawn, or the limit has no room for it. -/
def State.fullDutyBarred (s : State) (treads : List Nat) : Option Nat :=
  treads.find? (fun t => s.power.vrForced || decide (s.power.therm = .hardLimit) || decide (s.power.therm = .powerOff) ||
    s.power.capEpisode || !s.opAvail t 7 ||
    (match s.choiceNow with
     | none => true
     | some c => decide ((if t = 0 then c.1 else c.2) ≠ (7, 16))))

/-- Whether both treads have OP7 at full duty (R444). -/
def State.fullDuty (s : State) : Bool := decide (s.opNow 0 = (7, 16)) && decide (s.opNow 1 = (7, 16))

/-- The trim of a tread rises by one step where the worst slack is low; past 40 mV the present point is withdrawn (R373). -/
def State.ageTread (s : State) (t : Nat) (low : Bool) : State :=
  if low = false then s
  else if s.trim t < 16 then s.setRegBits (Off.pwr 0x18) (8 * t) 5 (s.trim t + 1)
  else
    let k := (s.opNow t).1
    if s.opAvail t k then
      (s.setRegBit (Off.pwr 0x18) (16 + 8 * t + k) false).fileError bothWorlds ((ErrRec.of .ageing).details t k)
    else s

/-- The floor configuration in force or not, its group moved on (R368); the 100 ms of R370 begin with it. -/
def State.setFloor (s : State) (on : Bool) : State :=
  let t := s.setRegBit (Off.pwr 8) 19 on
  { t with power := { t.power with
      floor := on
      floorGroup := if on then (t.power.floorGroup + 1) % 64 else t.power.floorGroup
      hardSince := if on && !t.power.floor then t.now else t.power.hardSince } }

/-- OP7 at full duty asked of the governor (R444): the rail is asked for its voltage, and the point follows it. -/
def State.askFullDuty (s : State) (t : Nat) : State :=
  if s.opNow t = (7, 16) then s else ((s.setFloor false).setWant t (7, 16)).applyOp t

/-- The forced settings and the limit give each tread its point (R364); an episode of R368 keeps the floor. -/
def State.govern (s : State) (g : Forecast) : State :=
  if s.power.vrForced then ((s.setFloor false).setRegBit (Off.pwr 8) 16 false).setRegBit (Off.pwr 8) 17 false
  else
    let choice := if s.power.therm = .hardLimit ∨ s.power.therm = .powerOff ∨ s.power.capEpisode = true then none else s.chooseBoth g
    let free := ({ s with power := { s.power with ceiling := 10 ^ 6 } }.setRegBit (Off.pwr 0x1C) 12 false).setRegBits (Off.pwr 0) 0 12 4095
    let limited := decide (choice ≠ free.chooseBoth g)
    let thermal := limited && (decide (s.power.ceiling < s.capW) || decide (s.power.therm = .hardLimit) || decide (s.power.therm = .powerOff))
    let s := (s.setRegBit (Off.pwr 8) 16 (limited && !thermal)).setRegBit (Off.pwr 8) 17 thermal
    match choice with
    | some (a, b) => ((((s.setFloor false).setWant 0 a).setWant 1 b).applyOp 0).applyOp 1
    | none => ((((s.setFloor true).setWant 0 (0, 1)).setWant 1 (0, 1)).applyOp 0).applyOp 1

/-! ### Energy (R375, R377) -/

/-- Measured power in 0.1 W: the sum of the rails as written, the two core rails by the device's own sensors while they are stale. -/
def State.measured (s : State) : Nat :=
  let stale := fun (k : Nat) => decide (k < 2) && s.regBit (Off.pwr 8) 15 &&
    decide ((sget (fun _ => 0) s.power.telemTime k) + 10000000 ≤ s.now)
  sumNat ((List.range 10).map (fun k => if stale k then Config.railSensor k s.now else s.regBits (Off.pwr (0x100 + 4 * k)) 0 16))

/-- Energy given to a request in flight. -/
def State.giveEnergy (s : State) (i e : Nat) : State :=
  (s.updReq i (fun q => { q with energy := q.energy + e })).tally64 (Off.pwr 0x40) e

/-- Shares of the shared energy in proportion to dynamic energy; what rounding leaves goes to the first (DEDUCED, log entry 38). -/
def sharesOf (shared : Nat) (l : List (Nat × Nat)) : List (Nat × Nat) :=
  let all := sumNat (l.map (·.2))
  let parts := l.map (fun e => (e.1, shared * e.2 / all))
  match parts with
  | [] => []
  | (i, e) :: r => (i, e + (shared - sumNat (parts.map (·.2)))) :: r

/-- r · E in µJ of an energy in 10^-19 J. -/
def State.reconUj (s : State) (e : Nat) : Nat := s.recon (e / 10 ^ 13)

/-- Energy of a tick's activity by request, what serves none apart, in µJ (R377). -/
def State.actsUj (s : State) (g : GovInput) : List (Option Nat × Nat) :=
  g.acts.map (fun a => (a.req, s.reconUj (s.actEnergy (if a.tread < 2 then s.rail a.tread else 810) a.counts)))

/-- The static terms of a 10 µs tick in 10^-19 J (R375 Table 3): each tread's leakage by (V/0.81)³, junction, causeways and stacks at rest. -/
def State.staticEnergy (s : State) (g : GovInput) : Nat :=
  let leak := fun (t T : Nat) => 10 * s.leakBase T * s.rail t ^ 3 / 810 ^ 3
  leak 0 g.tempA + leak 1 g.tempB + 10 * s.coeff 9

/-- Ballast of a tick in 10^-19 J. -/
def State.ballastEnergy (s : State) (g : GovInput) : Nat :=
  s.actEnergy (s.rail 0) [g.ballastA] + s.actEnergy (s.rail 1) [g.ballastB]

/-- The counts of a tick by term of Table 3, wherever they arose. -/
def tickCounts (g : GovInput) : List Nat := (List.range 8).map (fun i => sumNat (g.acts.map (fun a => a.counts.getD i 0)))

/-- The energy of a tick attributed: dynamic energy to its requests, the shared energy among them, ballast and what no request bears
unattributed, everything unattributed while parked (R367, R377). -/
def State.attribute (s : State) (g : GovInput) : State :=
  let all := s.actsUj g
  let dyn := all.filterMap (fun e => e.1.map (fun i => (i, e.2)))
  let mine := dyn.filter (fun e => (s.req? e.1).isSome && decide (0 < e.2) && decide (s.parkState ≠ 2))
  let ballast := s.reconUj (s.ballastEnergy g)
  let shared := s.reconUj (s.staticEnergy g) + (sumNat (all.map (·.2)) - sumNat (mine.map (·.2)))
  let total := sumNat (all.map (·.2)) + s.reconUj (s.staticEnergy g) + ballast
  let dynamic := sumNat (g.acts.map (fun a => s.actEnergy (if a.tread < 2 then s.rail a.tread else 810) a.counts))
  let raw := (dynamic + s.staticEnergy g + s.ballastEnergy g) / 10 ^ 13
  let s := mine.foldl (fun s e => s.giveEnergy e.1 e.2) s
  let s := if mine.isEmpty then s.tally64 (Off.pwr 0x38) shared
    else (sharesOf shared mine).foldl (fun s e => s.giveEnergy e.1 e.2) s
  let s := ((s.tally64 (Off.pwr 0x38) ballast).tally64 (Off.pwr 0x48) ballast).tally64 (Off.pwr 0x28) total
  let s := { s with power := { s.power with
    tickUj := keepLast 100 (s.power.tickUj ++ [total])
    tickMeas := keepLast 100 (s.power.tickMeas ++ [s.measured])
    recent := keepLast 10 (s.power.recent ++ [s.tickActivity g])
    fits := keepLast 102400 (s.power.fits ++ [(tickCounts g, s.measured)])
    tempA := g.tempA
    tempB := g.tempB
    eModel := s.power.eModel + raw
    eMeas := s.power.eMeas + s.measured } }
  let model := sumNat s.power.tickUj / 1000
  let meas := s.measured / 10
  { s.setReg (Off.pwr 0xC) (model % 65536 + 2 ^ 16 * meas) with power := { s.power with
      estimate := if s.regBit (Off.pwr 8) 14 then max model meas else model } }

/-- The time since which something holds, kept or begun as it still holds. -/
def sinceWhile (holds : Bool) (o : Option Nat) (t : Nat) : Option Nat := if holds then some (o.getD t) else none

/-- How long the two averages have stood apart or agreed, and no request has been in flight (R376). -/
def State.watchModel (s : State) : State :=
  let hi := max s.modelMw s.measMw
  let lo := min s.modelMw s.measMw
  { s with power := { s.power with
      apartSince := sinceWhile (decide (hi < 5 * (hi - lo))) s.power.apartSince s.now
      agreeSince := sinceWhile (decide (10 * (hi - lo) ≤ hi)) s.power.agreeSince s.now
      reqIdle := sinceWhile s.reqs.isEmpty s.power.reqIdle s.now } }

/-- How long P has been above or within the limit; an episode ends after 10 ms within it (R368). -/
def State.watchCap (s : State) : State :=
  let exceeds := decide (s.limitW < s.power.estimate)
  let w := sinceWhile (!exceeds) s.power.withinSince s.now
  let ended := (w.map (fun t => decide (t + 10000000 ≤ s.now))).getD false
  { s with power := { s.power with
      overSince := sinceWhile (exceeds && s.power.floor) s.power.overSince s.now
      withinSince := w
      capEpisode := s.power.capEpisode && !ended } }

/-- Whether the governor held the device at its limit, noted for the last 10 ms (R378). -/
def State.noteLimit (s : State) : State :=
  let held := s.regBit (Off.pwr 8) 16 || s.regBit (Off.pwr 8) 17 || s.regBit (Off.pwr 8) 19
  { s with power := { s.power with atLimit := keepLast 1000 (s.power.atLimit ++ [held]) } }

/-- LIMITED of R378: held at the limit in at least half of the last 10 ms. -/
def State.limitedNow (s : State) : Bool := decide (500 ≤ (s.power.atLimit.filter id).length)

/-- A device's report to the manager, every 10 ms over the management lane (R378 step 1). -/
def State.reportPower (s : State) : State :=
  if s.mapped = false ∨ s.isManager = true ∨ s.now < s.power.lastReport + 10000000 then s
  else
    let s := { s with power := { s.power with lastReport := s.now } }.emit (.powerReport s.power.estimate s.limitedNow)
    s.manage 0 [11, s.power.estimate, s.limitedNow.toNat]

/-- GOVERNOR_TICK (R366, R368, R372, R373, R375 to R378). The floor's group moves on every 10 µs with the tick. -/
def execGovernorTick (input : GovInput) (s : State) : Host.Outcome State Fault Refusal :=
  answer s (
    let f := s.forecast input
    let s := ((s.tally (Off.pwr 0x64) input.stretches).attribute input).watchModel
    let s := (s.ageTread 0 input.slackLowA).ageTread 1 input.slackLowB
    ((s.govern f).watchCap.noteLimit).reportPower)

/-- RAIL_ARRIVED (R362, R363): the rail has its requested voltage; a rise of frequency and duty proceeds. Nothing arrives while the compute rails are idle
(R315). -/
def execRailArrived (tread : Nat) (s : State) : Host.Outcome State Fault Refusal :=
  answer s (
    let v := s.regBits (Off.pwr 0x24) (16 * tread) 10
    if v = 0 ∨ s.park.railsIdle = true then s
    else
      let s := if tread = 0 then { s with power := { s.power with railA := v, sureA := v } }
        else { s with power := { s.power with railB := v, sureB := v } }
      if s.power.vrForced then s else s.applyOp tread)

/-! ### The cap (R365, R368) -/

/-- CAP_UNATTAINABLE posted and counted (R380): limit, P, why; a parked device posts none (R316). -/
def State.postCap (s : State) (limit why : Nat) : State :=
  if s.parkState = 2 then s
  else (s.tally (Off.pwr 0x58) 1).postEvent bothWorlds Ev.capUnattainable 0 0
    (natLe 8 (limit % 65536 + 2 ^ 16 * (s.power.estimate % 65536) + 2 ^ 32 * why))

/-- PWR_CAP written (R365). -/
def State.writeCap (s : State) (v : Nat) : State :=
  let c := v % 4096
  let s := s.setReg (Off.pwr 0) (clampNat 380 3000 c)
  if c < 380 then s.postCap 380 1 else s

/-- PWR_CAP_WRITE (R365). -/
def execPwrCapWrite (value : Word) (s : State) : Host.Outcome State Fault Refusal :=
  answer s (s.posted (Off.pwr 0) 4 value.toNat false (fun s => s.writeCap value.toNat))

/-- CAP_UNATTAINABLE (R368): P above the limit for 10 ms with the floor in force; once an episode. -/
def execCapUnattainable (s : State) : Host.Outcome State Fault Refusal :=
  answer s (match s.power.overSince with
    | none => s
    | some t =>
      if s.now < t + 10000000 ∨ s.power.capEpisode = true then s
      else ({ s with power := { s.power with capEpisode := true } }).postCap s.limitW 0)

/-! ### VR_ALERT_N (R369, R468) -/

/-- An alert acts (R369): both treads forced to OP0 at duty 8/16, the OP0 voltage asked for. -/
def State.vrForce (s : State) : State :=
  if s.msReady = false ∨ (s.power.vrForced = true ∧ s.power.vrHold = none) then s
  else
    let s := { s with power := { s.power with vrForced := true, vrHold := none, floor := false, wantA := (0, 8), wantB := (0, 8) } }
    let s := (((s.setRegBit (Off.pwr 8) 18 true).setRegBit (Off.pwr 8) 19 false).setOp 0 (0, 8)).setOp 1 (0, 8)
    let s := ((s.requestRail 0 0).requestRail 1 0).tally (Off.pwr 0x5C) 1
    s.postEvent bothWorlds Ev.vrAlert 8 0 [1]

/-- VR_ALERT_ASSERT (R369). The pin is ignored until the Milestone block is ready. -/
def execVrAlertAssert (s : State) : Host.Outcome State Fault Refusal :=
  answer s { s with pins := { s.pins with vrLow := true, vrSince := if s.pins.vrLow then s.pins.vrSince else s.now } }.vrForce

/-- The Milestone block ready: an alert that is asserted then acts at once (R468). -/
def State.heedAlert (s : State) : State :=
  if s.pins.vrLow then { s with pins := { s.pins with vrSince := s.now } }.vrForce else s

/-- VR_ALERT_RELEASE (R369): the 1 ms hold begins. -/
def execVrAlertRelease (s : State) : Host.Outcome State Fault Refusal :=
  answer s (
    if s.pins.vrLow = false then s
    else
      let s := { s with pins := { s.pins with vrLow := false } }
      if s.power.vrForced then
        ({ s with power := { s.power with vrHold := some s.now } }).postEvent bothWorlds Ev.vrAlert 8 0 [0]
      else s)

/-- VR_ALERT_HOLD_END (R369): 1 ms after the pin rose normal control resumes. -/
def execVrAlertHoldEnd (s : State) : Host.Outcome State Fault Refusal :=
  answer s (match s.power.vrHold with
    | none => s
    | some t =>
      if s.now < t + 1000000 ∨ s.pins.vrLow = true then s
      else ({ s with power := { s.power with vrForced := false, vrHold := none } }).setRegBit (Off.pwr 8) 18 false)

/-- VR_PARK (R369): the pin low beyond 100 ms: a fatal record, whose handling begins the suspending park (R438). -/
def execVrPark (s : State) : Host.Outcome State Fault Refusal :=
  answer s (
    if s.pins.vrLow = false ∨ s.power.vrForced = false ∨ s.now < s.pins.vrSince + 100000000 ∨ s.parkCause Cause.vr = true ∨
        s.errs.queue.any (fun e => decide (e.reason = .vrPark) && !e.handled) = true then s
    else (s.fileError bothWorlds ((ErrRec.of .vrPark).unit 8 0)).postEvent bothWorlds Ev.vrAlert 8 0 [3])

/-! ### Temperature (R370, R371) -/

/-- THROTTLE of a sensor and its hard limit: a stack's stand below its own upper limit. -/
def State.throttleOf (s : State) (r : Reading) : Nat := if r.kind = 4 then r.limit - 10 else s.regBits (Off.pwr 0x14) 0 8
def hardOf (r : Reading) : Nat := if r.kind = 4 then r.limit else 105

/-- The reading that stands highest against its own hard limit. -/
def hottest : List Reading → Option Reading
  | [] => none
  | r :: l => match hottest l with
    | none => some r
    | some x => if x.temp + hardOf r ≤ r.temp + hardOf x then some r else some x

/-- Code of a thermal state in THERMAL (R380). -/
def Therm.code : Therm → Nat
  | .normal => 0
  | .throttled => 1
  | .hardLimit => 2
  | .powerOff => 3

/-- PWR_TEMP (R381). -/
def State.syncTemp (s : State) (l : List Reading) : State :=
  let top := fun (p : Reading → Bool) => (l.filter p).foldl (fun m r => max m r.temp) 0
  s.setReg (Off.pwr 0x10) (min 255 (top (fun r => decide (r.kind ≠ 4))) + 2 ^ 8 * min 255 (top (fun r => decide (r.kind = 4))) +
    2 ^ 16 * (s.power.ceiling % 65536))

/-- A change of thermal state: posted and counted (R370). -/
def State.setTherm (s : State) (x : Therm) (r : Reading) : State :=
  let s := { s with power := { s.power with therm := x, hardSince := s.now } }
  (s.tally (Off.pwr 0x60) 1).postEvent bothWorlds Ev.thermal r.kind r.index
    (natLe 4 (r.temp % 256 + 2 ^ 8 * x.code + 2 ^ 16 * (s.power.ceiling % 65536)))

/-- The ceiling's movement, once a ms: up by 2.5 % towards the cap in normal, down by 5 % of P while a sensor stands at THROTTLE. -/
def State.moveCeiling (s : State) (hot : Bool) : State :=
  if s.now < s.power.thermLast + 1000000 then s
  else
    let c := s.power.ceiling
    let c := match s.power.therm with
      | .normal => max c (min (c + c * 25 / 1000) (s.regBits (Off.pwr 0) 0 12))
      | .throttled => if hot then c - s.power.estimate * 5 / 100 else c
      | _ => c
    { s with power := { s.power with ceiling := c, thermLast := s.now } }

/-- THERMAL_SENSOR_READ (R370). A stack leaves the hard limit 5 °C below its own limit, as the junction does (DEDUCED, log
entry 38). -/
def execThermalSensorRead (readings : List Reading) (s : State) : Host.Outcome State Fault Refusal :=
  answer s (match hottest readings with
    | none => s
    | some r =>
      let hot := readings.any (fun x => decide (s.throttleOf x ≤ x.temp))
      let hard := readings.any (fun x => decide (hardOf x ≤ x.temp))
      let cool := readings.all (fun x => decide (x.temp + 5 ≤ hardOf x))
      let below := readings.all (fun x => decide (x.temp + 2 < s.throttleOf x))
      let s := { s.moveCeiling hot with power := { (s.moveCeiling hot).power with hot := some r } }
      let s := match s.power.therm with
        | .powerOff => s
        | .hardLimit =>
          if cool then ({ s with power := { s.power with ceiling := s.power.estimate } }).setTherm .throttled r
          else if hard then s
          else { s with power := { s.power with hardSince := s.now } }
        | .throttled => if hard then s.setTherm .hardLimit r else if below then s.setTherm .normal r else s
        | .normal => if hard then s.setTherm .hardLimit r else if hot then s.setTherm .throttled r else s
      s.syncTemp readings)

/-- THERMAL_POWER_OFF (R370): 100 ms at or above the hard limit in the floor configuration; PWR_OFF_REQ_N asserted until PORST_N. -/
def execThermalPowerOff (s : State) : Host.Outcome State Fault Refusal :=
  answer s (
    if s.power.therm ≠ .hardLimit ∨ s.power.floor = false ∨ s.now < s.power.hardSince + 100000000 then s
    else
      let s := { s with power := { s.power with therm := .powerOff }, pins := { s.pins with pwrOff := true } }
      let r := s.power.hot.getD { kind := 0, index := 0, temp := 105, limit := 105 }
      (((s.tally (Off.pwr 0x60) 1).postEvent bothWorlds Ev.thermal r.kind r.index
        (natLe 4 (r.temp % 256 + 2 ^ 8 * Therm.powerOff.code + 2 ^ 16 * (s.power.ceiling % 65536)))).raiseIbi 2))

/-- THERMTRIP (R371): THERMTRIP_N latched until PORST_N, every fast clock stopped; the Milestone block's comparators act on their
own. -/
def execThermtrip (s : State) : Host.Outcome State Fault Refusal :=
  answer s ({ s with pins := { s.pins with thermtrip := true }, clock := { s.clock with fastStopped := true } }.raiseIbi 3)

/-! ### Reconciliation and divergence (R375, R376) -/

/-- RECONCILE (R375): every 100 ms r = measured energy / E_model of the 100 ms, held to 0.8 to 1.2. -/
def execReconcile (s : State) : Host.Outcome State Fault Refusal :=
  answer s (
    if s.power.eModel = 0 ∨ s.now < s.power.reconSince + 100000000 then s
    else ({ s with power := { s.power with haveR := true, eModel := 0, eMeas := 0, reconSince := s.now } }).setRegBits (Off.pwr 0x68) 0 17
      (clampNat 52428 78643 (s.power.eMeas * 65536 / s.power.eModel)))

/-- The requests in flight lose RECONCILED. -/
def State.unreconcile (s : State) : State := { s with reqs := s.reqs.map (fun e => (e.1, { e.2 with reconciled := false })) }

/-- Whether a state begun at `o` has lasted `ns`. -/
def State.lasted (s : State) (o : Option Nat) (ns : Nat) : Bool := (o.map (fun t => decide (t + ns ≤ s.now))).getD false

/-- DIVERGENCE_DECLARE (R376): the averages have differed by more than 20 % of the larger for 5 ms; not while TELEM_STALE. -/
def execDivergenceDeclare (s : State) : Host.Outcome State Fault Refusal :=
  answer s (
    if s.regBit (Off.pwr 8) 14 ∨ s.regBit (Off.pwr 8) 15 ∨ s.lasted s.power.apartSince 5000000 = false then s
    else
      let s := ((s.setRegBit (Off.pwr 8) 14 true).tally (Off.pwr 0x50) 1).unreconcile
      ({ s with power := { s.power with refitDue := true } }).postEvent bothWorlds Ev.powerModelDivergence 0 0
        (natLe 2 (s.modelMw / 1000) ++ natLe 2 (s.measMw / 1000) ++ natLe 2 (s.regBits (Off.pwr 0x68) 0 17 / 2)))

/-- DIVERGENCE_CLEAR (R376): the averages have agreed within 10 % for 5 ms. -/
def execDivergenceClear (s : State) : Host.Outcome State Fault Refusal :=
  answer s (if s.lasted s.power.agreeSince 5000000 then s.setRegBit (Off.pwr 8) 14 false else s)

/-- COEFFICIENT_REFIT (R376): after 1 ms with no request in flight in either world, the coefficients of a least-squares refit. -/
def execCoefficientRefit (s : State) : Host.Outcome State Fault Refusal :=
  answer s (
    if s.power.refitDue = false ∨ s.reqs.isEmpty = false ∨ s.lasted s.power.reqIdle 1000000 = false then s
    else ({ s with power := { s.power with coeff := Config.refitCoeff s.power.fits, refitDue := false } }).tally
      (Off.pwr 0x54) 1)

/-- Whether a rail has not been written for 10 ms. -/
def State.railStale (s : State) (k : Nat) : Bool := decide (sget (fun _ => 0) s.power.telemTime k + 10000000 ≤ s.now)

/-- A rail's power as telemetry writes it (R375); TELEM_STALE clears when no core rail is stale. -/
def State.writeTelem (s : State) (k v : Nat) : State :=
  let s := s.setReg (Off.pwr (0x100 + 4 * k)) (v % 2 ^ 24)
  let s := { s with power := { s.power with telemTime := sput (fun _ => 0) s.power.telemTime k s.now } }
  if s.railStale 0 || s.railStale 1 then s else s.setRegBit (Off.pwr 8) 15 false

/-- TELEM_WRITE (R375, R390): an access of the board controller over I3C; in Deep it is held (R391). -/
def execTelemWrite (rail power seq : Nat) (s : State) : Host.Outcome State Fault Refusal :=
  let v := power % 65536 + 2 ^ 16 * (seq % 256)
  answer s (if s.inDeep then s.holdAccess .i3c (Off.pwr (0x100 + 4 * rail)) (natLe 4 v) false else (s.accessed 4).writeTelem rail v)

/-- TELEM_STALE (R375, R377): a core rail not written for 10 ms. -/
def execTelemStale (rail : Nat) (s : State) : Host.Outcome State Fault Refusal :=
  answer s (if rail < 2 ∧ s.railStale rail = true then (s.setRegBit (Off.pwr 8) 15 true).unreconcile else s)

/-! ### Systems of devices (R378) -/

/-- PWR_ASSIGNED of this device. -/
def State.takeAssignment (s : State) (w : Nat) : State :=
  { s.setReg (Off.pwr 0x1C) (min w (min 3000 (s.regBits (Off.pwr 0) 0 12)) + 2 ^ 12) with
    power := { s.power with lastAssign := s.now } }

/-- The weight of a limited device: its P, twice where its barrier lag is above 10 µs. -/
def State.paceWeight (s : State) (r : Nat × Nat × Bool) : Nat :=
  if 10000 < s.reg (Off.map r.1 0x10) then 2 * r.2.1 else r.2.1

/-- The assignment of each reporting device: number, P in W, LIMITED. -/
def State.assignments (s : State) (l : List (Nat × Nat × Bool)) : List (Nat × Nat) :=
  let budget := s.regBits (Off.pwr 0x20) 0 22
  let free := fun (r : Nat × Nat × Bool) => max 380 (r.2.1 * 105 / 100)
  let used := sumNat ((l.filter (fun r => !r.2.2)).map free)
  let all := sumNat ((l.filter (fun r => r.2.2)).map (fun r => s.paceWeight r))
  if budget < 380 * l.length then l.map (fun r => (r.1, 380))
  else l.map (fun r => (r.1, min 3000 (if r.2.2 then (budget - used) * s.paceWeight r / max 1 all else free r)))

/-- The reports a manager assigns by: the other devices' as they come with the command, its own as it stands (R378). -/
def State.heard (s : State) (l : List (Nat × Nat × Bool)) : List (Nat × Nat × Bool) :=
  l.map (fun r => if r.1 = s.devNum then (r.1, s.power.estimate, s.limitedNow) else r)

/-- SYSTEM_POWER_ASSIGN (R378). -/
def execSystemPowerAssign (reports : List (Nat × Nat × Bool)) (s : State) : Host.Outcome State Fault Refusal :=
  answer s (
    let budget := s.regBits (Off.pwr 0x20) 0 22
    if s.isManager = false ∨ budget = 0 then s
    else
      let l := s.assignments (s.heard reports)
      let s := if budget < 380 * reports.length then s.postCap s.limitW 2 else s
      l.foldl (fun s e =>
        if e.1 = s.devNum then s.takeAssignment e.2
        else
          (s.emit (.assignment e.1 e.2)).manage e.1 [10, e.2]) s)

/-- ASSIGNMENT_RECEIVED (R378): over the management lane. No assignment exceeds the device's own PWR_CAP. -/
def execAssignmentReceived (watts : Nat) (s : State) : Host.Outcome State Fault Refusal :=
  answer s (if s.mapped = false then s else s.takeAssignment watts)

/-- ASSIGNMENT_TIMEOUT (R378): 100 ms without one. -/
def execAssignmentTimeout (s : State) : Host.Outcome State Fault Refusal :=
  answer s (if s.now < s.power.lastAssign + 100000000 then s else s.setRegBit (Off.pwr 0x1C) 12 false)

end Sys2Proof.Machine
end

