-- ==== Sys2Proof/Machine/Milestone.lean ====
section
/-! DEFINITION. Time discipline, tile sleep and the EVT pins (R383 to R396, R470). -/

namespace Sys2Proof.Machine

/-! ### Time (R384, R385) -/

/-- Whether this device follows a manager to which its uplink is attached (R384). -/
def State.follows (s : State) : Bool := (s.ix.uplink.map (fun p => decide (s.ixState p = 3))).getD false && !s.isManager

/-- Whether the pins that wait for firmware are in use (R456): from the first secure boot after PORST_N on. -/
def State.pinsLive (s : State) : Bool := s.pins.live

/-- How long a tick of the counter is, in ns (R383, R385). -/
def State.tickNs (s : State) : Nat := if s.clock.refOk then s.clock.rate / 2 ^ 32 else 30517

/-- The time stamped for what happens `after` ns after the last tick (R383): interpolated within the tick while the fabric clocks run; in Rest
and Deep the tick boundary itself. -/
def State.stamp (s : State) (after : Nat) : Nat :=
  if s.sleep.pkg = .awake then (s.now + min after (s.tickNs - 1)) % 2 ^ 64 else s.now

/-- The error of an edge of PPS_IN stamped `t` (R384): the nearest whole second less system time, in ns. -/
def ppsError (t : Nat) : Int :=
  let r := t % 1000000000
  if 2 * r ≤ 1000000000 then -(r : Int) else 1000000000 - (r : Int)

/-- PPS_EDGE (R384): the edge, `after` ns after the last tick, is compared with the nearest whole second. An error above 1 µs steps the time, else
it changes the rate word; three consecutive edges within 20 ns lock. -/
def execPpsEdge (after : Nat) (s : State) : Host.Outcome State Fault Refusal :=
  answer s (
    if s.follows || !s.pinsLive then s
    else
      let error := ppsError (s.stamp after)
      let good := if error.natAbs ≤ 20 then s.clock.ppsGood + 1 else 0
      let s := s.setReg (Off.ms 0x14) (twos 32 error)
      let s := if 1000 < error.natAbs then s.stepTime error else s.slewTime error
      let s := { s with clock := { s.clock with ppsLast := s.clock.ns, ppsGood := good } }
      s.setRegBits (Off.ms 0x10) 0 4 (1 + 4 * (decide (3 ≤ good)).toNat))

/-- PPS_HOLDOVER (R384): 1.5 s without an edge: the rate word stays, HOLDOVER is set. -/
def execPpsHoldover (s : State) : Host.Outcome State Fault Refusal :=
  answer s (
    if s.regBits (Off.ms 0x10) 0 2 ≠ 1 ∨ s.now < s.clock.ppsLast + 1500000000 then s
    else ({ s with clock := { s.clock with ppsGood := 0 } }).setRegBit (Off.ms 0x10) 3 true)

/-- MS_TIME_SET written (R385): the time becomes the value, the step being the difference; ignored on an attached worker. -/
def State.setTime (s : State) (v : Nat) : State :=
  if s.follows then s.tally (Off.ms 0x1C) 1 else s.stepTime ((v : Int) - s.clock.ns)

/-- MS_TIME_SET (R385). -/
def execMsTimeSet (value : DWord) (secure : Bool) (s : State) : Host.Outcome State Fault Refusal :=
  answer s (s.posted (Off.ms 8) 8 value.toNat secure (fun s => s.secureOnly secure (Off.ms 8) (fun s => s.setTime value.toNat)))

/-- REF_LOST (R385): the counter falls back to the Milestone clock; a fatal record, whose handling parks the device (R438). -/
def execRefLost (s : State) : Host.Outcome State Fault Refusal :=
  answer s (
    if s.clock.refOk = false then s
    else (({ s with clock := { s.clock with refOk := false } }).setRegBit (Off.ms 0x10) 4 true).fileError bothWorlds
      (ErrRec.of .refLost))

/-! ### Sleep of tiles (R388) -/

/-- NAP_US, REST_EN, DEEP_EN, DEEP_S and REST_MS of SLEEP_CFG (R405 Table 8). -/
def State.napUs (s : State) : Nat := s.regBits (Off.ms 0x30) 0 16
def State.restEn (s : State) : Bool := s.regBit (Off.ms 0x30) 16
def State.deepEn (s : State) : Bool := s.regBit (Off.ms 0x30) 17
def State.deepS (s : State) : Nat := s.regBits (Off.ms 0x30) 18 6
def State.restMs (s : State) : Nat := s.regBits (Off.ms 0x30) 24 8

/-- Whether a tile has no step issued or queued. -/
def State.tileIdle (s : State) (n : Nat) : Bool :=
  let t := s.tile n
  t.queue.isEmpty && t.running.isEmpty && !t.testing

/-- Whether 64 fabric cycles have passed since a time, at the operating point and the duty of a tread (R361): its fabric clock is twice the
arithmetic one. -/
def State.cycles64 (s : State) (tread since : Nat) : Bool :=
  decide (64 * 1000 * 16 ≤ (s.now - since) * (2 * opMhz (s.opNow tread).1 * (s.opNow tread).2))

/-- TILE_DOZE (R388): no step issued or queued for 64 fabric cycles. -/
def execTileDoze (tile : Nat) (s : State) : Host.Outcome State Fault Refusal :=
  answer s (if s.unbacked tile ∨ (s.tile tile).sleep ≠ .awake ∨ s.tileIdle tile = false ∨ s.sleep.pkg ≠ .awake ∨
      s.cycles64 (tile / 512) (max (s.tile tile).lastStep (s.tile tile).sleepSince) = false then s
    else s.setSleep tile .doze)

/-- TILE_NAP (R388): after NAP_US µs of Doze, unless NAP_US is 0. -/
def execTileNap (tile : Nat) (s : State) : Host.Outcome State Fault Refusal :=
  answer s (
    if (s.tile tile).sleep ≠ .doze ∨ s.napUs = 0 ∨ s.now < (s.tile tile).sleepSince + s.napUs * 1000 ∨ (s.tile tile).testing = true ∨
        s.sleep.pkg ≠ .awake then s
    else s.setSleep tile .nap)

/-- TILE_WAKE (R388). -/
def execTileWake (tile : Nat) (s : State) : Host.Outcome State Fault Refusal :=
  answer s (if s.sleep.pkg ≠ .awake then s else s.wakeTile tile)

/-- NAP_BURST_SCRUB (R388): the tile rises to Doze, every row of every macro is read, and it naps again. -/
def execNapBurstScrub (tile : Nat) (s : State) : Host.Outcome State Fault Refusal :=
  answer s (if (s.tile tile).sleep ≠ .nap ∨ s.unbacked tile ∨ s.sleep.pkg ≠ .awake then s else s.scrubTile tile)

/-! ### EVT_IN (R392 to R395) -/

/-- Registers of a pin. -/
def Off.evt (i k : Nat) : Nat := Off.ms (0x100 + 0x20 * i + k)

/-- Whether a pin's configuration counts an edge. -/
def State.evtCounts (s : State) (i : Nat) (rising : Bool) : Bool :=
  let pol := s.regBits (Off.evt i 0) 0 2
  s.regBit (Off.evt i 0) 4 && !s.regBit (Off.evt i 0) 5 && (decide (pol = 2) || decide (pol = (!rising).toNat))

/-- WAKE_EN of a pin. -/
def State.evtWakes (s : State) (i : Nat) : Bool := s.regBit (Off.evt i 0) 2

/-- A counted edge: counted and stamped; one less than 20 ns after the last counted edge, in the same window of 1 µs of system time, makes the
window an overrun window (R393). In Deep the latch records the first edge and nothing counts (R395). -/
def State.countEdge (s : State) (i t : Nat) : State :=
  let x := s.evtPin i
  if s.inDeep then (if s.evtWakes i && !x.deepEdge then s.setEvtPin i { x with deepEdge := true, lastEdge := some t } else s)
  else
    let close := match x.lastEdge with
      | some u => decide (u / 1000 = t / 1000) && decide (u ≤ t) && decide (t < u + 20)
      | none => false
    let w := if close && !x.overruns.contains (t / 1000) then x.overruns ++ [t / 1000] else x.overruns
    ((s.setEvtPin i { x with lastEdge := some t, overruns := w }).tally (Off.evt i 4) 1).setReg64 (Off.evt i 0x10) t

/-- EVT_EDGE (R392, R395): the level changes, `after` ns after the last tick. The latch of a pin with WAKE_EN that is not masked (R394) catches every
edge, in every state; an edge that the pin's configuration selects is counted. -/
def execEvtEdge (pin : Nat) (rising : Bool) (after : Nat) (s : State) : Host.Outcome State Fault Refusal :=
  answer s (
    if s.pinsLive = false then s
    else
      let t := s.stamp after
      let x := s.evtPin pin
      let s := s.setEvtPin pin { x with
        level := rising, levelSince := t, latched := x.latched || (s.evtWakes pin && !s.regBit (Off.evt pin 0) 5) }
      if s.evtCounts pin rising then s.countEdge pin t else s)

/-- EVT_WINDOW_END (R393): the first overrun window of a pin that has ended is counted; EVT_OVERRUN at the first, and again only after 1 ms
without one. -/
def execEvtWindowEnd (pin : Nat) (s : State) : Host.Outcome State Fault Refusal :=
  answer s (match (s.evtPin pin).overruns with
    | [] => s
    | w :: rest =>
      if s.now < 1000 * (w + 1) ∨ s.inDeep = true then s
      else
        let x := s.evtPin pin
        let post := match x.lastOverrun with
          | none => true
          | some t => decide (t + 1000000 ≤ 1000 * w)
        let s := (s.tally (Off.evt pin 8) 1).setEvtPin pin { x with overruns := rest, lastOverrun := some (1000 * (w + 1)) }
        if post then s.postEvent bothWorlds Ev.evtOverrun 7 pin (natLe 4 (s.reg (Off.evt pin 8)) ++ natLe 4 (s.reg (Off.evt pin 4)))
        else s)

/-- EVT_STUCK (R394): a pin at its active level for STUCK_MS ms is masked. -/
def execEvtStuck (pin : Nat) (s : State) : Host.Outcome State Fault Refusal :=
  answer s (
    let x := s.evtPin pin
    let ms := s.regBits (Off.evt pin 0) 16 16
    if ms = 0 ∨ s.regBit (Off.evt pin 0) 5 ∨ x.level ≠ s.regBit (Off.evt pin 0) 3 ∨ s.now < x.levelSince + ms * 1000000 then s
    else
      (s.setRegBit (Off.evt pin 0) 5 true).postEvent bothWorlds Ev.evtStuck 7 pin (natLe 4 (x.level.toNat + 2 ^ 16 * ms)))

/-- EVT_UNSTUCK (R394): 1 ms at the inactive level. -/
def execEvtUnstuck (pin : Nat) (s : State) : Host.Outcome State Fault Refusal :=
  answer s (
    let x := s.evtPin pin
    if s.regBit (Off.evt pin 0) 5 = false ∨ x.level = s.regBit (Off.evt pin 0) 3 ∨ s.now < x.levelSince + 1000000 then s
    else s.setRegBit (Off.evt pin 0) 5 false)

/-! ### EVT_OUT (R396) -/

/-- Registers of an output. -/
def Off.evto (j k : Nat) : Nat := Off.ms (0x200 + 0x10 * j + k)

/-- The number of the next pulse of a pin since it was programmed, those it has started counted. -/
def State.pulses (s : State) (j : Nat) : Nat := sget (fun _ => 0) s.sleep.outPulses j

/-- The number and the start of the next pulse of a pin whose time is not past: none in MODE 0 or after the one pulse of MODE 1. -/
def State.pulseAt (s : State) (j : Nat) : Option (Nat × Nat) :=
  let t := s.reg64 (Off.evto j 8)
  let p := max 1 (s.reg (Off.evto j 4)) * 1000
  match s.regBits (Off.evto j 0) 0 2 with
  | 1 => if s.pulses j = 0 ∧ s.now ≤ t then some (0, t) else none
  | 2 =>
    let k := max (s.pulses j) ((s.now - t + p - 1) / p)
    some (k, t + k * p)
  | _ => none

/-- A pin driven high or low. -/
def State.driveOut (s : State) (j : Nat) (high : Bool) : State :=
  let l := s.sleep.outHigh.filter (fun x => decide (x ≠ j))
  { s with sleep := { s.sleep with outHigh := if high then l ++ [j] else l } }

/-- A pin's registers written (R396): MODE 0 drives LEVEL; the other modes start again, idle low until their next pulse (DEDUCED, log entry 57). -/
def State.programOut (s : State) (j : Nat) : State :=
  let s := { s with sleep := { s.sleep with outPulses := sdel s.sleep.outPulses j } }
  s.driveOut j (decide (s.regBits (Off.evto j 0) 0 2 = 0) && s.regBit (Off.evto j 0) 2)

/-- EVT_OUT_PULSE (R396): in the tick of its programmed system time; a pulse whose time is past does not start. -/
def execEvtOutPulse (pin : Nat) (s : State) : Host.Outcome State Fault Refusal :=
  answer s (match s.pulseAt pin with
    | none => s
    | some (k, t) =>
      if s.now + s.tickNs ≤ t ∨ s.pinsLive = false then s
      else
        let z := s.sleep
        (({ s with sleep := { z with
          outStart := sins pin t z.outStart
          outPulses := sput (fun _ => 0) z.outPulses pin (k + 1) } }).driveOut pin true).emit (.evtPulse pin))

/-- EVT_OUT_PULSE_END (R396): WIDTH ns after its start the pin is idle again; a static level ends by no pulse. -/
def execEvtOutPulseEnd (pin : Nat) (s : State) : Host.Outcome State Fault Refusal :=
  answer s (
    let t := (tget s.sleep.outStart pin).getD 0
    if s.sleep.outHigh.contains pin = false ∨ s.regBits (Off.evto pin 0) 0 2 = 0 ∨ s.now + s.tickNs ≤ t + s.regBits (Off.evto pin 0) 8 24 then s
    else s.driveOut pin false)

end Sys2Proof.Machine
end

