-- ==== Sys2Proof/Machine/Boot.lean ====
section
/-! DEFINITION. Bring-up, resets and secure boot (R14 to R19, R397 to R403, R421, R422, R456 to R465). -/

namespace Sys2Proof.Machine

/-! ### Readiness (R397 to R401) -/

/-- Whether UNIT_READY decides a unit's code. The link's and a port's code 1, the codes of secure boot and of the stacks come
from their own commands; a causeway is ready only with a stack, a toe-heel unit only with its causeway (R397, R399). -/
def State.readyAllowed (s : State) (kind index code : Nat) : Bool :=
  if code = 3 then false
  else if kind = 0 then decide (index = 1) || decide (index = 4) || decide (index = 5) || (decide (index = 3) && decide (code ≠ 1))
  else if kind = 1 then decide (code = 2) && decide (s.readyCode 1 index ≠ 3)
  else if kind = 2 then !s.errs.thRetired.contains index && (decide (code ≠ 1) || decide (s.readyCode 3 (index / 4) = 1))
  else if kind = 3 then decide (code ≠ 1) || (List.range 6).any (fun k => decide (s.readyCode 4 (6 * index + k) = 1))
  else decide (kind = 5) && decide (code ≠ 1)

/-! ### The power-on test and the tile map (R14, R15, R19, R373, R400) -/

/-- Batches done and tiles mapped of a tread. -/
def State.batchesDone (s : State) (t : Nat) : Nat := (s.passes.batchesDone.filter (fun b => decide (b.1 = t))).length
def State.mapped_ (s : State) (t : Nat) : Nat := (s.passes.tileMap.filter (fun e => decide (e.1 / 512 = t))).length

/-- TILE_SPARES and ID_TILES[26:16] (R452, R486). -/
def State.syncTiles (s : State) : State :=
  (s.setReg (Off.err 0x60) (min 255 (s.spares 0).length + 2 ^ 8 * min 255 (s.spares 1).length)).setRegBits Off.idTiles 16 11
    s.passes.tileMap.length

/-- A physical tile tested: marked, and given the next logical number while the quota lasts; the last of a group makes it ready. -/
def State.testTile (s : State) (t n : Nat) (good : Bool) : State :=
  if good = false then s.setPhys t n .failed
  else
    let s := s.setPhys t n .passed
    let k := s.mapped_ t
    if s.quota ≤ k then s
    else
      let l := 512 * t + k
      let s := ({ s with passes := { s.passes with tileMap := sins l (544 * t + n) s.passes.tileMap } }).applyRepairs l
      if k % 16 = 15 then s.setReady 1 l 1 else s

/-- Whether a tread tests no more: its quota met, its walk at the end, or failed. -/
def State.treadDone (s : State) (t : Nat) : Bool :=
  decide (s.quota ≤ s.mapped_ t) || decide (9 ≤ s.batchesDone t) || decide (s.readyCode 0 (4 + t) = 2)

/-- Whether it is a tread's turn (R400): the batches alternate, Tread A first, until the other tread tests no more. -/
def State.testTurn (s : State) (t : Nat) : Bool :=
  if t = 0 then decide (s.batchesDone 0 ≤ s.batchesDone 1) || s.treadDone 1 else decide (s.batchesDone 1 < s.batchesDone 0) || s.treadDone 0

/-- The trim and the points of a tread set afresh by the power-on test, once it tests no more (R373). -/
def State.setTrim (s : State) (t trim points : Nat) : State :=
  if s.treadDone t = false ∨ s.power.trimSet.contains t = true then s
  else ({ s with power := { s.power with trimSet := t :: s.power.trimSet } }.setRegBits (Off.pwr 0x18) (8 * t) 5 trim).setRegBits
    (Off.pwr 0x18) (16 + 8 * t) 8 points

/-- A batch of the walk tested. -/
def State.testBatch (s : State) (tread batch : Nat) (failed badRouters : List Nat) : State :=
  let tiles := ((List.range 64).map (64 * batch + ·) |>.filter (· < 544)).map walkTile
  let bad := badRouters.filter (fun n => tiles.contains n)
  let s := { s with passes := { s.passes with
    batchesDone := s.passes.batchesDone ++ [(tread, batch)]
    badRouters := s.passes.badRouters ++ (bad.map (544 * tread + ·)).filter (fun x => !s.passes.badRouters.contains x) } }
  (tiles.foldl (fun s n => s.testTile tread n (decide (s.phys tread n ≠ .retired) && !failed.contains n &&
    !s.passes.badRouters.contains (544 * tread + n) && !s.fusedBad (544 * tread + n))) s).syncTiles

/-- POWER_ON_TEST_BATCH (R400): the next batch of a ready tread whose turn it is and whose quota is not met. It runs in the maintenance window
alone (R444): the tread is asked for OP7 at full duty, and a batch before it has them does not run. -/
def execPowerOnTestBatch (tread batch : Nat) (failed badRouters : List Nat) (trim points : Nat) (s : State) :
    Host.Outcome State Fault Refusal :=
  answer s (
    if s.readyCode 0 (4 + tread) ≠ 1 ∨ batch ≠ s.batchesDone tread ∨ s.quota ≤ s.mapped_ tread ∨ 544 ≤ 64 * batch ∨
        s.testTurn tread = false ∨ (s.fullDutyBarred [tread]).isSome = true then s
    else
      let s := s.askFullDuty tread
      if s.opNow tread ≠ (7, 16) then s
      else (s.testBatch tread batch failed badRouters).setTrim tread trim points)

/-- The groups whose last tile never came read failed (R15). -/
def State.failGroups (s : State) : State :=
  (List.range 64).foldl (fun s g => if s.readyCode 1 (16 * g) = 0 then s.setReady 1 (16 * g) 2 else s) s

/-- The descriptors accepted when bring-up settles without the minimum service set, ended with FAULT_NOT_READY whatever their WAIT flag says,
NOP, FENCE and TEST apart (R401). -/
def State.endUnmanaged (s : State) : State :=
  (s.reqs.filter (fun e => !managed e.2.opcode)).foldl (fun s e => s.neverReady e.1 0 0) s

/-- BRINGUP_SETTLED (R399, R401): once every unit reads 1, 2 or 3 and no port is in training or exchanges hellos; a port with nothing attached
reads 0 (R397). -/
def execBringupSettled (s : State) : Host.Outcome State Fault Refusal :=
  answer s (
    let others := readyUnits.filter (fun u => decide (u.1 ≠ 1) && decide (u.1 ≠ 5))
    let training := (List.range 16).any (fun p => decide (s.ixState p = 1) || decide (s.ixState p = 2))
    if s.regBit (Off.rdy 0) 2 ∨ others.any (fun u => decide (s.readyCode u.1 u.2 = 0)) = true ∨ s.treadDone 0 = false ∨
        s.treadDone 1 = false ∨ training = true then s
    else
      let s := s.failGroups.noteTraffic
      let s := if s.regBits (Off.rdy 0) 0 2 = 2 then s else (s.setRegBits (Off.rdy 0) 0 2 1).endUnmanaged
      s.setRegBit (Off.rdy 0) 2 true)

/-! ### Supplies (R403, R460, R462) -/

/-- Whether a rail is judged (R403): a core rail only once it has arrived at its request. -/
def State.railJudged (s : State) (rail : Nat) : Bool :=
  decide (2 ≤ rail) || decide (s.regBits (Off.pwr 0x24) (16 * rail) 10 = 0) || decide (s.rail rail = s.regBits (Off.pwr 0x24) (16 * rail) 10)

/-- SUPPLY_FAULT (R403): a rail out of its limits for 10 µs: a fatal record, whose handling parks the device. -/
def execSupplyFault (rail : Nat) (s : State) : Host.Outcome State Fault Refusal :=
  answer s (
    if s.msReady = false ∨ s.railJudged rail = false then s
    else
      let s := s.setRegBit (Off.ms 0x28) rail true
      let low := ((List.range 10).find? (fun k => s.regBit (Off.ms 0x28) k)).getD rail
      s.fileError bothWorlds (((ErrRec.of .supply).unit 8 low).details (s.reg (Off.ms 0x28)) 0))

/-! ### PORST_N (R463) -/

/-- A flash write that a reset stops: an image leaves no valid image (R463, R464); another range is undefined (R432). -/
def State.stopFlash (s : State) : State :=
  s.sec.mbox.foldl (fun s m =>
    if m.command = 4 ∧ m.result = 0 then s.breakImage
    else if m.command = 5 ∧ m.result = 0 then s.flashLost Flash.setup 0x10000
    else s) s

/-- Everything reset: only the fuses, the flash, the host's memory, the test port, what has been sent and the faulty cells stay (R463). -/
def State.powerReset (s : State) : State :=
  let s := s.stopFlash
  { State.reset with
    fuses := s.fuses, flash := s.flash, host := s.host, out := s.out, free := s.free, pending := s.pending, stuck := s.stuck
    pins := { State.reset.pins with jtag := s.pins.jtag } }

/-- PORST (R463). -/
def execPorst (s : State) : Host.Outcome State Fault Refusal := answerPin s s.powerReset

/-- VDD_AON_LOSS (R462): as a PORST_N; the rise of VDD_AON also resets the test port (R473). -/
def execVddAonLoss (s : State) : Host.Outcome State Fault Refusal :=
  answerPin s { s.powerReset with pins := State.reset.pins }

/-- PORST_RELEASE (R340, R460, R464, R465, R467, R472): the straps sampled, bring-up begun; a WARMRST_N held low holds it before secure
boot. `flashGood` says whether the flash describes itself by SFDP and has the commands of R472. -/
def execPorstRelease (role bootsrc : Nat) (refSwing warmHeld flashGood : Bool) (s : State) : Host.Outcome State Fault Refusal :=
  answerPin s (
    if s.pins.porstLow = false then s
    else
      let s := { s with
        pins := { s.pins with
          porstLow := false, role := role, bootsrc := bootsrc, flashGood := flashGood, refIsClock := refSwing, warmHeld := warmHeld, warmLow := warmHeld }
        sec := { s.sec with stage := .beforeBoot } }
      s.setRegBit (Off.ix 0) 0 (decide (role % 2 = 1)))

/-! ### WARMRST_N (R402, R464, R488) -/

/-- The requests in flight end as at a halting park; their records stay on die until the link is ready (R317). Descriptors fetched
and not accepted are forgotten. -/
def State.warmRequests (s : State) : State :=
  let s := { s with rings := { s.rings with fetched := [] }, link := { s.link with up := false } }
  let s := { s with passes := { s.passes with pending := [] } }.haltReqs
  { s with link := { s.link with recWrites := [] }, latches := [], holds := [] }

/-- The mesh emptied: its requests have ended, so the drains it carried count as late and the markers as discarded (R79, R235). -/
def State.clearMesh (s : State) : State :=
  let s := s.mesh.drains.foldl (fun s d => s.tally (Off.tile d.dst 0x318) 1) s
  let s := s.mesh.markers.foldl (fun s m => s.tally (Off.tile m.dst 0x928) 1) s
  { s with mesh := { drains := [], contribs := [], markers := [], held := [], accesses := [] } }

/-- The array empty, the tile map gone; spare rows and columns stay (R447). No tile is in an active pass, so the tag tables and last
scales read zero (R96, R117). -/
def State.warmArray (s : State) : State :=
  let s := (s.tiles.map (·.1)).foldl (fun s n => s.setTags n []) s.clearMesh
  let s := s.clearMem 0x020000000000 0x020140000000
  let tiles := s.tiles.map (fun e => (e.1, { Tile.empty with rowErrs := e.2.rowErrs, rowSpares := e.2.rowSpares }))
  let macros := s.macros.map (fun e => (e.1, { Macro.empty with spares := e.2.spares }))
  let s := s.th.foldl (fun s e => if e.2.running.isSome then (s.untally (Off.th e.1 0x10) 1).tally (Off.th e.1 0xC) 1 else s) s
  let slots := s.passes.slots.filter (fun e => !e.2.staging)
  let s := { s with
    tiles := tiles.filter (fun e => decide (e.2 ≠ Tile.empty))
    macros := macros.filter (fun e => decide (e.2 ≠ Macro.empty))
    th := []
    passes := { s.passes with
      slots := slots, tileMap := [], batchesDone := [], badRouters := []
      phys := s.passes.phys.filter (fun e => decide (e.2 = PhysState.retired)) } }
  ((s.setReg Off.genActive 0).syncPasses.syncTiles).syncSleep

/-- The ports down, the windows lost, the groups' instances gone; a new incarnation follows (R346). -/
def State.warmLinks (s : State) : State :=
  let s := (List.range 16).foldl (fun s p =>
    let s := if s.ixState p = 3 then s.losePort p else s
    s.setIxState p 0) s
  let s := (List.range 256).foldl (fun s w => if s.winState w = 0 then s else s.loseWindow (s.winPeer w) w) s
  let s := s.setReg (Off.ix 0x30) 0
  let s := s.tally (Off.ix 0x28) s.ix.fwdHeld.length
  let s := s.setReg (Off.ix 0x2C) 0
  let s := { s with ix := { s.ix with ports := [], uplink := none, inbound := [], txns := [], closeAnswered := [], fwdHeld := [], insts := [] } }
  { s with ix := { s.ix with links := [], devices := [], cut := false, early := [], held := [], timeGood := 0 } }

/-- The readiness codes of the units that come up again return to 0 (R402, R488); an absent tile group does not come up (R4), nor does a device
whose boot has failed (R421). -/
def State.warmReady (s : State) : State :=
  let again := fun (u : Nat × Nat) => !(decide (u.1 = 0) && decide (u.2 = 1)) &&
    !(decide (u = (0, 2)) && decide (s.sec.stage = .failedBoot)) && decide (s.readyCode u.1 u.2 ≠ 3)
  let s := (readyUnits.filter again).foldl (fun s u => s.setReady u.1 u.2 0) s
  s.setReg (Off.rdy 0) 0

/-- What WARMRST_N does (R402, R463, R464, R488): the Milestone block, the registers and the HBM content stay. A park ends (R314). -/
def State.warmReset (s : State) : State :=
  let s := s.stopFlash
  let s := (((s.warmRequests.warmLinks).warmArray).warmReady)
  let s := [0, 1].foldl (fun s w => s.setRegBit (Off.mb w 0x10) 0 false) s
  let s := s.setReg (Off.hl 0) 0
  let s := (s.setReg (Off.park 0) 0).setReg (Off.park 4) 0
  let s := { s with
    hbm := { s.hbm with ctxCache := [], usableFixed := false, prevStacks := s.reg (Off.mem 8) }
    link := { s.link with enumerated := false, ideKeys := false }
    park := { s.park with records := [], railsIdle := false }
    errs := { s.errs with handling := [], underTest := [] }
    audit := { s.audit with digests := [] }
    sleep := { s.sleep with pkg := .awake, stacksWoken := none, deepWrites := [] }
    pins := { s.pins with warmLow := true }
    sec := { s.sec with
      stage := if s.sec.stage = BootStage.failedBoot then .failedBoot else .inReset
      treeReady := false, change := [], mbox := [], recoverImage := []
      signQueue := s.sec.signQueue.filter (· < 2) } }
  s.syncToll.syncSleep

/-- The release of WARMRST_N (R346): W grows; past 20 bits the next boot burns an epoch and W starts again at 0. A failed boot stays so until
PORST_N (R421). -/
def State.warmRelease (s : State) : State :=
  let w := s.clock.warmCount + 1
  let exceeds := decide (2 ^ 20 ≤ w)
  { s with
    pins := { s.pins with warmLow := false, warmHeld := false }
    clock := { s.clock with warmCount := if exceeds then 0 else w }
    sec := { s.sec with stage := if s.sec.stage = .failedBoot then .failedBoot else .beforeBoot, burned := s.sec.burned && !exceeds } }

/-- WARMRST (R464): low on three Milestone clock edges. -/
def execWarmrst (s : State) : Host.Outcome State Fault Refusal :=
  answerBurning s (if s.pins.warmLow then s else s.warmReset)

/-- WARMRST_RELEASE (R346, R464). -/
def execWarmrstRelease (s : State) : Host.Outcome State Fault Refusal :=
  answer s (if s.pins.warmLow then s.warmRelease else s)

/-! ### Secure boot (R421, R422) -/

/-- Tile groups absent on the grade read code 3 (R4, R397). -/
def State.markAbsent (s : State) : State :=
  if s.fuses.gradeB = false then s
  else [28, 29, 30, 31, 60, 61, 62, 63].foldl (fun s g => s.setReady 1 (16 * g) 3) s

/-- The fuses read by the ROM: `bad` are the epoch fuses it finds neither clean nor burned (R428). -/
def State.readFuses (s : State) (bad : List Nat) : State := State.loadFuses { s with fuses := { s.fuses with epochsBad := bad } }

/-- The ROM's way through Table 7 (R421): an image from flash, or a wait for recovery, or the failed-boot state, in which a flash that R472 does
not allow leaves it too. -/
def State.romBoot (s : State) (bad : List Nat) : State :=
  let s := (s.readFuses bad).markAbsent
  let b := s.pins.bootsrc % 4
  let s := if b = 3 then s.fileError bothWorlds (ErrRec.of .strap) else s
  let g := s.flashImage
  if s.pins.flashGood ∧ b ≠ 2 ∧ s.imageValid g = true then s.finishBoot g false
  else if b = 0 ∨ s.pins.flashGood = false then ({ s with sec := { s.sec with stage := .failedBoot } }.syncSecStatus).setReady 0 2 2
  else ({ s with sec := { s.sec with stage := .recovery } }).syncSecStatus

/-- SECURE_BOOT_COMPLETE (R421, R422). `badFuses` are the epoch fuses that the ROM reads as neither clean nor burned (R428). -/
def execSecureBootComplete (badFuses : List Nat) (s : State) : Host.Outcome State Fault Refusal :=
  answerBurning s (
    if s.pins.warmLow then s
    else match s.sec.stage with
      | .beforeBoot => if s.msReady then s.romBoot badFuses else s
      | .recovery => if s.sec.recoverImage.isEmpty then s else s.finishBoot s.sec.recoverImage true
      | _ => s)

/-! ### DOE (R431) -/

/-- The report that binds the SPDM key to the identity, signed for a certificate chain: its nonce is the digest of the key. -/
def State.bindKey (s : State) (object : List Byte) : State × List Byte :=
  if Config.doeWantsChain object = false ∨ s.signerReady = false then (s, [])
  else
    let s := s.nextEpochDue
    if s.sec.noEpoch then (s, [])
    else
      let r := s.report 0 (shake256 s.sec.p384) s.sigIndex
      (s.useIndex, r ++ s.signed r)

/-- An object answered as the standards say; an IDE_KM object that installs keys enables IDE (R258, R270). -/
def State.answerDoe (s : State) (object : List Byte) : State :=
  let s := if Config.doeInstallsKeys object then ({ s with link := { s.link with ideKeys := true } }).setRegBit (Off.hl 0) 19 true else s
  match s.bindKey object with
  | (s, r) => s.emit (.doe (Config.doeAnswer object s.sec.p384 r))

/-- DOE_REQUEST (R390, R431): a CXL.io access, which in Deep waits for the wake (R391). -/
def execDoeRequest (object : List Byte) (s : State) : Host.Outcome State Fault Refusal :=
  answerBurning s (
    if s.link.up = false then s
    else if s.inDeep then s.noteTraffic.holdAccess .doe 0 object false
    else (s.accessed 0).answerDoe object)

end Sys2Proof.Machine
end

