-- ==== Sys2Proof/Machine/Requant.lean ====
section
/-! DEFINITION. REQUANT (R100 to R103, R107 to R114, R168) and the completion of a scale record (R109, R110, R115, R191). -/

namespace Sys2Proof.Machine

/-! ### The scale record of a frame (R113, R114) -/

/-- A frame's first conversion in a LAYER, on tile n: the scale it applies and its frame index enter the record, the counts start at
zero. A RUN without a stream keeps no record (R112). -/
def State.beginRecord (s : State) (n i : Nat) (q : Request) (layer : Nat) (sc : Scale) : State :=
  match q.stream with
  | none => s
  | some st =>
    if q.mags.any (fun x => decide (x.1 = layer)) then s
    else
      let s := s.updReq i (fun r => { r with mags := layerPut r.mags layer 0, scaleTile := layerPut r.scaleTile layer n })
      match s.scaleRec st layer with
      | none => s
      | some a =>
        let s := s.setMemNat a 4 (sc.m % 2 ^ 24 + 2 ^ 24 * (sc.s % 64) + 2 ^ 30 * sc.source)
        let s := s.setMemNat (a + Srec.frame) 4 q.frame
        (s.setMemNat (a + Srec.values) 8 0).setMemNat (a + Srec.clipLo) 8 0

/-- The counts and the magnitude of converted values (R107, R113, R114). -/
def State.noteConverted (s : State) (n i : Nat) (q : Request) (layer e : Nat) (xs : List Int) (out : List (Nat × Bool × Bool)) :
    State :=
  let lo := (out.filter (fun c => c.2.1)).length
  let hi := (out.filter (fun c => c.2.2)).length
  let s := ((s.tally (Off.tile n 0x400) out.length).tally (Off.tile n 0x404) lo).tally (Off.tile n 0x408) hi
  match q.stream with
  | none => s
  | some st =>
    let m := (xs.map (magOf e)).foldl max 0
    let s := s.updReq i (fun r => { r with
      mags := layerPut r.mags layer (max m (layerGet r.mags layer)), scaleTile := layerPut r.scaleTile layer n })
    match s.scaleRec st layer with
    | none => s
    | some a =>
      let s := s.setMemNat (a + Srec.values) 8 (s.memNat (a + Srec.values) 8 + out.length)
      let s := s.setMemNat (a + Srec.clipLo) 4 (s.memNat (a + Srec.clipLo) 4 + lo)
      s.setMemNat (a + Srec.clipHi) 4 (s.memNat (a + Srec.clipHi) 4 + hi)

/-- The scale entry of a step. -/
def Tile.scaleOf (t : Tile) (w : Nat) : Nat := (t.scales.getD (Step.scale w) 0).toNat

/-- A run of values converted with a scale: the codes, counted. -/
def State.convert (s : State) (n i : Nat) (q : Request) (w : Nat) (sc : Scale) (xs : List Int) : State × List Nat :=
  let t := s.tile n
  let e := t.scaleOf w
  let out := xs.map (requantOne t.pat (Step.ptab w) e sc)
  (s.noteConverted n i q (Step.layer w) e xs out, out.map (·.1))

/-! ### Sources (R102, R108) -/

/-- The 32-bit words of a scratchpad source. -/
def State.reqWords (s : State) (w : Nat) : List Int :=
  ((wordsOf 4 (s.viewBytes (Step.src w) 0 (4 * Step.count0 w))).take (Step.count0 w)).map (signedOf 32)

/-- A ledger source converted slot by slot as far as complete slots allow. -/
def State.requantSlots (s : State) (n : Nat) (r : RStep) (q : Request) (sc : Scale) : Nat → State
  | 0 => s
  | fuel + 1 =>
    if s.live r.req = false then s
    else if Step.count0 r.w ≤ r.next then s.setStep n r { r with finished := true }
    else match s.takeSlot (Step.src r.w) r.req (Step.layer r.w) (some (Step.tag r.w)) with
      | .wait => s
      | .bad t => t
      | .got t _ es =>
        let (t, codes) := t.convert n r.req q r.w sc (es.map (fun e => e.value.toInt))
        let t := t.stepWrite n r.req (Step.layer r.w) q.secure (Step.dst r.w) r.next (codes.map (BitVec.ofNat 8))
        let r2 := { r with next := r.next + es.length }
        if t.live r.req then (t.setStep n r r2).requantSlots n r2 q sc fuel else t

/-- A scratchpad source converted whole. -/
def State.requantWords (s : State) (n : Nat) (r : RStep) (q : Request) (sc : Scale) : State :=
  match s.stepReadBad q.secure (Step.src r.w) 0 (4 * Step.count0 r.w) with
  | some v => s.failStep n r.req (Step.layer r.w) q.secure v
  | none =>
    let (t, codes) := s.convert n r.req q r.w sc (s.reqWords r.w)
    let t := t.stepWrite n r.req (Step.layer r.w) q.secure (Step.dst r.w) 0 (codes.map (BitVec.ofNat 8))
    if t.live r.req then t.setStep n r { r with next := Step.count0 r.w, finished := true } else t

/-- Conversion of a plain source with a scale. -/
def State.requantPlain (s : State) (n : Nat) (r : RStep) (q : Request) (sc : Scale) : State :=
  if Rg.kind (s.entryOf (Step.src r.w)) = Kind.ledger then s.requantSlots n r q sc (Step.count0 r.w + 1)
  else s.requantWords n r q sc

/-- The values a TILE scan reads: none while a slot is not complete. Slots are read and not consumed (R108). -/
def State.scanValues (s : State) (r : RStep) : Option (List Int) :=
  let h := Step.src r.w
  if Rg.kind (s.entryOf h) ≠ Kind.ledger then some (s.reqWords r.w)
  else
    let t := s.tile (hTile h)
    let b := max 1 (s.slotSize h)
    let c := t.consumedOf r.req (hIdx h)
    let l := (List.range (Step.count0 r.w / b)).map (fun k =>
      match s.prog.position h (c + k) with
      | some p => match t.slot? (hIdx h) r.req p with
        | some x => if s.slotComplete h x then some ((t.slotEntries x 0).map (fun e => e.value.toInt)) else none
        | none => none
      | none => none)
    if l.any (·.isNone) then none else some (l.filterMap id).flatten

/-- A TILE-mode step: the scan, the scale it finds, the conversion (R108). -/
def State.requantTile (s : State) (n : Nat) (r : RStep) (q : Request) : State :=
  match s.scanValues r with
  | none => s
  | some xs =>
    let t := s.tile n
    let e := t.scaleOf r.w
    let sc := deriveScale t.pat (Step.ptab r.w) e ((xs.map (magOf e)).foldl max 0) 1
    let s := (s.tally (Off.tile n 0x410) 1).setReg (Off.tile n 0x420) (sc.m % 2 ^ 24 + 2 ^ 24 * (sc.s % 64))
    (s.beginRecord n r.req q (Step.layer r.w) sc).requantPlain n r q sc

/-! ### Group records (R168) -/

/-- Fields of a group or code record's key. -/
def Grp.position (v : Nat) : Nat := bitsAt v 0 32
def Grp.group (v : Nat) : Nat := bitsAt v 32 16
def Grp.tag (v : Nat) : Nat := bitsAt v 48 4
def Grp.key (position group tag : Nat) : Nat := position % 2 ^ 32 + 2 ^ 32 * (group % 2 ^ 16) + 2 ^ 48 * (tag % 16)
/-- The GROUP of an end record (R167). -/
def Grp.endGroup : Nat := 0xFFFF

/-- A group record converted: its code record; channels at or above C are ignored. -/
def State.requantRecord (s : State) (n : Nat) (r : RStep) (q : Request) (sc : Scale) (bs : List Byte) : State × List Byte :=
  let key := fieldAt bs 0 8
  let xs := ((wordsOf 4 ((bs.drop 8).take 256)).map (signedOf 32)).take (s.prog.cout (Step.layer r.w) - 64 * Grp.group key)
  let (t, codes) := s.convert n r.req q r.w sc xs
  (t, natLe 8 key ++ padTo 64 (codes.map (BitVec.ofNat 8)))

/-- A DELTA REQUANT as far as its records and the room of its DST allow; it ends at the end record. -/
def State.requantRecords (s : State) (n : Nat) (r : RStep) (q : Request) (sc : Scale) : Nat → State
  | 0 => s
  | fuel + 1 =>
    let w := r.w
    if s.live r.req = false then s
    else match s.circFront (Step.src w) r.req with
      | none => s
      | some x =>
        if s.mayPut n r.req (Step.dst w) = false then s
        else match s.circBad q.secure (Step.src w) x with
        | some v => s.failStep n r.req (Step.layer r.w) q.secure v
        | none =>
          let bs := s.circBytes (Step.src w) x
          let key := fieldAt bs 0 8
          if Grp.group key = Grp.endGroup then
            let t := (s.circTake (Step.src w) x).circPut n r.req (Step.layer r.w) q.secure (Step.dst w) (natLe 8 key ++ List.replicate 64 0)
            if t.live r.req then t.setStep n r { r with next := r.next + 1, finished := true } else t
          else if Grp.tag key ≠ Step.tag w then s.seamFault n r.req (Step.layer r.w) .tag 0 0
          else
            let (t, out) := (s.circTake (Step.src w) x).requantRecord n r q sc bs
            let r2 := { r with next := r.next + 1 }
            let t := t.circPut n r.req (Step.layer r.w) q.secure (Step.dst w) out
            if t.live r.req then (t.setStep n r r2).requantRecords n r2 q sc fuel else t

/-! ### REQUANT -/

/-- The scale of a FIXED or STREAM step. -/
def State.stepScale (s : State) (n : Nat) (q : Request) (w : Nat) : Scale :=
  let t := s.tile n
  s.scaleFor q t.pat (Step.ptab w) (t.scaleOf w) (Step.layer w) (Step.delta w)

/-- A REQUANT issued: its scale enters the frame's record; a STREAM entry that runs with the compiled scale is counted
(R109, R112). -/
def State.issueRequant (s : State) (n i : Nat) (q : Request) (w waits : Nat) : State :=
  let mode := Sc.smode ((s.tile n).scaleOf w)
  let sc := s.stepScale n q w
  let s := s.issueStep n i w waits
  if mode = 1 then s
  else (if mode = 2 ∧ sc.source = 0 then s.tally (Off.tile n 0x40C) 1 else s).beginRecord n i q (Step.layer w) sc

/-- One advance of a running REQUANT. -/
def State.advanceRequant (s : State) (n : Nat) (r : RStep) (q : Request) : State :=
  if Step.delta r.w then s.requantRecords n r q (s.stepScale n q r.w) 65536
  else if Sc.smode ((s.tile n).scaleOf r.w) = 1 then s.requantTile n r q
  else s.requantPlain n r q (s.stepScale n q r.w)

/-- REQUANT (R100, R102, R108, R168). -/
def execRequant (tile waits : Nat) (s : State) : Host.Outcome State Fault Refusal :=
  answer s ((s.issuing tile Op.requant waits (fun s i q w => s.issueRequant tile i q w waits)).advance tile Op.requant
    (fun s r q => s.advanceRequant tile r q))

/-! ### SCALE_RECORD_COMPLETE (R109, R110, R115, R191) -/

/-- Audited groups and misses a request has counted in a LAYER (R191). -/
def Request.audits (q : Request) (layer : Nat) : Nat × Nat :=
  match q.awlCounts.find? (fun x => decide (x.1 = layer)) with
  | some x => x.2
  | none => (0, 0)

/-- Whether a guard entry compares once a frame's audited groups enter it (R191). -/
def State.guardCompares (s : State) (a audited : Nat) : Bool := decide (2 ^ s.memNat (a + 2) 1 ≤ s.memNat (a + 4) 4 + audited)

/-- What a request's counts in a guard entry leave behind (R191): a comparison clears the counts of every frame; else the request's stand in
the entry while its frame may still end with a fault. -/
def State.noteGuard (s : State) (i a : Nat) (compared : Bool) (audited misses : Nat) : State :=
  if compared then { s with reqs := s.reqs.map (fun e => (e.1, { e.2 with guards := e.2.guards.filter (fun x => decide (x.1 ≠ a)) })) }
  else s.updReq i (fun r => { r with guards := r.guards ++ [(a, audited, misses)] })

/-- A frame's scale record complete: the magnitude enters HISTORY, the drift and the guard are judged. -/
def State.closeRecord (s : State) (i : Nat) (q : Request) (st layer : Nat) : State :=
  let w := worldNum q.secure
  let s := match s.scaleRec st layer with
    | none => s
    | some a => (s.pushHistory a (layerGet q.mags layer)).judgeDrift a st layer q (q.requantsDone layer).2
  let s := match s.guardOf st (s.genProg q.gen) layer with
    | none => s
    | some a => (s.judgeGuard a st layer q.frame (q.audits layer).1 (q.audits layer).2 w).noteGuard i a
        (s.guardCompares a (q.audits layer).1) (q.audits layer).1 (q.audits layer).2
  s.updReq i (fun r => { r with scaleDone := r.scaleDone ++ [layer] })

/-- SCALE_RECORD_COMPLETE (R109): once every REQUANT step of the LAYER has completed for the frame. A guard entry that cannot be read ends the
RUN (R246). -/
def execScaleRecordComplete (req layer : Nat) (s : State) : Host.Outcome State Fault Refusal :=
  answer s (match s.req? req with
    | none => s
    | some q => match q.stream with
      | none => s
      | some st =>
        let k := (s.genProg q.gen).requantCount layer
        if q.phase ≠ .running ∨ k = 0 ∨ (q.requantsDone layer).1 < k ∨ q.scaleDone.contains layer = true then s
        else s.withContext req st (fun s => s.closeRecord req q st layer))

end Sys2Proof.Machine
end

