-- ==== Sys2Proof/Machine/Compress.lean ====
section
/-! DEFINITION. COMPRESS, plain and DELTA (R123 to R130, R158, R159, R168), the code state (R152), layer digests (R327,
R328) and the dealing of chunks (R144 to R146). -/

namespace Sys2Proof.Machine

/-! ### Layer digests (R327, R328) -/

/-- The prefix of a layer digest (R327 Table 4). -/
def digestPrefix (layer form widthCode width channels count : Nat) : List Byte :=
  natLe 2 layer ++ natLe 1 form ++ natLe 1 widthCode ++ natLe 4 width ++ natLe 4 channels ++ natLe 4 count

/-- The indexes of the chunks of a LAYER's digest, rising. -/
def Prog.digestIndexes (p : Prog) (layer : Nat) : List Nat :=
  sortNat ((p.all.filter (fun x => Step.digest x.2.2 && decide (Step.layer x.2.2 = layer))).flatMap (fun x => p.digestRows x.2.2))

/-- The engines a digest of a world may be bound to: of the causeway that receives its first chunk, or of any causeway when that one
has none of the world (R251, R409); one under test only where no other is left (R443). -/
def State.enginesFor (s : State) (c : Nat) (secure : Bool) : List Nat :=
  let all := (List.range 256).filter (fun e => (s.engineSecure e == secure) && !s.errs.retiredEngines.contains (e / 64, e % 64))
  let near := if (all.filter (fun e => decide (e / 64 = c))).isEmpty then all else all.filter (fun e => decide (e / 64 = c))
  let idle := near.filter (fun e => !s.errs.underTest.any (fun x => decide (x.1 = 3) && decide (x.2.1 = e)))
  if idle.isEmpty then near else idle

/-- Chunks handed to the digest engine of a request and LAYER: index and bytes of each. Which engine of the causeway takes the
digest nothing says: a free choice (R330; log entry 10). -/
def State.giveChunks (s : State) (c i layer form widthCode width channels : Nat) (l : List (Nat × List Byte)) : State :=
  let here := fun (d : DigestRun) => decide (d.req = i) && decide (d.layer = layer)
  let all := s.prog.digestIndexes layer
  let secure := match s.req? i with
    | some q => q.secure
    | none => false
  let es := s.enginesFor c secure
  let new : DigestRun :=
    { engine := es.getD ((Config.freeWord s.free).toNat % es.length) 0, req := i, layer := layer, form := form, widthCode := widthCode, width := width
      channels := channels, next := 0,
      message := digestPrefix layer form widthCode width channels all.length, waiting := [], chunks := l,
      total := all.length }
  let digests := if s.audit.digests.any here then
      s.audit.digests.map (fun d => if here d then { d with chunks := d.chunks ++ l } else d)
    else s.audit.digests ++ [new]
  { s with audit := { s.audit with digests := digests }, free := s.free + 1 }

/-- The chunks in the reorder buffer that come next in index order, hashed. -/
def DigestRun.absorbN (d : DigestRun) (order : List Nat) : Nat → DigestRun
  | 0 => d
  | fuel + 1 =>
    match order[d.next]? with
    | none => d
    | some k => match d.waiting.find? (fun c => decide (c.1 = k)) with
      | none => d
      | some c =>
        ({ d with next := d.next + 1, message := d.message ++ natLe 4 c.1 ++ c.2,
                  waiting := d.waiting.filter (fun x => decide (x.1 ≠ k)) }).absorbN order fuel

/-- The log entry of a layer digest (R328 Table 5). -/
def State.digestEntry (s : State) (q : Request) (d : DigestRun) (digest : List Byte) (phase : Bool) : List Byte :=
  let vary := match s.slotOf q.gen with
    | some e => e.2.reach.contains d.layer
    | none => false
  natLe 2 d.layer ++ natLe 1 d.form ++ natLe 1 (vary.toNat + 128 * phase.toNat) ++ natLe 2 q.ring ++ natLe 2 q.tag ++
  natLe 4 q.errStream ++ natLe 4 0 ++ natLe 8 (if q.stream.isSome then q.frame else 0) ++ natLe 8 s.now ++ padTo 32 digest

/-- Bytes that wait in the reorder buffer of a causeway (R251). -/
def State.reorderHeld (s : State) (c : Nat) : Nat :=
  sumNat ((s.audit.digests.filter (fun d => decide (d.engine / 64 = c))).flatMap (fun d => d.waiting.map (fun x => x.2.length)))

/-- Whether a chunk of a digest finds its causeway's reorder buffer of 8 MiB full: one that comes next needs no room there (R251). -/
def State.reorderFull (s : State) (d : DigestRun) (c : Nat × List Byte) : Bool :=
  decide ((s.prog.digestIndexes d.layer)[d.next]? ≠ some c.1) && decide (2 ^ 23 < s.reorderHeld (d.engine / 64) + c.2.length)

/-- DIGEST_CHUNK (R130, R251, R327): the engine takes one chunk; with the last the digest is complete and logged (R328). A chunk that the
reorder buffer has no room for stays with its COMPRESS, which waits (DIG_WAITS). -/
def execDigestChunk (req layer index : Nat) (s : State) : Host.Outcome State Fault Refusal :=
  answer s (
    match s.audit.digests.find? (fun d => decide (d.req = req) && decide (d.layer = layer)), s.req? req with
    | some d, some q => match d.chunks.find? (fun c => decide (c.1 = index)) with
      | none => s
      | some c =>
        if s.reorderFull d c then s.tally (Off.cway (d.engine / 64) 0x28) 1
        else
        let d1 := { d with chunks := d.chunks.erase c, waiting := d.waiting ++ [c] }
        let d2 := d1.absorbN (s.prog.digestIndexes layer) d1.waiting.length
        let rest := s.audit.digests.filter (fun x => decide (x ≠ d))
        if d2.next = d2.total then
          let dig := shake256 d2.message
          let s := { s with audit := { s.audit with digests := rest } }
          (s.updReq req (fun r => { r with layers := r.layers ++ [(layer, dig)] })).logDigest (worldNum q.secure)
            (fun ph => s.digestEntry q d2 dig ph)
        else { s with audit := { s.audit with digests := rest ++ [d2] } }
    | _, _ => s)

/-! ### Segments out (R125, R128) -/

/-- The blocks of a line's kept positions: how many, and how many of them dense. -/
def blockCounts (b : Nat) (keepAll : Bool) (ps : List OutPos) : Nat × Nat :=
  let l := (ps.filter (fun p => keepAll || p.codes.any (·.2))).flatMap (posBlocks b)
  (l.length, (l.filter (fun x => (x.headD 0).getLsbD 7)).length)

/-- What a step that writes a segment knows of its DST. -/
structure SegOut where
  e : Nat
  pat : List Nat
  delta : Bool
  rows : Nat
deriving DecidableEq, Repr

/-- Code width, rest code, and whether every position is kept (R119). -/
def SegOut.b (o : SegOut) : Nat := wBits (Rg.bits o.e)
def SegOut.rest (o : SegOut) : Option Nat := restOf o.pat (Rg.table o.e) o.b
def SegOut.keepAll (o : SegOut) : Bool := o.rest.isNone && !o.delta
/-- Level of a code in the DST's table. -/
def SegOut.level (o : SegOut) (c : Nat) : Int := Pt.level o.pat (Rg.table o.e) c

/-- The destination of a step of tile `n`: rows, form and table. The table is the step's own tile's, of a DST on another tile too (R128 names
none; DESIGN CHOICE, log entry 68). -/
def State.segOut (s : State) (n w : Nat) : SegOut :=
  { e := s.entryOf (Step.dst w), pat := (s.tile n).pat, delta := Step.delta w || (Step.isPixel w && Th.pdelta w), rows := Step.count0 w }

/-- A segment from its lines of positions, cut to its region (log entry 27). -/
def SegOut.bytes (o : SegOut) (lines : List (List OutPos)) : List Byte :=
  (segmentBytes (Rg.first o.e) (Rg.width o.e) (Rg.channels o.e) (Rg.bits o.e) o.delta o.rest
    (lines.map (lineBytes o.b o.keepAll))).take (Rg.bytes o.e)

/-- A segment the compressor emits counted: blocks, dense blocks, lines, bytes (R147). The toe-heel unit's segments are none of the
compressor's. -/
def State.countSegment (s : State) (n w : Nat) (o : SegOut) (lines : List (List OutPos)) : State :=
  if Step.opcode w ≠ Op.compress then s
  else
    let k := lines.map (blockCounts o.b o.keepAll)
    (((s.tally (Off.tile n 0x500) (sumNat (k.map (·.1)))).tally (Off.tile n 0x504) (sumNat (k.map (·.2)))).tally
      (Off.tile n 0x508) lines.length).tally (Off.tile n 0x50C) (o.bytes lines).length

/-- A segment written to DST by a step of tile `n`: tallies, digest chunks, bytes (R128, R130). -/
def State.writeSegment (s : State) (n i : Nat) (q : Request) (w : Nat) (o : SegOut) (lines : List (List OutPos)) : State :=
  let s := s.countSegment n w o lines
  let s := if Step.digest w then
      s.giveChunks (n / 256) i (Step.layer w) o.delta.toNat (Rg.bits o.e) (Rg.width o.e) (Rg.channels o.e)
        (lines.zipIdx.map (fun l => (Rg.first o.e + l.2, lineBytes o.b o.keepAll l.1)))
    else s
  s.stepWrite n i (Step.layer w) q.secure (Step.dst w) 0 (o.bytes lines)

/-- A plain segment's lines from codes in canonical order: what differs from the rest code is reported. -/
def SegOut.plainLines (o : SegOut) (codes : List Nat) : List (List OutPos) :=
  let c := Rg.channels o.e
  let wd := Rg.width o.e
  (List.range o.rows).map (fun y => (List.range wd).map (fun x =>
    ({ col := x, codes := ((codes.drop ((y * wd + x) * c)).take c).map (fun v => (v, decide (o.rest ≠ some v))) } : OutPos)))

/-- A plain COMPRESS, whole. Check 11 is a code wider than BITS. -/
def State.compressPlain (s : State) (n : Nat) (r : RStep) (q : Request) : State :=
  let w := r.w
  let o := s.segOut n w
  let k := o.rows * Rg.width o.e * Rg.channels o.e
  match s.stepReadBad q.secure (Step.src w) 0 k with
  | some v => s.failStep n r.req (Step.layer r.w) q.secure v
  | none =>
    let codes := (s.viewBytes (Step.src w) 0 k).map (·.toNat)
    if codes.any (fun c => decide (2 ^ o.b ≤ c)) then s.eyeBad n r.req (Step.layer r.w) ⟨0, 11⟩
    else
      let t := s.writeSegment n r.req q w o (o.plainLines codes)
      if t.live r.req then t.setStep n r { r with next := k, finished := true } else t

/-! ### The code state (R152): a segment with every position present and every block dense -/

/-- Where a LAYER's code state stands and its shape. -/
structure CodeMap where
  a : Nat
  rows : Nat
  width : Nat
  channels : Nat
  b : Nat
deriving DecidableEq, Repr

def CodeMap.blocks (m : CodeMap) : Nat := (m.channels + 31) / 32
def CodeMap.posLen (m : CodeMap) : Nat := 2 + m.blocks * (1 + 4 * m.b)
def CodeMap.lineLen (m : CodeMap) : Nat := roundUp 4 (4 + m.width * m.posLen)
def CodeMap.lineAt (m : CodeMap) (row : Nat) : Nat := m.a + 16 + 4 * m.rows + row * m.lineLen
def CodeMap.posAt (m : CodeMap) (row col : Nat) : Nat := m.lineAt row + 4 + col * m.posLen

/-- The code state of a LAYER of a stream, shaped by the DST of the step that keeps it. -/
def State.codeMap (s : State) (st layer : Nat) : Option CodeMap :=
  match s.codesAt st layer, s.prog.coder layer with
  | some a, some w => let e := s.prog.entry (Step.dst w)
    some { a := a, rows := s.prog.codeRows layer, width := Rg.width e, channels := Rg.channels e, b := wBits (Rg.bits e) }
  | _, _ => none

/-- The codes held at a position. -/
def State.heldCodes (s : State) (m : CodeMap) (row col : Nat) : List Nat :=
  (List.range m.channels).map (fun c =>
    let v := s.memNat (m.posAt row col + 2 + c / 32 * (1 + 4 * m.b) + 1) (4 * m.b)
    bitsAt v (c % 32 * m.b) m.b)

/-- The codes of a position written in place: SKIP 0 and dense blocks. -/
def State.holdCodes (s : State) (m : CodeMap) (row col : Nat) (codes : List Nat) : State :=
  let bl := (List.range m.blocks).flatMap (fun k =>
    BitVec.ofNat 8 0xA0 :: natLe (4 * m.b) (packBits m.b ((codes.drop (32 * k)).take 32)))
  (s.setMemBytes (m.lineAt row) (natLe 2 m.width ++ [0, 0])).setMemBytes (m.posAt row col) ([0, 0] ++ bl)

/-- Header and directory of a code state. -/
def State.holdHead (s : State) (m : CodeMap) (wcode : Nat) (rest : Option Nat) : State :=
  s.setMemBytes m.a (natLe 2 0 ++ natLe 2 m.rows ++ natLe 2 m.width ++ natLe 2 m.channels ++
    natLe 1 (wcode + 8 * rest.isSome.toNat) ++ natLe 1 (rest.getD 0) ++ [0, 0] ++
    natLe 4 (16 + 4 * m.rows + m.rows * m.lineLen) ++
    (List.range m.rows).flatMap (fun r => natLe 4 (16 + 4 * m.rows + r * m.lineLen)))

/-! ### What a delta layer reports (R158, R159) -/

/-- One reported channel: position, channel, its new code and the code held before. -/
structure Report where
  pos : Nat
  chan : Nat
  new : Nat
  old : Nat
deriving DecidableEq, Repr

/-- A report packed in 64 bits, and read back: a running step keeps its reports in `RStep.aux`. -/
def Report.pack (r : Report) : Nat := r.pos % 2 ^ 32 + 2 ^ 32 * (r.chan % 2 ^ 16) + 2 ^ 48 * (r.new % 256) + 2 ^ 56 * (r.old % 256)
def Report.unpack (v : Nat) : Report := ⟨bitsAt v 0 32, bitsAt v 32 16, bitsAt v 48 8, bitsAt v 56 8⟩
def unpackAll (n aux : Nat) : List Report := (List.range n).map (fun k => Report.unpack (bitsAt aux (64 * k) 64))

/-- New codes of some channels of a position judged against the code state (R158): the state after it, the reports, and how
many changed channels were held. -/
def judgeCodes (o : SegOut) (key : Bool) (theta pos first : Nat) (held new : List Nat) : List Nat × List Report × Nat :=
  let at_ := fun (c : Nat) => if first ≤ c then new[c - first]? else none
  let rep := fun (c old : Nat) => match at_ c with
    | none => false
    | some v => if key then decide (o.level v ≠ 0) else decide ((theta : Int) < (o.level v - o.level old).natAbs)
  let l := held.zipIdx
  (l.map (fun x => match at_ x.2 with
      | some v => if key || rep x.2 x.1 then v else x.1
      | none => x.1),
   (l.filter (fun x => rep x.2 x.1)).map (fun x => ⟨pos, x.2, (at_ x.2).getD 0, x.1⟩),
   (l.filter (fun x => !key && !rep x.2 x.1 && (match at_ x.2 with
      | some v => decide (v ≠ x.1)
      | none => false))).length)

/-- The new codes of a position taken into the code state and counted; the reports. -/
def State.reportCodes (s : State) (n st : Nat) (o : SegOut) (m : CodeMap) (key : Bool) (theta pos first : Nat) (new : List Nat) :
    State × List Report :=
  let row := pos / max 1 m.width
  let col := pos % max 1 m.width
  let (codes, reps, held) := judgeCodes o key theta pos first (s.heldCodes m row col) new
  let s := s.holdCodes m row col codes
  (((s.tally (Off.tile n 0x630) reps.length).tally (Off.tile n 0x634) held).tallyCtx st Cx.chHeld held, reps)

/-- The lines of a delta-form segment from its reports: the codes now held, or, for the twin, those held before (R159). -/
def State.deltaLines (s : State) (o : SegOut) (m : CodeMap) (twin : Bool) (reps : List Report) : List (List OutPos) :=
  (List.range o.rows).map (fun y =>
    let row := Rg.first o.e + y
    ((List.range m.width).filter (fun x => reps.any (fun r => decide (r.pos = row * m.width + x)))).map (fun x =>
      let here := reps.filter (fun r => decide (r.pos = row * m.width + x))
      ({ col := x, codes := (s.heldCodes m row x).zipIdx.map (fun c =>
          match here.find? (fun r => decide (r.chan = c.2)) with
          | some r => (if twin then r.old else c.1, true)
          | none => (c.1, false)) } : OutPos)))

/-- The delta-form segment of a step written, and on a delta frame its twin to the next region (R159). -/
def State.writeDelta (s : State) (n i : Nat) (q : Request) (w : Nat) (o : SegOut) (m : CodeMap) (reps : List Report) : State :=
  let t := s.writeSegment n i q w o (s.deltaLines o m false reps)
  if q.key || !t.live i then t
  else
    let twin := s.deltaLines o m true reps
    (t.countSegment n w o twin).stepWrite n i (Step.layer w) q.secure (Step.dst w + 1) 0 (o.bytes twin)

/-- A DELTA COMPRESS as far as its code records allow; at the end record it writes its segment (R168). -/
def State.compressRecords (s : State) (n : Nat) (r : RStep) (q : Request) (st : Nat) (m : CodeMap) : Nat → State
  | 0 => s
  | fuel + 1 =>
    let w := r.w
    let o := s.segOut n w
    match s.circFront (Step.src w) r.req with
    | none => s
    | some x => match s.circBad q.secure (Step.src w) x with
    | some v => s.failStep n r.req (Step.layer r.w) q.secure v
    | none =>
      let bs := s.circBytes (Step.src w) x
      let s := s.circTake (Step.src w) x
      let key := fieldAt bs 0 8
      if Grp.group key = Grp.endGroup then
        let t := s.writeDelta n r.req q w o m (unpackAll r.next r.aux)
        if t.live r.req then t.setStep n r { r with finished := true } else t
      else
        let new := (((bs.drop 8).take 64).map (·.toNat)).take (m.channels - 64 * Grp.group key)
        if new.any (fun c => decide (2 ^ o.b ≤ c)) then s.eyeBad n r.req (Step.layer r.w) ⟨0, 11⟩
        else
          let (t, reps) := s.reportCodes n st o m q.key (s.thetaOf st (Step.layer w)) (Grp.position key) (64 * Grp.group key) new
          let r2 := { r with next := r.next + reps.length
                             aux := (reps.zipIdx.foldl (fun a p => a + p.1.pack * 2 ^ (64 * (r.next + p.2))) r.aux) }
          (t.setStep n r r2).compressRecords n r2 q st m fuel

/-- One advance of a running COMPRESS. A DELTA step needs its stream's code state (R286 binds no RUN of a delta pass without a
stream). -/
def State.advanceCompress (s : State) (n : Nat) (r : RStep) (q : Request) : State :=
  if Step.delta r.w then
    match q.stream with
    | none => s
    | some st => match s.codeMap st (Step.layer r.w) with
      | none => s
      | some m =>
        let o := s.segOut n r.w
        let s := if q.key then s.holdHead m (Rg.bits o.e) o.rest else s
        s.compressRecords n r q st m 65536
  else s.compressPlain n r q

/-- COMPRESS (R123 to R130, R158, R159, R168). -/
def execCompress (tile waits : Nat) (s : State) : Host.Outcome State Fault Refusal :=
  answer s (s.engine tile Op.compress waits (fun s r q => s.advanceCompress tile r q))

/-! ### CHUNK_DEAL (R144 to R146, R251) -/

/-- The member of a LAYER's balance group with the fewest chunks queued, on a tie the first in the order of the program's tiles (R145 names none;
DESIGN CHOICE, log entry 68); none where every member holds four. -/
def State.freeMember (s : State) (layer : Nat) : Option Nat :=
  let l := (s.members layer).map (·.1)
  let k := fun (n : Nat) => (s.tile n).chunks.length
  let least := (l.map k).foldl min 4
  if least < 4 then l.find? (fun n => decide (k n = least)) else none

/-- Whether a member's step of a LAYER runs for a request: its segment then stands in its region (DEDUCED, log entry 25). -/
def State.dealing (s : State) (i layer : Nat) : Bool :=
  (s.members layer).any (fun m => (s.tile m.1).running.any (fun r => decide (r.req = i) && decide (r.w = m.2)))

/-- The next chunk to deal: request, LAYER and the member that takes it. -/
def State.nextDeal (s : State) : Option (Nat × Nat × Nat) :=
  s.reqs.findSome? (fun e =>
    if e.2.phase ≠ .running then none
    else s.prog.layers.findSome? (fun l =>
      if s.dealing e.1 l && decide (layerGet e.2.dealt l < s.chunkCount l) then (s.freeMember l).map (fun n => (e.1, l, n)) else none))

/-- CHUNK_DEAL (R145): a mover of a causeway deals the next chunk to the member with the fewest queued. -/
def execChunkDeal (causeway : Nat) (s : State) : Host.Outcome State Fault Refusal :=
  answer s (match s.nextDeal with
    | none => s
    | some (i, l, n) => match s.balanceSrc l with
      | none => s
      | some h => match s.segmentOf (s.tile (hTile h)).pat h with
        | .error b => s.eyeBad n i l b
        | .ok g => match s.segmentBad (((s.req? i).map (·.secure)).getD false) h with
          | some v => s.failStep n i l (((s.req? i).map (·.secure)).getD false) v
          | none =>
          let k := match s.req? i with
            | some q => layerGet q.dealt l
            | none => 0
          match g.chunks[k]? with
          | none => s
          | some (first, blocks, values) =>
            let c : Chunk := { req := i, layer := l, num := k, firstBlock := first, blocks := blocks, values := values }
            (((s.updTile n (fun t => { t with chunks := t.chunks ++ [c] })).tally (Off.cway causeway 0x20) 1).tally
              (Off.tile n 0x528) 1).tally (Off.tile n 0x534) 1 |>.updReq i (fun q => { q with dealt := layerPut q.dealt l (k + 1) }))

end Sys2Proof.Machine
end

