-- ==== Sys2Proof/Machine/Delta.lean ====
section
/-! DEFINITION. The scatter accumulator, the verge and SCATTER_MERGE (R161 to R168, R177). -/

namespace Sys2Proof.Machine

/-! ### The accumulator (R163, R164) -/

/-- The set of a position and a group (R163). -/
def scatSet (p g : Nat) : Nat := (p ^^^ (p / 2 ^ 8) ^^^ (p / 2 ^ 16) ^^^ (g * 2 ^ 5)) % 256

/-- A verge record's 272 bytes (R165 Table 3). -/
def VergeRec.bytes (v : VergeRec) : List Byte :=
  natLe 4 v.position ++ natLe 2 v.group ++ natLe 2 v.layer ++ natLe 4 v.req ++ natLe 1 v.tag ++ List.replicate 3 0 ++
  (List.range 64).flatMap (fun k => natLe 4 (twos 32 (v.sums.getD k 0)))

/-- The address of a place in a tile's share of the verge (R165). -/
def State.vergeAt (s : State) (n place : Nat) : Nat := s.areaBase 3 + n * (s.areaSize 3 / 1024) + 272 * place

/-- The first place of a share that no pending record takes. -/
def freePlace (l : List VergeRec) : Nat := ((List.range (l.length + 1)).find? (fun k => !l.any (fun v => decide (v.place = k)))).getD 0

/-- An entry written to the verge as a record (R165): to the first free place of the tile's share. -/
def State.spillEntry (s : State) (n : Nat) (own : Nat × Nat) (e : ScatEntry) : State :=
  let v : VergeRec := { position := e.position, group := e.group, layer := own.2, req := own.1, tag := e.tag, sums := e.sums
                        place := freePlace (s.tile n).verge }
  (s.updTile n (fun t => { t with verge := t.verge ++ [v] })).setMemBytes (s.vergeAt n v.place) v.bytes

/-- Entries leave the accumulator as verge records (R165); `off` is the tally of the reason. -/
def State.evict (s : State) (n : Nat) (own : Nat × Nat) (off : Nat) (l : List ScatEntry) : State :=
  let s := l.foldl (fun s e => s.spillEntry n own e) (s.updTile n (fun t => { t with scat := t.scat.filter (fun e => !l.contains e) }))
  (((s.tally (Off.tile n off) l.length).untally (Off.tile n 0x614) l.length).tally (Off.tile n 0x61C) l.length).tally
    (Off.tile n 0x628) l.length

/-- The least recently used entry of a list. -/
def leastUsed : List ScatEntry → Option ScatEntry
  | [] => none
  | e :: r => match leastUsed r with
    | none => some e
    | some f => if e.used ≤ f.used then some e else some f

/-- Room made in a full set: its least recently used way evicted. -/
def State.roomInSet (s : State) (n : Nat) (own : Nat × Nat) (set : Nat) : State :=
  let l := (s.tile n).scat.filter (fun e => decide (e.set = set))
  if l.length < 8 then s
  else match leastUsed l with
    | some e => s.evict n own 0x604 [e]
    | none => s

/-- A contribution added (R163): to its way, or to a new one; at the spill interval the entry is evicted. -/
def State.addContribution (s : State) (c : Contribution) : State :=
  let n := c.dst
  let own := (c.req, c.layer)
  let set := scatSet c.position c.group
  let match_ := fun (e : ScatEntry) => decide (e.position = c.position) && decide (e.group = c.group)
  match (s.tile n).scat.find? match_ with
  | some e =>
    if e.tag ≠ c.tag then s.seamFault n c.req c.layer .tag 0 0
    else
      let e2 := { e with count := e.count + 1, used := (s.tile n).scatClock, sums := addSums e.sums c.sums }
      let s := s.updTile n (fun t => { t with
        scat := t.scat.map (fun x => if match_ x then e2 else x), scatClock := t.scatClock + 1, scatOwner := some own })
      if c.limit ≤ e2.count then s.evict n own 0x608 [e2] else s
  | none =>
    let s := s.roomInSet n own set
    let e : ScatEntry := { set := set, position := c.position, group := c.group, tag := c.tag, count := 1,
                           used := (s.tile n).scatClock, sums := c.sums }
    let s := ((s.updTile n (fun t => { t with
      scat := t.scat ++ [e], scatClock := t.scatClock + 1, scatOwner := some own })).tally (Off.tile n 0x600) 1).tally
      (Off.tile n 0x614) 1
    if c.limit ≤ 1 then s.evict n own 0x608 [e] else s

/-- Whether a tile's accumulator takes a contribution: its request has ended, or it serves no other pair (R164). -/
def State.takesContribution (s : State) (c : Contribution) : Bool :=
  !s.liveAs c.req c.ord || (match (s.tile c.dst).scatOwner with
    | none => true
    | some o => decide (o = (c.req, c.layer)))

/-- SCATTER_CONTRIBUTION (R162 to R164): the first contribution bound for the tile that its accumulator takes; it stalled for `stalls`
cycles on a full eviction buffer (R177). -/
def execScatterContribution (tile stalls : Nat) (s : State) : Host.Outcome State Fault Refusal :=
  answer s (match s.mesh.contribs.find? (fun c => decide (c.dst = tile) && s.takesContribution c) with
    | none => s
    | some c =>
      let s1 := { s with mesh := { s.mesh with contribs := s.mesh.contribs.erase c } }
      (if s.liveAs c.req c.ord then s1.addContribution c else s1).tally (Off.tile tile 0x618) stalls)

/-! ### SCATTER_MERGE (R167) -/

/-- Whether step `idx` of tile `n` has completed for a request. -/
def State.stepOver (s : State) (n idx i : Nat) : Bool :=
  let t := s.tile n
  let pc := if t.queue.head? = some i then t.pc else t.pcOf i
  (!t.queue.contains i || decide (idx < pc)) && !t.running.any (fun r => decide (r.req = i) && decide (r.idx = idx))

/-- Whether the contributing steps of a LAYER have completed for a request and everything they sent has arrived. -/
def State.mergeReady (s : State) (n i layer : Nat) : Bool :=
  (s.prog.contributing n layer).all (fun x => s.stepOver x.1 x.2.1 i) &&
  !s.mesh.contribs.any (fun c => decide (c.dst = n) && decide (c.req = i) && decide (c.ord = s.orderOf i) && decide (c.layer = layer))

/-- The entries of the accumulator flushed (R167 step 1); the accumulator is free for the next pair. -/
def State.flushScatter (s : State) (n i layer : Nat) : State :=
  if (s.tile n).scatOwner ≠ some (i, layer) then s
  else (s.evict n (i, layer) 0x60C (s.tile n).scat).updTile n (fun t => { t with scatOwner := none })

/-- The verge records of a request and LAYER on a tile. -/
def Tile.vergeOf (t : Tile) (i layer : Nat) : List VergeRec := t.verge.filter (fun v => decide (v.req = i) && decide (v.layer = layer))

/-- The smallest key among records, by (POSITION, GROUP). -/
def leastKey : List VergeRec → Option (Nat × Nat)
  | [] => none
  | v :: r => match leastKey r with
    | none => some (v.position, v.group)
    | some k => if v.position < k.1 ∨ (v.position = k.1 ∧ v.group ≤ k.2) then some (v.position, v.group) else some k

/-- Groups of 64 channels of a delta LAYER. -/
def Prog.groupsOut (p : Prog) (layer : Nat) : Nat := (p.cout layer + 63) / 64

/-- Positions of a delta LAYER's output (R161). -/
def Prog.positionsOut (p : Prog) (layer : Nat) : Nat :=
  match p.scatterer layer with
  | some w => p.hout layer * Rg.wout (p.entry (Step.src w))
  | none => 0

/-- The groups a LAYER's CIM steps send for a position: those of the macros' outputs, which may pass the last channel (R161). -/
def Prog.groupsSent (p : Prog) (layer : Nat) : Nat :=
  match p.scatterer layer with
  | some w => max (p.groupsOut layer) (Step.m w / Step.taps w / max 1 (p.stepSlices w) * (Step.outputs w / 64))
  | none => p.groupsOut layer

/-- The tiles that merge a LAYER (R162). -/
def Prog.mergeTiles (p : Prog) (layer : Nat) : List Nat :=
  (p.all.filter (fun x => decide (Step.opcode x.2.2 = Op.scatterMerge) && decide (Step.layer x.2.2 = layer))).map (·.1)

/-- Whether some step sends the accumulator of tile `n` contributions of a LAYER at an output position (R161, R162). -/
def Prog.reachesPos (p : Prog) (n layer pos : Nat) : Bool :=
  (p.contributing n layer).any (fun x =>
    let w := x.2.2
    let e := p.entry (Step.src w)
    (List.range (Step.count0 w)).any (fun k =>
      (List.range (Step.taps w)).any (fun t => decide (Rg.outPos e (p.hout layer) (Rg.cell e k) t = some pos))))

/-- Whether an output position of a LAYER is among those tile `n` merges on a keyframe: all of them where it alone merges the LAYER; else
those its contributions reach, and of those no tile's contributions reach the lowest merging tile's (DESIGN CHOICE, log entry 28). -/
def Prog.ownsPos (p : Prog) (n layer pos : Nat) : Bool :=
  let l := sortNat (p.mergeTiles layer)
  decide (l = [n]) || p.reachesPos n layer pos || (decide (l.head? = some n) && !l.any (fun m => p.reachesPos m layer pos))

/-- The key a merge handles next, and where it goes on from: on a delta frame the smallest of its records; on a keyframe every key of the
positions it owns in turn, since a keyframe recomputes every position (R111, R158, R170; DEDUCED, log entry 28), and of the groups past the
last channel those with a record. -/
def State.mergeKey (s : State) (n : Nat) (r : RStep) (q : Request) : Option ((Nat × Nat) × Nat) :=
  let l := Step.layer r.w
  if q.key then
    let g := s.prog.groupsSent l
    ((List.range (s.prog.positionsOut l * g)).drop r.next).findSome? (fun k =>
      if (k % g < s.prog.groupsOut l ∧ s.prog.ownsPos n l (k / g) = true) ∨
          ((s.tile n).vergeOf r.req l).any (fun v => decide (v.position = k / g) && decide (v.group = k % g)) then
        some ((k / g, k % g), k + 1)
      else none)
  else (leastKey ((s.tile n).vergeOf r.req l)).map (fun k => (k, r.next + 1))

/-- The tag the CIM steps of a LAYER produce. -/
def Prog.layerTag (p : Prog) (layer : Nat) : Nat :=
  match p.scatterer layer with
  | some w => Step.tag w
  | none => 0

/-- One key merged (R167 steps 2 to 4): its records added, the pre-activations updated, its group record written. -/
def State.mergeOne (s : State) (n : Nat) (r : RStep) (q : Request) (pre : Nat) (k : Nat × Nat) (next : Nat) : State :=
  let w := r.w
  let layer := Step.layer w
  let tag := s.prog.layerTag layer
  let c := s.prog.cout layer
  let recs := ((s.tile n).vergeOf r.req layer).filter (fun v => decide (v.position = k.1) && decide (v.group = k.2))
  if recs.any (fun v => decide (v.tag ≠ tag)) then s.seamFault n r.req layer .tag 0 0
  else
    let s := (((s.updTile n (fun t => { t with verge := t.verge.filter (fun v => !recs.contains v) })).tally
      (Off.tile n 0x620) recs.length).untally (Off.tile n 0x628) recs.length).tally (Off.cway (n / 256) 0x2C) recs.length
    let width := min 64 (c - 64 * k.2)
    let at_ := pre + 4 * (k.1 * c + 64 * k.2)
    let merged := recs.foldl (fun a v => addSums v.sums a) (List.replicate 64 0)
    let new := (List.range width).map (fun j =>
      (if q.key then 0 else signedOf 32 (s.memNat (at_ + 4 * j) 4)) + merged.getD j 0)
    if new.any (fun x => decide (x < -(2 ^ 31)) || decide (2 ^ 31 - 1 < x)) then
      (s.tally (Off.tile n 0x638) 1).seamEnd n r.req layer .range k.1 k.2
    else
      let s := s.setMemBytes at_ (new.flatMap (fun x => natLe 4 (twos 32 x)))
      let s := s.circPut n r.req (Step.layer r.w) q.secure (Step.dst w) (natLe 8 (Grp.key k.1 k.2 tag) ++
        padTo 256 (new.flatMap (fun x => natLe 4 (twos 32 x))))
      if s.live r.req then (s.tally (Off.tile n 0x62C) 1).setStep n r { r with next := next } else s

/-- A merge as far as the room of its DST allows; the end record ends it. -/
def State.mergeKeys (s : State) (n : Nat) (r : RStep) (q : Request) (pre : Nat) : Nat → State
  | 0 => s
  | fuel + 1 =>
    if s.live r.req = false ∨ s.mayPut n r.req (Step.dst r.w) = false then s
    else match s.mergeKey n r q with
      | some (k, next) => (s.mergeOne n r q pre k next).mergeKeys n { r with next := next } q pre fuel
      | none =>
        let t := s.circPut n r.req (Step.layer r.w) q.secure (Step.dst r.w) (natLe 8 (Grp.key 0 Grp.endGroup 0) ++ List.replicate 256 0)
        if t.live r.req then t.setStep n r { r with finished := true } else t

/-- One advance of a running SCATTER_MERGE. -/
def State.advanceMerge (s : State) (n : Nat) (r : RStep) (q : Request) : State :=
  match q.stream with
  | none => s
  | some st => match s.preactAt st (Step.layer r.w) with
    | none => s
    | some pre => (s.flushScatter n r.req (Step.layer r.w)).mergeKeys n r q pre 65536

/-- SCATTER_MERGE (R167): it issues once every contributing step of its LAYER has completed for the request. -/
def execScatterMerge (tile waits : Nat) (s : State) : Host.Outcome State Fault Refusal :=
  answer s ((s.issuing tile Op.scatterMerge waits (fun s i _ w =>
    if s.mergeReady tile i (Step.layer w) && !s.isTested 3 (256 + tile) then s.issueStep tile i w waits else s)).advance tile Op.scatterMerge
    (fun s r q => s.advanceMerge tile r q))

end Sys2Proof.Machine
end

