-- ==== Sys2Proof/Machine/Run.lean ====
section
/-! DEFINITION. RUN (R4, R26, R154, R175, R188, R281, R285, R286, R290, R329): its start, its input and output copies, its
provenance and its end. -/

namespace Sys2Proof.Machine

/-- HFLAGS of a RUN (R285). -/
def Request.noInput (q : Request) : Bool := (q.fld 0x34 4).testBit 0
def Request.noOutput (q : Request) : Bool := (q.fld 0x34 4).testBit 1

/-- IN_DIGEST (R329): the digest of the digests of the 2 MiB chunks. -/
def inDigest (bs : List Byte) : List Byte := shake256 ((chunksOf (2 ^ 21) bs).map shake256).flatten

/-- The tiles of a request's pass. -/
def State.tilesOf (s : State) (q : Request) : List Nat :=
  match s.slotOf q.gen with
  | some e => e.2.tileUse
  | none => []

/-- Whether an earlier frame of the stream has not started (R154: frames take the tiles in order). -/
def State.frameWaiting (s : State) (q : Request) : Bool :=
  match q.stream with
  | none => false
  | some st => (s.earlier q).any (fun e => decide (e.2.stream = some st) && decide (e.2.phase = .accepted))

/-- The input copied into its region (R286 step 1), up to a refused line (R490); none while a line waits. -/
def State.copyInput (s : State) (i : Nat) (q : Request) : Option State :=
  if q.noInput then
    some (if q.fld 0x20 4 = 0 then s.updReq i (fun r => { r with digestA := inDigest [] }) else s)
  else
    let h := q.fld 0x24 2
    let dst := spBase (hTile h) + Rg.lo (s.entryOf h)
    match s.readRange q.secure false (q.fld 0x18 8) (q.fld 0x20 4) with
    | (_, _, .waits) => none
    | (t, bs, stop) =>
      match t.writeRange q.secure dst bs with
      | (_, _, .waits) => none
      | (u, k, .refused st a) => some ((u.undefinedRest q.secure dst k (bs.drop k)).failAccess i st a)
      | (u, _, .none) => match stop with
        | .refused st a => some (u.failAccess i st a)
        | _ => some (u.updReq i (fun r => { r with digestA := inDigest bs }))

/-- The request enters the queue of every tile of its pass. -/
def State.enterTiles (s : State) (i : Nat) (q : Request) : State :=
  let use := s.tilesOf q
  let s := use.foldl (fun s n => s.updTile n (fun t => { t with queue := t.queue ++ [i] })) s
  s.updReq i (fun r => { r with phase := .running, tilesLeft := use })

/-- A RUN starts: its generation active, its tiles ready, the stream's earlier frames started, its stream moved, its
input copied. -/
def State.startRun (s : State) (i : Nat) (q : Request) : State :=
  if s.genActive ≠ q.gen ∨ s.frameWaiting q = true then s
  else match (s.tilesOf q).find? (fun n => decide (s.tileReady n = 3)) with
    | some n => s.neverReady i 1 n
    | none => match (s.tilesOf q).find? (fun n => decide (s.tileReady n ≠ 1)) with
      | some n => s.notReady i q 1 n
      | none =>
        let moves := match q.stream with
          | some st => if q.moved then some st else none
          | none => none
        if (match moves with
            | some st => s.framesBefore q st
            | none => false) then s
        else
          let s1 := match moves with
            | some st => (s.moveStream st q.gen).updReq i (fun r => { r with moved := false })
            | none => s
          match s1.copyInput i q with
          | none => s
          | some t => if t.live i then t.enterTiles i q else t

/-- The status of a RUN that has met no fault (R188). -/
def Request.okStatus (q : Request) : Status :=
  if !q.corrTiles.isEmpty then .okCorrelation else if 0 < q.skipped then .okPredicted else .ok

/-- Whether everything a RUN waits for before its output has happened: every list ended, its layer digests and its scale
records complete (R110, R286, R328). -/
def State.runDone (s : State) (i : Nat) (q : Request) : Bool :=
  q.tilesLeft.isEmpty && !s.audit.digests.any (fun d => decide (d.req = i)) &&
  (q.stream.isNone || s.prog.layers.all (fun l => decide (s.prog.requantCount l = 0) || q.scaleDone.contains l))

/-- The output copied and the provenance written (R286 steps 3 and 4); none while a line waits. -/
def State.copyOutput (s : State) (i : Nat) (q : Request) : Option State :=
  if q.noOutput then some s
  else
    let h := q.fld 0x26 2
    let n := q.fld 0x30 4
    match s.readRange q.secure false (spBase (hTile h) + Rg.lo (s.entryOf h)) n with
    | (_, _, .waits) => none
    | (t, _, .refused st a) => some (t.failAccess i st a)
    | (t, bs, .none) =>
      match t.writeRange q.secure (q.fld 0x28 8) bs with
      | (_, _, .waits) => none
      | (u, k, .refused st a) => some ((u.undefinedRest q.secure (q.fld 0x28 8) k (bs.drop k)).failAccess i st a)
      | (u, _, .none) =>
        some (if n = 0 then u else u.updReq i (fun r => { r with digestB := shake256 bs }))

/-- The provenance digest written to PROV (R286 step 4, R329); a RUN that ends by a fault has written nothing there. -/
def State.writeProv (s : State) (i : Nat) (q : Request) : Option State :=
  if q.fld 0x38 8 = 0 then some s
  else match s.writeRange q.secure (q.fld 0x38 8) (s.provenance q) with
    | (_, _, .waits) => none
    | (u, k, .refused st a) => some (({ s.putBack u (q.fld 0x38 8) k with regWrites := s.regWrites }).failAccess i st a)
    | (u, _, .none) => some (u.updReq i (fun r => { r with digested := true }))

/-- POSITION of a RUN whose lists have all ended (R284): the LAYER of its last step. R321 makes it no matter of the order in which the
steps completed, so it is the highest LAYER (DEDUCED, log entry 69). -/
def Prog.lastLayer (p : Prog) : Nat := p.layers.foldl max 0

/-- A RUN whose lists have ended copies its output, writes its digest and ends with one of the OK codes. -/
def State.endRun (s : State) (i : Nat) (q : Request) : State :=
  if s.runDone i q = false then s
  else match s.copyOutput i q with
    | none => s
    | some t =>
      if t.live i = false then t
      else match t.writeProv i ((t.req? i).getD q) with
        | none => s
        | some u => (u.updReq i (fun r => { r with pos := u.prog.lastLayer })).endReq i q.okStatus

/-- An aborted RUN ends where its steps stand: one that can go no further, because nothing more is issued, has no other boundary
(R294; DESIGN CHOICE, log entry 18). -/
def State.stopRun (s : State) (req : Nat) : State :=
  match s.req? req with
  | some q => if q.opcode = Dop.run ∧ q.phase = .stopping ∧ s.parkState < 2 then s.failReq req .aborted .abort id else s
  | none => s

/-- RUN (R285, R286): it starts once it may, and ends once its lists have; the steps between are rows of their own. -/
def State.runRun (s : State) (req : Nat) : State :=
  (s.working req Dop.run (fun s q =>
    if q.phase = .accepted then s.startRun req q else s.endRun req q)).stopRun req

end Sys2Proof.Machine
end

