-- ==== Sys2Proof/Machine/Elements.lean ====
section
/-! DEFINITION. The element functions (R210 Table 7): each result is free within its error bound. The exact value is
formed in fixed point with 400 fraction bits, far below an FP32 unit in the last place. -/

namespace Sys2Proof.Machine

/-- One in the fixed-point form, and a finite FP32 datum in it. -/
def Fx.one : Int := 2 ^ 400
def Fx.of (neg : Bool) (m : Nat) (e : Int) : Int := (if neg then -1 else 1) * ((m * 2 ^ (e + 400).toNat : Nat) : Int)
def Fx.mul (a b : Int) : Int := a * b / Fx.one
def Fx.div (a b : Int) : Int := a * Fx.one / b

/-- The sum of a series: `next k t` is the term after term `k`. -/
def Fx.series (next : Nat → Int → Int) (t : Int) : Nat → Nat → Int
  | _, 0 => 0
  | k, n + 1 => t + Fx.series next (next k t) (k + 1) n

/-- x² taken `n` times. -/
def Fx.squares (x : Int) : Nat → Int
  | 0 => x
  | n + 1 => Fx.squares (Fx.mul x x) n

/-- e^x for |x| ≤ 128, which leaves no FP32 number out: from the series of e^(x/2^16). -/
def Fx.exp (x : Int) : Int :=
  let y := clampInt (-(128 * Fx.one)) (128 * Fx.one) x / 2 ^ 16
  Fx.squares (Fx.series (fun k t => Fx.mul t y / (k + 1)) Fx.one 0 64) 16

/-- 2·artanh t for |t| ≤ 1/3, and the arctangent of 1/n. -/
def Fx.artanh2 (t : Int) : Int :=
  2 * ((List.range 136).foldl (fun (a : Int × Int) (k : Nat) => (a.1 + a.2 / (2 * (k : Int) + 1), Fx.mul (Fx.mul a.2 t) t)) (0, t)).1
def Fx.arctanInv (n : Int) : Int :=
  ((List.range 100).foldl (fun (a : Int × Int) (k : Nat) => (a.1 + (if k % 2 = 0 then a.2 else -a.2) / (2 * (k : Int) + 1), a.2 / (n * n))) (0, Fx.one / n)).1

/-- log of m·2^e. -/
def Fx.log (m : Nat) (e : Int) : Int :=
  let n := bitLength m - 1
  let f : Int := (m : Int) * Fx.one / 2 ^ n
  (e + n) * Fx.artanh2 (Fx.one / 3) + Fx.artanh2 (Fx.div (f - Fx.one) (f + Fx.one))

/-- The square root of a number that is not negative. -/
def Fx.sqrt (x : Int) : Int := (isqrt (x * Fx.one).toNat : Nat)

/-- 1/(1 + e^(−x)); 0 below −128. -/
def Fx.sigmoid (x : Int) : Int := if x < -(128 * Fx.one) then 0 else Fx.div Fx.one (Fx.one + Fx.exp (-x))

/-- The argument of the tanh form of GELU, doubled: 2·√(2/π)·(x + 0.044715·x³) (PRESUMED, log entry 10: R210 names the form and no
coefficients). -/
def Fx.geluArg (x : Int) : Int :=
  let pi := 16 * Fx.arctanInv 5 - 4 * Fx.arctanInv 239
  2 * Fx.mul (Fx.sqrt (Fx.div (2 * Fx.one) pi)) (x + Fx.mul (44715 * Fx.one / 1000000) (Fx.mul (Fx.mul x x) x))

/-- The exact value of a function of Table 7 at a finite operand, where it has one: 2 rsqrt, 3 exp, 4 log, 5 tanh, 6 sigmoid, 7 GELU,
8 SiLU. -/
def Fx.value (sel : Nat) (neg : Bool) (m : Nat) (e : Int) : Option Int :=
  let x := Fx.of neg m e
  match sel with
  | 2 => if m = 0 ∨ neg = true then none else some (isqrt (2 ^ 1200 / x.toNat) : Nat)
  | 3 => some (Fx.exp x)
  | 4 => if m = 0 ∨ neg = true then none else some (Fx.log m e)
  | 5 => some (2 * Fx.sigmoid (2 * x) - Fx.one)
  | 6 => some (Fx.sigmoid x)
  | 7 => some (Fx.mul x (Fx.sigmoid (Fx.geluArg x)))
  | 8 => some (Fx.mul x (Fx.sigmoid x))
  | _ => none

/-- The error bounds of Table 7, in units in the last place. -/
def ulpBound (sel : Nat) : Nat :=
  match sel with
  | 2 => 1
  | 7 => 4
  | 8 => 3
  | _ => 2

/-- Whether an FP32 pattern is a number within a function's bound of an exact value. -/
def withinUlps (sel : Nat) (exact : Int) (v : Nat) : Bool :=
  match fp32 v with
  | .fin neg m e =>
    let ulp := (Fmt.f32.roundMag exact.natAbs (2 ^ 400)).2
    decide ((Fx.of neg m e - exact).natAbs ≤ ulpBound sel * 2 ^ (ulp + 400).toNat)
  | _ => false

/-- One element function (R210): the square root is correctly rounded; each other result is any FP32 number within its bound, the same
on every unit, and the nearest one where the free value keeps no bound. A division by one operand names no divisor, and at a NaN, at an
infinity and outside a function's domain the spec states no result: there the value is free (log entry 10). -/
def elementOf (sel v : Nat) : Nat :=
  let free := (Config.elementFn sel (BitVec.ofNat 32 v)).toNat
  if sel = 1 then fsqrt v
  else match fp32 v with
    | .fin neg m e => match Fx.value sel neg m e with
      | none => free
      | some x => if withinUlps sel x free then free else ratFp32 x (2 ^ 400)
    | _ => free

end Sys2Proof.Machine
end

