-- ==== Sys2Proof/Machine/Shank.lean ====
section
/-! DEFINITION. The shank units: the twelve functions of a SHANK step (R93, R200, R210 to R213, R215). -/

namespace Sys2Proof.Machine

/-! ### Window geometry (R203 Table 4 DIM2, R211 COUNT2) -/

def Win.kh (v : Nat) : Nat := bitsAt v 0 4
def Win.kw (v : Nat) : Nat := bitsAt v 4 4
def Win.sh (v : Nat) : Nat := bitsAt v 8 2 + 1
def Win.sw (v : Nat) : Nat := bitsAt v 10 2 + 1
def Win.ph (v : Nat) : Nat := bitsAt v 12 3
def Win.pw (v : Nat) : Nat := bitsAt v 15 3
/-- Output columns of an input of some width. -/
def Win.wout (v width : Nat) : Nat := (width + 2 * Win.pw v - Win.kw v) / Win.sw v + 1

/-- The cells of the window of output position `p` over a tensor of a width and height: kernel place and input position;
cells in the padding are none. -/
def Win.cells (v : Nat) (shape : Nat × Nat) (p : Nat) : List (Nat × Option Nat) :=
  let wo := Win.wout v shape.1
  (List.range (Win.kh v)).flatMap (fun ky => (List.range (Win.kw v)).map (fun kx =>
    let y : Int := ((p / wo * Win.sh v + ky : Nat) : Int) - (Win.ph v : Int)
    let x : Int := ((p % wo * Win.sw v + kx : Nat) : Int) - (Win.pw v : Int)
    (ky * Win.kw v + kx,
      if y < 0 ∨ x < 0 ∨ (shape.2 : Int) ≤ y ∨ (shape.1 : Int) ≤ x then none else some (y.toNat * shape.1 + x.toNat))))

/-! ### Elements -/

/-- Elements of one format as a list of patterns. -/
def elemsOf (code : Nat) (bs : List Byte) : List Nat := wordsOf (fmtBytes code) bs

/-- An FP32 pattern of an element. -/
def elemF32 (code v : Nat) : Nat := fp32Bits (elemFp code v)

/-- An integer stored exactly in an integer format; one that does not fit is open (R215 gives the cases that fit). -/
def exactInt (code : Nat) (x : Int) : Nat :=
  let n := 8 * fmtBytes code
  if -((2 : Int) ^ (n - 1)) ≤ x ∧ x ≤ 2 ^ (n - 1) - 1 then twos n x
  else Config.freeConvert code (twos 64 x) % 2 ^ n

/-- Elements as bytes of a format. -/
def elemBytes (code : Nat) (l : List Nat) : List Byte := l.flatMap (natLe (fmtBytes code))

/-- ADD and MUL of one pair: exact and saturated among integers, else a float result rounded once (R200, R211). -/
def addMul (mul : Bool) (inf outf a b : Nat) : Nat :=
  if intCode inf ∧ intCode outf then
    satInt outf (if mul then elemInt inf a * elemInt inf b else elemInt inf a + elemInt inf b)
  else fpElem outf (if mul then (elemFp inf a).mul (elemFp inf b) else (elemFp inf a).add (elemFp inf b))

/-- The largest of some elements of a format, in the output format. -/
def maxElem (inf outf : Nat) (l : List Nat) : Nat :=
  if l.isEmpty ∨ l.any (fun v => decide (elemFp inf v = .nan)) then Config.freeMax outf l % 2 ^ (8 * fmtBytes outf)
  else
    let m := l.foldl (fun a v => if (elemFp inf a).lt (elemFp inf v) then v else a) (l.headD 0)
    if intCode inf ∧ intCode outf then satInt outf (elemInt inf m) else fpElem outf (elemFp inf m)

/-- AFFINE of one element: γ·x + β, fused (R200). -/
def affine (inf outf g b v : Nat) : Nat := fpElem outf (((elemFp inf v).mul (fp32 g)).add (fp32 b))

/-- A format converted into another (R200): integers saturate, floats round. -/
def convertElem (inf outf v : Nat) : Nat :=
  if intCode inf ∧ intCode outf then satInt outf (elemInt inf v) else fpElem outf (elemFp inf v)

/-- NaN and infinite results among elements of a format (R215). -/
def specialElems (code : Nat) (l : List Nat) : Nat :=
  if intCode code then 0 else (l.filter (fun v => (elemFp code v).special)).length

/-! ### What a step covers -/

/-- Channels of a step, at least one; elements of an elementwise step: COUNT0 positions of COUNT1 channels (DEDUCED, log
entry 29). -/
def Shk.chans (w : Nat) : Nat := max 1 (Step.count1 w)
def Shk.elems (w : Nat) : Nat := Step.count0 w * Shk.chans w
/-- The input positions a windowed step may read. -/
def Shk.windowed (w : Nat) : Bool := [1, 4, 5].contains (Shk.func w)
def Shk.shape (w : Nat) : Nat × Nat := Config.windowShape w
/-- Elements read from SRC. -/
def Shk.srcElems (w : Nat) : Nat :=
  if Shk.windowed w then (Shk.shape w).1 * (Shk.shape w).2 * Shk.chans w else Shk.elems w
/-- Bytes read from AUX. -/
def Shk.auxBytes (w : Nat) : Nat :=
  match Shk.func w with
  | 1 => Win.kh (Step.count2 w) * Win.kw (Step.count2 w) * Shk.chans w
  | 2 => Shk.elems w * fmtBytes (Shk.ifmt w)
  | 3 => Shk.elems w * fmtBytes (Shk.ifmt w)
  | 6 => 256
  | 7 => 8 * Shk.chans w
  | 9 => Step.count0 w * Step.count2 w * fmtBytes (Shk.ifmt w)
  | 12 => 4 * Shk.elems w
  | _ => 0
/-- Elements of DST an adding step reads. -/
def Shk.dstBytes (w : Nat) : Nat :=
  if Shk.func w = 0xB ∧ (Shk.param w).testBit 0 = true then 4 * Shk.chans w else 0

/-- The patterns of SRC. -/
def State.shkSrc (s : State) (w : Nat) : List Nat :=
  elemsOf (Shk.ifmt w) (s.viewBytes (Step.src w) 0 (Shk.srcElems w * fmtBytes (Shk.ifmt w)))

/-! ### The functions (R211 Table 8) -/

/-- DWCONV: the sums of each channel's window; weights by (channel, ky, kx) (DEDUCED, log entry 29). -/
def dwConv (w : Nat) (src : List Nat) (aux : List Byte) : List Nat :=
  let c := Shk.chans w
  let kk := Win.kh (Step.count2 w) * Win.kw (Step.count2 w)
  (List.range (Step.count0 w)).flatMap (fun p =>
    let cells := Win.cells (Step.count2 w) (Shk.shape w) p
    (List.range c).map (fun ch => exactInt 7 (sumInt (cells.map (fun x => match x.2 with
      | none => 0
      | some i => elemInt (Shk.ifmt w) (src.getD (i * c + ch) 0) * signedOf 8 (aux.getD (ch * kk + x.1) 0).toNat)))))

/-- MAXPOOL and SUMPOOL: each channel's window; padding takes no part. -/
def pool (w : Nat) (src : List Nat) : List Nat :=
  let c := Shk.chans w
  (List.range (Step.count0 w)).flatMap (fun p =>
    let cells := (Win.cells (Step.count2 w) (Shk.shape w) p).filterMap (·.2)
    (List.range c).map (fun ch =>
      let l := cells.map (fun i => src.getD (i * c + ch) 0)
      if Shk.func w = 4 then maxElem (Shk.ifmt w) (Shk.ofmt w) l
      else exactInt 7 (sumInt (l.map (elemInt (Shk.ifmt w))))))

/-- FSUM: one FP32 sum for each channel over the positions (DEDUCED, log entry 29), from what DST holds under ACCUM, and then under
VARY in an arrival order of its own; without ACCUM in canonical order (R212). -/
def fsumOf (w free : Nat) (src dst : List Nat) : List Nat :=
  let c := Shk.chans w
  (List.range c).map (fun ch =>
    let l := (List.range (Step.count0 w)).map (fun p => elemF32 (Shk.ifmt w) (src.getD (p * c + ch) 0))
    let l := if Step.vary w && (Shk.param w).testBit 0 then freeOrder (free + ch * Step.count0 w) l else l
    l.foldl fadd (dst.getD ch 0))

/-- The result format and patterns of a function that writes DST whole. -/
def State.shkResult (s : State) (w : Nat) : Nat × List Nat :=
  let src := s.shkSrc w
  let aux := s.viewBytes (Step.aux w) 0 (Shk.auxBytes w)
  let inf := Shk.ifmt w
  let outf := Shk.ofmt w
  let c := Shk.chans w
  match Shk.func w with
  | 1 => (7, dwConv w src aux)
  | 2 => (outf, (src.zip (elemsOf inf aux)).map (fun p => addMul false inf outf p.1 p.2))
  | 3 => (outf, (src.zip (elemsOf inf aux)).map (fun p => addMul true inf outf p.1 p.2))
  | 4 => (outf, pool w src)
  | 5 => (7, pool w src)
  | 6 => (0, src.map (fun v => (aux.getD (v % 256) 0).toNat))
  | 7 => (outf, src.zipIdx.map (fun v =>
      affine inf outf (fieldAt aux (8 * (v.2 % c)) 4) (fieldAt aux (8 * (v.2 % c) + 4) 4) v.1))
  | 8 => (outf, src.map (fun v => convertElem 4 outf (elementOf (Shk.param w) (elemF32 inf v))))
  | 0xA => (outf, src.map (convertElem inf outf))
  | _ => (4, fsumOf w s.free src (wordsOf 4 (s.viewBytes (Step.dst w) 0 (Shk.dstBytes w))))

/-! ### OUTER and FSUM into a ledger range (R81, R93) -/

/-- The weight gradient sums G of an OUTER: x channel by δ channel, over COUNT0 positions. -/
def State.outerSums (s : State) (w : Nat) : List Int :=
  let inf := Shk.ifmt w
  let x := s.shkSrc w
  let d := elemsOf inf (s.viewBytes (Step.aux w) 0 (Shk.auxBytes w))
  let c := Shk.chans w
  (List.range c).flatMap (fun i => (List.range (Step.count2 w)).map (fun j =>
    sumInt ((List.range (Step.count0 w)).map (fun p =>
      elemInt inf (x.getD (p * c + i) 0) * elemInt inf (d.getD (p * Step.count2 w + j) 0)))))

/-- The values a step adds to its ledger range. -/
def State.shkValues (s : State) (w : Nat) : List Int :=
  if Shk.func w = 9 then s.outerSums w
  else (fsumOf w s.free (s.shkSrc w) []).map (signedOf 32)

/-- The slots of a ledger range filled in position order, from the first position the request has not consumed (DEDUCED, log
entry 29); `r.aux` keeps that position plus one, `r.next` the slots filled. A range of another tile is reached over the mesh (R77). The tag of the
sums is that of the record's TAG bits, which SHANK leaves zero (R33 gives it no TAG field; DESIGN CHOICE, log entry 68). -/
def State.fillSlots (s : State) (n : Nat) (r : RStep) (vals : List Int) : Nat → State
  | 0 => s
  | fuel + 1 =>
    let w := r.w
    let h := Step.dst w
    let b := max 1 (s.slotSize h)
    if s.live r.req = false then s
    else if vals.length ≤ r.next * b then s.setStep n r { r with finished := true }
    else
      let base := if r.aux = 0 then (s.tile (hTile h)).consumedOf r.req (hIdx h) else r.aux - 1
      match s.prog.position h (base + r.next) with
      | none => s
      | some p =>
        let l := (vals.drop (r.next * b)).take b
        let finals := b * Rg.slices (s.entryOf h)
        let done := if hTile h = n then
            s.addSlot h r.req (Step.layer w) p (Step.tag w) (Step.count0 w) finals (macroPlaces 0 l)
          else
            let d : Drain := { src := n, dst := hTile h, region := hIdx h, layer := Step.layer w, position := p, block := 0, slice := finals - l.length,
                               terms := Step.count0 w, tag := Step.tag w, req := r.req, ord := s.orderOf r.req, final := true
                               values := l }
            s.sendDrain d
        match done with
        | none => s
        | some t =>
          let sp := if Shk.func w = 0xB then (l.filter (fun v => (fp32 (twos 32 v)).special)).length else 0
          let t := t.tally (Off.tile n 0x80C) sp
          let r2 := { r with next := r.next + 1, aux := base + 1 }
          if t.live r.req then (t.setStep n r r2).fillSlots n r2 vals fuel else t

/-! ### FSCATTER (R211, R212) -/

/-- Values added into DST at their indices, in an order that arrival decides (R212); an index outside DST is open and adds
nothing the model can name: it is left out (DEDUCED, log entry 29). -/
def State.fscatter (s : State) (n : Nat) (r : RStep) (q : Request) : State :=
  let w := r.w
  let h := Step.dst w
  let cap := Rg.bytes (s.entryOf h) / 4
  let src := (s.shkSrc w).map (elemF32 (Shk.ifmt w))
  let idx := wordsOf 4 (s.viewBytes (Step.aux w) 0 (Shk.auxBytes w))
  let l := freeOrder s.free ((src.zip idx).filter (fun p => decide (p.2 < cap)))
  let s := { s with free := s.free + src.length }
  l.foldl (fun s p =>
    if s.live r.req then
      match s.stepReadBad q.secure h (4 * p.2) 4 with
      | some v => s.failStep n r.req (Step.layer w) q.secure v
      | none =>
        let v := fadd (leNat (s.spBytes (hTile h) (Rg.lo (s.entryOf h) + 4 * p.2) 4)) p.1
        (s.stepWrite n r.req (Step.layer w) q.secure h (4 * p.2) (natLe 4 v)).tally (Off.tile n 0x80C) (if (fp32 v).special then 1 else 0)
    else s) s

/-! ### SHANK -/

/-- The first refused or bad read of a SHANK step: SRC, AUX, DST. -/
def State.shkRefusal (s : State) (q : Request) (w : Nat) : Option (Verdict × Nat) :=
  ((s.stepReadBad q.secure (Step.src w) 0 (Shk.srcElems w * fmtBytes (Shk.ifmt w))).or
    (if Shk.usesAux w then s.stepReadBad q.secure (Step.aux w) 0 (Shk.auxBytes w) else none)).or
    (if Shk.dstBytes w = 0 then none else s.stepReadBad q.secure (Step.dst w) 0 (Shk.dstBytes w))

/-- One advance of a running SHANK step. -/
def State.advanceShank (s : State) (n : Nat) (r : RStep) (q : Request) : State :=
  let w := r.w
  match s.shkRefusal q w with
  | some v => s.failStep n r.req (Step.layer w) q.secure v
  | none =>
    let led := Rg.kind (s.entryOf (Step.dst w)) = Kind.ledger
    if (Shk.func w = 9 ∨ Shk.func w = 0xB) ∧ led then
      let vals := s.shkValues w
      let t := s.fillSlots n r vals (vals.length + 1)
      if Step.vary w then { t with free := t.free + Shk.elems w } else t
    else
      let t :=
        if Shk.func w = 9 then
          s.stepWrite n r.req (Step.layer w) q.secure (Step.dst w) 0
            ((s.outerSums w).flatMap (fun v => recordOf (BitVec.ofInt 80 v) (Step.tag w) (Step.count0 w)))
        else if Shk.func w = 0xC then s.fscatter n r q
        else
          let (code, l) := s.shkResult w
          let s := if Step.vary w then { s with free := s.free + Shk.elems w } else s
          (s.stepWrite n r.req (Step.layer w) q.secure (Step.dst w) 0 (elemBytes code l)).tally (Off.tile n 0x80C) (specialElems code l)
      if t.live r.req then t.setStep n r { r with next := Step.count0 w, finished := true } else t

/-- SHANK (R211, R212): it issues when the tile's shank unit is free. -/
def execShank (tile waits cycles : Nat) (s : State) : Host.Outcome State Fault Refusal :=
  answer s (((s.issuing tile Op.shank waits (fun s i _ w => if s.shankFree tile then s.issueStep tile i w waits else s)).busyFor
    tile Op.shank 0x804 cycles).advance tile Op.shank (fun s r q => s.advanceShank tile r q))

end Sys2Proof.Machine
end

