-- ==== Sys2Proof/Machine/ToeHeel.lean ====
section
/-! DEFINITION. The toe-heel units (R156, R157, R199 to R210, R214 to R216): queues, kernels over vectors, and pixel
intake. -/

namespace Sys2Proof.Machine

/-! ### The queues (R202, R207) -/

/-- Entries a unit holds, the running one included (R216). -/
def State.thQueued (s : State) (u : Nat) : Nat := s.reg (Off.th u 0x10)

/-- Whether a unit takes entries of a world: ready or busy, of that world, not retired. -/
def State.thTakes (s : State) (secure : Bool) (u : Nat) : Bool :=
  (s.thSecure u == secure) && !s.errs.thRetired.contains u &&
  [1, 2].contains (s.regBits (Off.th u 0) 0 2)

/-- The unit of a list with the fewest queued entries, the lowest number on a tie. -/
def State.leastQueued (s : State) : List Nat → Option Nat
  | [] => none
  | u :: r => match s.leastQueued r with
    | none => some u
    | some v => if s.thQueued u ≤ s.thQueued v then some u else some v

/-- The unit the ANY rule gives (R202). -/
def State.anyUnit (s : State) (secure : Bool) : Option Nat := s.leastQueued ((List.range 16).filter (s.thTakes secure))

/-- The unit that takes a retired unit's entries (R450): of its causeway, then of its tread, then any. -/
def State.substituteTh (s : State) (secure : Bool) (u : Nat) : Option Nat :=
  let l := (List.range 16).filter (s.thTakes secure)
  ((s.leastQueued (l.filter (fun v => decide (v / 4 = u / 4)))).or
    (s.leastQueued (l.filter (fun v => decide (v / 8 = u / 8))))).or (s.leastQueued l)

/-- A request that ends because a unit was retired (R494). -/
def State.failRetired (s : State) (i layer kind index d : Nat) : State :=
  s.failReq i .faultDevice .retiredUnit (fun e => { (e.unit kind index).details d 0 with layer := layer })

/-- The unit a request's frame is bound to (R207). -/
def State.frameUnit (s : State) (i : Nat) : Option Nat := (List.range 16).find? (fun u => (s.thUnit u).frames.contains i)

/-- The unit of a TOEHEEL step: that of its frame for a pixel kernel, else that of its ARG; for a retired one its substitute (R202). -/
def State.unitFor (s : State) (i : Nat) (q : Request) (w : Nat) : Option Nat :=
  let live := fun (u : Nat) => if s.errs.thRetired.contains u then s.substituteTh q.secure u else some u
  if Step.isPixel w then
    match s.frameUnit i with
    | some u => live u
    | none => s.anyUnit q.secure
  else if Th.any w then s.anyUnit q.secure
  else live (Th.unit w)

/-- A frame's binding with its map and its bytes moved from a retired unit to the one that runs its later kernels (R202, R207). -/
def State.rebindFrame (s : State) (u v i : Nat) : State :=
  let x := s.thUnit u
  let y := s.thUnit v
  if u = v then s
  else (s.setTh u (x.freeFrame i)).setTh v { y with
    frames := y.frames ++ x.frames.filter (fun j => decide (j = i))
    changed := y.changed ++ x.changed.filter (fun c => decide (c.1 = i))
    source := y.source ++ x.source.filter (fun c => decide (c.1 = i)) }

/-- A step's entry placed in a unit's queue. -/
def State.placeEntry (s : State) (u n i w : Nat) (idx : Nat) : State :=
  let s := match s.frameUnit i with
    | some v => if Step.isPixel w then s.rebindFrame v u i else s
    | none => s
  let x := s.thUnit u
  let e : ThEntry := { tile := n, idx := idx, req := i, word := BitVec.ofNat 256 w }
  let bind := Step.isPixel w && !x.frames.contains i
  (((s.setTh u { x with queue := x.queue ++ [e], frames := if bind then x.frames ++ [i] else x.frames }).tally
    (Off.th u 4) 1).tally (Off.th u 0x10) 1).tally (Off.tile n 0x814) 1

/-- Whether a step is a first kernel of a frame bound to a retired unit, which ends its frame (R450). -/
def State.frameLost (s : State) (i w : Nat) : Bool :=
  decide (Step.opcode w = Op.toeheel) && decide (Th.kernel w = 1) && (s.frameUnit i).any (s.errs.thRetired.contains ·)

/-- One queued entry of a retired unit: a first kernel of a frame bound to it ends its frame; another entry moves, once the queue it
moves to has room (R202, R450). -/
def State.moveEntry (s : State) (u : Nat) (e : ThEntry) : State :=
  let w := e.word.toNat
  if (s.thUnit u).queue.contains e = false then s
  else if s.frameLost e.req w then s.failRetired e.req (Step.layer w) 2 u 0
  else match s.substituteTh (s.thSecure u) u with
    | none => s
    | some v =>
      if 64 ≤ s.thQueued v then s
      else
        let s := if Step.isPixel w then s.rebindFrame u v e.req else s
        let x := s.thUnit u
        let s := ((s.setTh u { x with queue := x.queue.erase e }).untally (Off.th u 0x10) 1).untally (Off.th u 4) 1
        let y := s.thUnit v
        ((s.setTh v { y with queue := y.queue ++ [e] }).tally (Off.th v 4) 1).tally (Off.th v 0x10) 1

/-- The entries of a retired unit moved in queue order. -/
def State.moveQueue (s : State) (u : Nat) : State := (s.thUnit u).queue.foldl (fun s e => s.moveEntry u e) s

/-- TOEHEEL (R201, R202): the step issues and its entry enters its unit's queue; it waits while that queue is full. `waits` are
the cycles it waited there (SHK_TH_WAITS; log entry 13). -/
def execToeheel (tile waits : Nat) (s : State) : Host.Outcome State Fault Refusal :=
  answer s (s.issuing tile Op.toeheel waits (fun s i q w =>
    if s.frameLost i w then s.failRetired i (Step.layer w) 2 ((s.frameUnit i).getD 0) 0
    else match s.unitFor i q w with
    | none => s
    | some u =>
      if 64 ≤ s.thQueued u then s
      else ((s.issueStep tile i w 0).placeEntry u tile i w (s.tile tile).pc).tally (Off.tile tile 0x810) waits))

/-! ### A kernel's parameter block and its accesses -/

/-- Address of the parameter block of a step: from the start of its generation's image. -/
def State.blockAt (s : State) (q : Request) (w : Nat) : Nat :=
  (match s.slotOf q.gen with
    | some e => e.2.base
    | none => 0) + 4096 * Th.pblk w

/-- Header fields (R203 Table 4). -/
def State.pIfmt (s : State) (a : Nat) : Nat := s.memNat (a + 1) 1
def State.pWfmt (s : State) (a : Nat) : Nat := s.memNat (a + 2) 1
def State.pOfmt (s : State) (a : Nat) : Nat := s.memNat (a + 3) 1
def State.pDim0 (s : State) (a : Nat) : Nat := s.memNat (a + 4) 4
def State.pDim1 (s : State) (a : Nat) : Nat := s.memNat (a + 8) 4
def State.pDim2 (s : State) (a : Nat) : Nat := s.memNat (a + 0xC) 4
def State.pBody (s : State) (a : Nat) : Nat := s.memNat (a + 0x10) 4
def State.pParam (s : State) (a : Nat) : Nat := s.memNat (a + 0x14) 4

/-- A kernel's request ended by a refused or bad access (R490, R494). -/
def State.failTh (s : State) (u i layer : Nat) (secure : Bool) (r : Verdict × Nat) : State :=
  match r.1 with
  | .admitted =>
    let s := match placeOf r.2 with
      | .scratch k off => s.tally (Off.tile k (if (s.tile k).weightClass off then 0x914 else 0x90C)) 1
      | _ => s
    s.failAccessAt i layer .faultUncorrected r.2
  | .bankOff k b => (s.countRefusal (.bankOff k b) secure 2 r.2).failAccessAt i layer .faultBankOff r.2
  | v => (s.countRefusal v secure 2 r.2).failReq i v.status v.status.reason
      (fun e => { e.unit 2 u with address := r.2, layer := layer })

/-- Bytes a kernel writes into DST, with the world of its unit (R407). -/
def State.thWrite (s : State) (u : Nat) (e : ThEntry) (h : Nat) (bs : List Byte) : State :=
  match s.stepRefusal (s.thSecure u) true (hTile h) (Rg.lo (s.entryOf h)) bs.length with
  | some v => s.failTh u e.req (Step.layer e.word.toNat) (s.thSecure u) v
  | none => if bs.isEmpty then s else (s.wakeTile (hTile h)).spWrite (hTile h) (Rg.lo (s.entryOf h)) bs

/-! ### Vector kernels (R203, R210) -/

/-- A sum of products in the accumulator of a block: an integer exact, or FP32 fused in canonical order; then the bias. -/
def dotBias (inf wf : Nat) (bias : List Byte) (l : List (Nat × Nat)) : Int ⊕ Nat :=
  if intCode inf && intCode wf then
    .inl (sumInt (l.map (fun p => elemInt inf p.1 * elemInt wf p.2)) + signedOf (8 * bias.length) (leNat bias))
  else
    .inr (fadd (l.foldl (fun a p => ffma (elemF32 inf p.1) (elemF32 wf p.2) a) 0) (leNat bias))

/-- An accumulator through OFMT: integers saturate, FP32 rounds (DEDUCED, log entry 30). -/
def accOut (outf : Nat) : Int ⊕ Nat → Nat
  | .inl x => if intCode outf then satInt outf x else fpElem outf (.fin (decide (x < 0)) x.natAbs 0)
  | .inr v => fpElem outf (fp32 v)

/-- A block's bias and weights: bytes of bias `o`, and weight `k` of the body. -/
def State.biasOf (s : State) (a o : Nat) : List Byte :=
  let b := accBytes (s.pIfmt a) (s.pWfmt a)
  s.memBytes (a + 32 + b * o) b
def State.weightOf (s : State) (a k : Nat) : Nat :=
  let wb := fmtBytes (s.pWfmt a)
  s.memNat (a + 32 + accBytes (s.pIfmt a) (s.pWfmt a) * s.pDim0 a + wb * k) wb

/-- Elements a kernel reads from SRC. -/
def State.kernelReads (s : State) (a w : Nat) : Nat :=
  let c := Step.count0 w
  let d0 := s.pDim0 a
  let d1 := s.pDim1 a
  match Th.kernel w with
  | 0x10 => c * d1
  | 0x11 => (Config.windowShape w).1 * (Config.windowShape w).2 * d1
  | 0x1A => c * d1
  | 0x1B => c * d1
  | 0x1C => c * d1
  | 0x20 => c * d0 * d1
  | 0x21 => c * d1
  | _ => c * d0

/-- One output vector of DENSE. -/
def State.denseVec (s : State) (a : Nat) (src : List Nat) (v : Nat) : List Nat :=
  let d1 := s.pDim1 a
  (List.range (s.pDim0 a)).map (fun o => accOut (s.pOfmt a) (dotBias (s.pIfmt a) (s.pWfmt a) (s.biasOf a o)
    ((List.range d1).map (fun k => (src.getD (v * d1 + k) 0, s.weightOf a (o * d1 + k))))))

/-- One output vector of CONV: weights by (output, ky, kx, input). -/
def State.convVec (s : State) (a w : Nat) (src : List Nat) (v : Nat) : List Nat :=
  let d1 := s.pDim1 a
  let d2 := s.pDim2 a
  let kk := Win.kh d2 * Win.kw d2
  let cells := Win.cells d2 (Config.windowShape w) v
  (List.range (s.pDim0 a)).map (fun o => accOut (s.pOfmt a) (dotBias (s.pIfmt a) (s.pWfmt a) (s.biasOf a o)
    (cells.flatMap (fun x => match x.2 with
      | none => []
      | some p => (List.range d1).map (fun k => (src.getD (p * d1 + k) 0, s.weightOf a ((o * kk + x.1) * d1 + k)))))))

/-- SOFTMAX of one vector (R203): the maximum subtracted, exp, the sum in canonical order, divide; FP32. -/
def softmax (inf outf : Nat) (l : List Nat) : List Nat :=
  let x := l.map (elemF32 inf)
  let m := maxElem 4 4 x
  let e := x.map (fun v => elementOf 3 (fsub v m))
  let t := e.foldl fadd 0
  e.map (fun v => fpElem outf (fp32 (fdiv v t)))

/-- Elements in falling order of their values; of equal ones the earlier in the list first. -/
def fallingInsert (code : Nat) (x : Nat × Nat) : List (Nat × Nat) → List (Nat × Nat)
  | [] => [x]
  | y :: r => if (elemFp code x.1).lt (elemFp code y.1) then y :: fallingInsert code x r else x :: y :: r
def falling (code : Nat) (l : List (Nat × Nat)) : List (Nat × Nat) := l.foldr (fallingInsert code) []

/-- TOPK of one vector (R203): the DIM0 largest of its elements, ties broken by the lower canonical index, or by arrival order under VARY
(`free` names the order). What stands for a selected element in the output, and the order of a NaN, the spec leaves open
(Config.topkOut, log entry 30). -/
def topkVec (block : List Byte) (inf d0 : Nat) (vary : Bool) (free : Nat) (l : List Nat) : List Nat :=
  let arrived := if vary then freeOrder free l.zipIdx else l.zipIdx
  let open_ := l.any (fun v => decide (elemFp inf v = .nan))
  ((if open_ then arrived else falling inf arrived).take d0).map (fun x =>
    Config.topkOut block x.2 x.1 (if open_ then l else []))

/-- The candidates of an NMS by falling score, ties broken by the lower canonical index (R203); scores and overlap are the block's and
open (Config.nmsScores, Config.nmsOut, log entry 30). -/
def nmsOf (block src : List Byte) : List Byte :=
  Config.nmsOut block src ((falling 4 (Config.nmsScores block src).zipIdx).map (·.2))

/-- GATHER_SUM of one output vector: DIM1 partial vectors of DIM0 values, each sum in an arrival order of its own (R203; log
entry 30). -/
def gatherSum (inf outf d0 d1 free : Nat) (l : List Nat) : List Nat :=
  (List.range d0).map (fun j => fpElem outf (fp32
    ((freeOrder (free + j * d1) ((List.range d1).map (fun k => elemF32 inf (l.getD (k * d0 + j) 0)))).foldl fadd 0)))

/-- Output vector `v` of a kernel whose formula the spec gives. -/
def State.kernelVec (s : State) (a w : Nat) (src : List Nat) (v : Nat) : List Nat :=
  let d0 := s.pDim0 a
  let inf := s.pIfmt a
  let outf := s.pOfmt a
  let here := (src.drop (v * d0)).take d0
  match Th.kernel w with
  | 0x10 => s.denseVec a src v
  | 0x11 => s.convVec a w src v
  | 0x18 => softmax inf outf here
  | 0x19 => here.map (fun x => convertElem 4 outf (elementOf (s.pParam a) (elemF32 inf x)))
  | 0x1C => topkVec (s.memBytes a (32 + s.pBody a)) inf d0 false 0 ((src.drop (v * s.pDim1 a)).take (s.pDim1 a))
  | 0x21 => topkVec (s.memBytes a (32 + s.pBody a)) inf d0 (Step.vary w) (s.free + v * s.pDim1 a) ((src.drop (v * s.pDim1 a)).take (s.pDim1 a))
  | 0x20 => gatherSum inf outf d0 (s.pDim1 a) (s.free + v * d0 * s.pDim1 a) ((src.drop (v * d0 * s.pDim1 a)).take (d0 * s.pDim1 a))
  | _ => here.map (convertElem inf outf)

/-- Kernels whose output the spec gives no formula of (Config.kernelFn): BOX_DECODE, the suppression of NMS, and any kernel without a
block, whose formats and dimensions nothing gives (log entry 30). -/
def Th.free (w : Nat) : Bool := [0x1A, 0x1B].contains (Th.kernel w) || decide (Th.pblk w = 0)

/-- The output of a vector kernel: format, vectors. -/
def State.kernelOut (s : State) (q : Request) (w : Nat) : Nat × List (List Nat) :=
  let a := s.blockAt q w
  if Th.pblk w = 0 then
    let n := Rg.bytes (s.entryOf (Step.src w))
    (0, [elemsOf 0 (Config.kernelFn (Th.kernel w) [] (s.viewBytes (Step.src w) 0 n))])
  else
    let bs := s.viewBytes (Step.src w) 0 (s.kernelReads a w * fmtBytes (s.pIfmt a))
    let b := fmtBytes (s.pOfmt a)
    if Th.free w then
      let block := s.memBytes a (32 + s.pBody a)
      let out := if Th.kernel w = 0x1B then nmsOf block bs else Config.kernelFn (Th.kernel w) block bs
      (s.pOfmt a, (List.range (Step.count0 w)).map (fun v =>
        (List.range (s.pDim0 a)).map (fun k => fieldAt out (b * (v * s.pDim0 a + k)) b)))
    else
      let src := elemsOf (s.pIfmt a) bs
      (s.pOfmt a, (List.range (Step.count0 w)).map (s.kernelVec a w src))

/-- A vector kernel run: its output written, its special results counted, its vectors handed to the digest engine. -/
def State.runVectors (s : State) (u : Nat) (e : ThEntry) (q : Request) (w : Nat) : State :=
  let a := s.blockAt q w
  let n := if Th.pblk w = 0 then Rg.bytes (s.entryOf (Step.src w)) else s.kernelReads a w * fmtBytes (s.pIfmt a)
  match s.stepReadBad (s.thSecure u) (Step.src w) 0 n with
  | some v => s.failTh u e.req (Step.layer w) (s.thSecure u) v
  | none =>
    let (code, vecs) := s.kernelOut q w
    let t := if Step.vary w then ({ s with free := s.free + s.kernelReads a w + 1 }).tally (Off.th u 0x2C) 1 else s
    let bs := (vecs.flatMap (elemBytes code)).take (Rg.bytes (s.entryOf (Step.dst w)))
    let t := (t.tally (Off.th u 0x28) (specialElems code vecs.flatten)).thWrite u e (Step.dst w) bs
    if Step.digest w ∧ t.live e.req = true then
      t.giveChunks (u / 4) e.req (Step.layer w) 2 code (s.pDim0 a) 0 (vecs.zipIdx.map (fun v => (v.2, elemBytes code v.1)))
    else t

/-! ### Pixels (R204, R206) -/

/-- Format, width and height of a frame. -/
structure Pix where
  fmt : Nat
  w : Nat
  h : Nat
deriving DecidableEq, Repr

/-- The frame of a request: its stream's (R149), or without a stream an open shape, which only the determining inputs of R320 give. -/
def State.pixOf (s : State) (q : Request) : Pix :=
  match q.stream with
  | some st => ⟨s.ctx st Cx.pixfmt 1, s.ctx st Cx.width 2, s.ctx st Cx.height 2⟩
  | none =>
    let p := Config.pixelShape (((s.slotOf q.gen).map (·.2.passDigest)).getD []) (q.fld 0x20 4)
    ⟨p.1, p.2.1, p.2.2⟩

def Pix.bytes (x : Pix) : Nat := frameBytes x.fmt x.w x.h
def Pix.wide (x : Pix) : Bool := [2, 4, 6, 8].contains x.fmt
def Pix.channels (x : Pix) : Nat := if 7 ≤ x.fmt then 1 else 3
def Pix.yuv (x : Pix) : Bool := decide (x.fmt ≤ 4)

/-- Offsets of the samples of pixel (y, x), in channel order (R204 Table 5). -/
def Pix.samples (p : Pix) (y x : Nat) : List Nat :=
  let b := if p.wide then 2 else 1
  let row := roundUp 64 (b * p.w)
  let plane := row * p.h
  let w2 := (p.w + 1) / 2
  let h2 := (p.h + 1) / 2
  match p.fmt with
  | 1 => let r2 := roundUp 64 (2 * w2); let o := plane + y / 2 * r2 + 2 * (x / 2); [y * row + x, o, o + 1]
  | 2 => let r2 := roundUp 64 (4 * w2); let o := plane + y / 2 * r2 + 4 * (x / 2); [y * row + 2 * x, o, o + 2]
  | 3 => let r2 := roundUp 64 w2; let o := plane + y / 2 * r2 + x / 2; [y * row + x, o, o + r2 * h2]
  | 4 => let r2 := roundUp 64 (2 * w2); let o := plane + y / 2 * r2 + 2 * (x / 2); [y * row + 2 * x, o, o + r2 * h2]
  | 5 => [y * row + x, plane + y * row + x, 2 * plane + y * row + x]
  | 6 => [y * row + 2 * x, plane + y * row + 2 * x, 2 * plane + y * row + 2 * x]
  | 7 => [y * row + x]
  | _ => [y * row + 2 * x]

/-- A sample in sample units (R204); of a 10-bit sample in a 16-bit word the low ten bits, or the upper ones. -/
def Pix.sample (p : Pix) (bs : List Byte) (off : Nat) : Nat :=
  match p.fmt with
  | 2 => fieldAt bs off 2 / 64
  | 4 => fieldAt bs off 2 % 1024
  | 6 => fieldAt bs off 2 % 1024
  | 8 => fieldAt bs off 2
  | _ => 4 * fieldAt bs off 1

/-- Whether a pixel has changed against the reference (R157). -/
def Pix.changedAt (p : Pix) (thr : Nat) (ref cur : List Byte) (k : Nat) : Bool :=
  (p.samples (k / p.w) (k % p.w)).any (fun o =>
    decide (thr < ((p.sample ref o : Int) - (p.sample cur o : Int)).natAbs))

/-- The changed pixels of a frame, by number y·W + x. -/
def Pix.changedIn (p : Pix) (thr : Nat) (ref cur : List Byte) : List Nat :=
  (List.range (p.w * p.h)).filter (p.changedAt thr ref cur)

/-- The reference after a delta frame: every sample of each changed pixel written (R157). -/
def Pix.refresh (p : Pix) (changed : List Nat) (ref cur : List Byte) : List Byte :=
  let b := if p.wide then 2 else 1
  changed.foldl (fun ref k => (p.samples (k / p.w) (k % p.w)).foldl (fun ref o =>
    overlay ref o ((cur.drop o).take b)) ref) ref

/-- The channels of a source pixel (R206): matrix and offsets of the block at `a` for YUV. -/
def State.pixChannels (s : State) (p : Pix) (a : Nat) (bs : List Byte) (y x : Nat) : List Nat :=
  let v := (p.samples y x).map (p.sample bs)
  if p.yuv then
    let m := fun (k : Nat) => signedOf 16 (s.memNat (a + 0x30 + 2 * k) 2)
    let o := fun (k : Nat) => signedOf 16 (s.memNat (a + 0x42 + 2 * k) 2)
    let d := fun (k : Nat) => (v.getD k 0 : Int) - o k
    (List.range 3).map (fun k => (clampInt 0 1023 ((m (3 * k) * d 0 + m (3 * k + 1) * d 1 + m (3 * k + 2) * d 2 + 512) / 1024)).toNat)
  else v

/-- Resize parameters of a block (R205 Table 6). -/
def State.rw (s : State) (a : Nat) : Nat := s.memNat (a + 0x20) 2
def State.rh (s : State) (a : Nat) : Nat := s.memNat (a + 0x22) 2
def State.resizing (s : State) (a : Nat) : Bool := decide (s.memNat (a + 0x24) 1 = 1)

/-- Where a resized coordinate samples the source (R206): the two source coordinates and the fraction. -/
def resample (n r k : Nat) : Nat × Nat × Nat :=
  let x := (clampInt 0 ((n - 1) * 128 : Nat) (((2 * k + 1) * n * 64 / max 1 r : Nat) - 64 : Int)).toNat
  (x / 128, min (x / 128 + 1) (n - 1), x % 128)

/-- The source coordinates of a resized pixel: rows y0, y1, fraction; columns x0, x1, fraction. Without resize the pixel
itself. -/
def State.sourceOf (s : State) (p : Pix) (a ry rx : Nat) : (Nat × Nat × Nat) × (Nat × Nat × Nat) :=
  if s.resizing a then (resample p.h (s.rh a) ry, resample p.w (s.rw a) rx) else ((ry, ry, 0), (rx, rx, 0))

/-- The channels of a resized pixel (R206). -/
def State.resized (s : State) (p : Pix) (a : Nat) (bs : List Byte) (ry rx : Nat) : List Nat :=
  let ((y0, y1, fy), (x0, x1, fx)) := s.sourceOf p a ry rx
  if s.resizing a then
    let c := s.pixChannels p a bs
    (List.range p.channels).map (fun k =>
      ((c y0 x0).getD k 0 * (128 - fx) * (128 - fy) + (c y0 x1).getD k 0 * fx * (128 - fy) +
       (c y1 x0).getD k 0 * (128 - fx) * fy + (c y1 x1).getD k 0 * fx * fy + 8192) / 16384)
  else s.pixChannels p a bs y0 x0

/-! ### The frame-level pixel work (R207) -/

/-- Whether a pixel kernel of the pass meets a PIXEL fault (R208). -/
def State.pixelBad (s : State) (q : Request) : Bool :=
  let p := s.pixOf q
  decide (p.fmt = 0) || decide (8 < p.fmt) || decide (33554432 < p.w * p.h) ||
  (s.prog.all.filter (fun x => Step.isPixel x.2.2)).any (fun x =>
    let a := s.blockAt q x.2.2
    decide (s.memNat (a + 0x24) 1 = 0) && (decide (s.rw a ≠ p.w) || decide (s.rh a ≠ p.h)))

/-- Units of 256 KiB of a frame's changed map. -/
def Pix.mapUnits (p : Pix) : Nat := (p.w * p.h + 8 * 262144 - 1) / (8 * 262144)

/-- Whether a unit's map area has room for a frame's map. -/
def State.mapRoom (s : State) (u : Nat) (q : Request) : Bool :=
  let used := sumNat ((s.thUnit u).changed.map (fun c => match s.req? c.1 with
    | some r => (s.pixOf r).mapUnits
    | none => 0))
  q.stream.isNone || decide (used + (s.pixOf q).mapUnits ≤ 16)

/-- The compare, the keyframe decision and the update of the reference for a stream frame (R156, R157, R207). -/
def State.compareFrame (s : State) (u i : Nat) (q : Request) (st : Nat) (bs : List Byte) : State :=
  match s.pixelRef st with
  | none => s
  | some r =>
    let p := s.pixOf q
    let cur := padTo p.bytes bs
    let ref := s.memBytes r p.bytes
    let ch := p.changedIn (s.ctx st Cx.pixThresh 2) ref cur
    let kd := s.ctx st Cx.keyDensity 1
    let key := q.key || (decide (kd ≠ 0) && decide (kd * (p.w * p.h) < 256 * ch.length))
    let s := if key && !q.key then s.tallyCtx st Cx.keyframes 1 else s
    let x := s.thUnit u
    ((((s.setTh u { x with changed := x.changed ++ [(i, ch)] }).tally (Off.th u 0x18) (p.w * p.h)).tally
      (Off.th u 0x1C) ch.length).updReq i (fun r => { r with key := key })).setMemBytes r
      (if key then cur else p.refresh ch ref cur)

/-- The frame work of a request on its unit, before its first pixel kernel computes: a PIXEL fault, the read of INPUT, the
compare. None while INPUT waits. -/
def State.frameWork (s : State) (u : Nat) (e : ThEntry) (q : Request) : Option State :=
  if s.pixelBad q then some (s.failReq e.req .faultSeam .pixel (fun r => { r.unit 2 u with layer := Step.layer e.word.toNat }))
  else match s.readRange (s.thSecure u) false (q.fld 0x18 8) (q.fld 0x20 4) with
    | (_, _, .waits) => none
    | (t, _, .refused st a) =>
      some ((if st = .faultUncorrected then t else t.byInitiator 2).failAccessAt e.req (Step.layer e.word.toNat) st a)
    | (t, bs, .none) =>
      let x := t.thUnit u
      let t := (t.setTh u { x with source := x.source ++ [(e.req, bs)] }).updReq e.req (fun r =>
        { r with digestA := inDigest bs, aux := 1 })
      match q.stream with
      | none => some t
      | some st => some (t.compareFrame u e.req q st bs)

/-! ### The pixel kernels (R157, R203, R207, R208) -/

/-- The bytes a frame's INPUT held when its unit read it. -/
def State.frameSource (s : State) (u i : Nat) : List Byte :=
  match (s.thUnit u).source.find? (fun c => decide (c.1 = i)) with
  | some c => c.2
  | none => []

/-- The frame PIX_FIRST computes from: the reference of a stream (R157), else the source frame. -/
def State.firstSource (s : State) (u i : Nat) (q : Request) : List Byte :=
  match q.stream with
  | some st => match s.pixelRef st with
    | some r => s.memBytes r (s.pixOf q).bytes
    | none => s.frameSource u i
  | none => s.frameSource u i

/-- The resized pixels of the window of an output position that lie inside RH × RW: kernel place, row, column. -/
def State.fieldCells (s : State) (a oy ox : Nat) : List (Nat × Nat × Nat) :=
  let d := s.pDim2 a
  (List.range (Win.kh d)).flatMap (fun ky => (List.range (Win.kw d)).filterMap (fun kx =>
    let y : Int := ((oy * Win.sh d + ky : Nat) : Int) - (Win.ph d : Int)
    let x : Int := ((ox * Win.sw d + kx : Nat) : Int) - (Win.pw d : Int)
    if y < 0 ∨ x < 0 ∨ (s.rh a : Int) ≤ y ∨ (s.rw a : Int) ≤ x then none else some (ky * Win.kw d + kx, y.toNat, x.toNat)))

/-- Whether the receptive field of a position holds a changed pixel (R207). -/
def State.fieldChanged (s : State) (p : Pix) (a : Nat) (ch : List Nat) (oy ox : Nat) : Bool :=
  (s.fieldCells a oy ox).any (fun c =>
    let ((y0, y1, _), (x0, x1, _)) := s.sourceOf p a c.2.1 c.2.2
    [y0 * p.w + x0, y0 * p.w + x1, y1 * p.w + x0, y1 * p.w + x1].any (ch.contains ·))

/-- The codes of a first-layer position (R208): sums of channels times weights, BIAS, then R100 with SCALE and TABLE. -/
def State.firstCodes (s : State) (p : Pix) (a : Nat) (bs : List Byte) (oy ox : Nat) : List Nat :=
  let d := s.pDim2 a
  let cin := s.pDim1 a
  let cout := s.pDim0 a
  let kk := Win.kh d * Win.kw d
  let sc := s.memNat (a + 0x28) 8
  let tab := wordsOf 4 (s.memBytes (a + 0x80) 1024)
  let cells := (s.fieldCells a oy ox).map (fun c => (c.1, s.resized p a bs c.2.1 c.2.2))
  (List.range cout).map (fun o =>
    let x := sumInt (cells.map (fun c => sumInt ((List.range cin).map (fun k =>
      (c.2.getD k 0 : Int) * signedOf 8 (s.memNat (a + 0x480 + 4 * cout + (o * kk + c.1) * cin + k) 1)))))
    (requantOne tab 0 sc (Sc.fixed sc) (x + signedOf 32 (s.memNat (a + 0x480 + 4 * o) 4))).1)

/-- A refused write of a segment, before any of it is written. -/
def State.segmentRefused (s : State) (secure : Bool) (h : Nat) (bs : List Byte) : Option (Verdict × Nat) :=
  s.stepRefusal secure true (hTile h) (Rg.lo (s.entryOf h)) bs.length

/-- PIX_FIRST with PDELTA on a stream frame: reports against the code state, the segment and its twin (R158, R159). -/
def State.firstDelta (s : State) (u : Nat) (e : ThEntry) (q : Request) (st : Nat) (w : Nat) (on : List (Nat × Nat))
    (a : Nat) (bs : List Byte) : State :=
  match s.codeMap st (Step.layer w) with
  | none => s
  | some m =>
    let p := s.pixOf q
    let o := s.segOut e.tile w
    let s := if q.key then s.holdHead m (Rg.bits o.e) o.rest else s
    let th := s.thetaOf st (Step.layer w)
    let (t, reps) := on.foldl (fun (acc : State × List Report) c =>
      let (t, r) := acc.1.reportCodes e.tile st o m q.key th (c.1 * m.width + c.2) 0 (s.firstCodes p a bs c.1 c.2)
      (t, acc.2 ++ r)) (s, [])
    match (t.segmentRefused (s.thSecure u) (Step.dst w) (o.bytes (t.deltaLines o m false reps))).or
        (if q.key then none else t.segmentRefused (s.thSecure u) (Step.dst w + 1) (o.bytes (t.deltaLines o m true reps))) with
    | some v => t.failTh u e.req (Step.layer w) (s.thSecure u) v
    | none => t.writeDelta e.tile e.req q w o m reps

/-- PIX_FIRST with plain output, of a step with PDELTA too whose RUN names no stream (R207, R208): every position of its rows; on a delta
frame the positions not computed keep what the unchanged reference gives (R157; DEDUCED, log entry 31). -/
def State.firstPlain (s : State) (u : Nat) (e : ThEntry) (q : Request) (w a : Nat) (bs : List Byte) : State :=
  let o := { s.segOut e.tile w with delta := false }
  let codes := (List.range o.rows).flatMap (fun y => (List.range (Rg.width o.e)).flatMap (fun x =>
    s.firstCodes (s.pixOf q) a bs (Rg.first o.e + y) x))
  let lines := o.plainLines codes
  match s.segmentRefused (s.thSecure u) (Step.dst w) (o.bytes lines) with
  | some v => s.failTh u e.req (Step.layer w) (s.thSecure u) v
  | none => s.writeSegment e.tile e.req q w o lines

/-- PIX_FIRST (R207, R208). -/
def State.runFirst (s : State) (u : Nat) (e : ThEntry) (q : Request) (w : Nat) : State :=
  let a := s.blockAt q w
  let p := s.pixOf q
  let bs := s.firstSource u e.req q
  let d := s.entryOf (Step.dst w)
  let cells := (List.range (Step.count0 w)).flatMap (fun y => (List.range (Rg.width d)).map (fun x => (Rg.first d + y, x)))
  let ch := match (s.thUnit u).changed.find? (fun c => decide (c.1 = e.req)) with
    | some c => c.2
    | none => []
  let on := if q.stream.isNone || q.key then cells else cells.filter (fun c => s.fieldChanged p a ch c.1 c.2)
  let s := (s.tally (Off.th u 0x20) on.length).tally (Off.th u 0x24) (cells.length - on.length)
  match q.stream with
  | some st => if Th.pdelta w then s.firstDelta u e q st w on a bs else s.firstPlain u e q w a bs
  | none => s.firstPlain u e q w a bs

/-- PIX_RESIZE (R203): each channel's upper 8 bits as levels, rows from the first on, read from the source frame (R286). Its output vectors,
of which a DIGEST hashes DIM0 values in OFMT each (R327), are the rows COUNT0 counts (DESIGN CHOICE, log entry 30). -/
def State.runResize (s : State) (u : Nat) (e : ThEntry) (q : Request) (w : Nat) : State :=
  let a := s.blockAt q w
  let p := s.pixOf q
  let bs := s.frameSource u e.req
  let div := if p.fmt = 8 then 256 else 4
  let rows := (List.range (Step.count0 w)).map (fun y => (List.range (s.rw a)).flatMap (fun x =>
    (s.resized p a bs y x).map (fun v => BitVec.ofNat 8 (v / div))))
  let t := s.thWrite u e (Step.dst w) (rows.flatten.take (Rg.bytes (s.entryOf (Step.dst w))))
  if Step.digest w ∧ t.live e.req = true then
    t.giveChunks (u / 4) e.req (Step.layer w) 2 (s.pOfmt a) (s.pDim0 a) 0
      (rows.zipIdx.map (fun r => (r.2, padTo (s.pDim0 a * fmtBytes (s.pOfmt a)) r.1)))
  else t

/-- A kernel run. -/
def State.runKernel (s : State) (u : Nat) (e : ThEntry) (q : Request) (w : Nat) : State :=
  if Th.kernel w = 1 then s.runFirst u e q w
  else if Th.kernel w = 2 then s.runResize u e q w
  else s.runVectors u e q w

/-! ### TOEHEEL_ENTRY_START and TOEHEEL_ENTRY_DONE -/

/-- The parameter block a kernel reads: header and body (R203); none of a step without one. -/
def State.blockRange (s : State) (q : Request) (w : Nat) : List (Nat × Nat) :=
  if Th.pblk w = 0 then [] else [(s.blockAt q w, 32 + s.pBody (s.blockAt q w))]

/-- An entry taken from the queue and its kernel run; a parameter block that cannot be read ends its request (R246). -/
def State.startEntry (s : State) (u : Nat) (e : ThEntry) (rest : List ThEntry) : State :=
  let w := e.word.toNat
  match s.req? e.req with
  | none => s
  | some q =>
    let first := Step.isPixel w && !(s.thUnit u).source.any (fun c => decide (c.1 = e.req))
    if first = true ∧ s.pixelBad q = false ∧ s.mapRoom u q = false then s
    else
      let took := ((s.setTh u { s.thUnit u with queue := rest, running := some e }).setRegBits (Off.th u 0) 0 2 2).wakeHandles (Step.reads w)
      match took.ownReads (s.blockRange q w) with
      | (t, some a) => t.failTh u e.req (Step.layer w) (s.thSecure u) (.admitted, a)
      | (took, none) =>
      if first then
        match took.frameWork u e q with
        | none => s
        | some t => match t.req? e.req with
          | some q2 => if t.live e.req then t.runKernel u e q2 w else t
          | none => t
      else took.runKernel u e q w

/-- TOEHEEL_ENTRY_START (R202, R207): an idle unit takes its next entry and runs the kernel. The entries of a retired unit that its
substitutes had no room for move on (R450). From the start of a park on a unit only finishes what it runs (R315). -/
def execToeheelEntryStart (unit : Nat) (s : State) : Host.Outcome State Fault Refusal :=
  answer s (
    let x := s.thUnit unit
    if s.errs.thRetired.contains unit then (if s.parkState ≥ 2 then s else s.moveQueue unit)
    else match x.running, x.queue with
    | none, e :: rest => if s.parkState ≥ 1 ∨ s.arrayClosed = true ∨ s.errs.underTest.any (fun x => decide (x.1 = 2) && decide (x.2.1 = unit)) = true
      then s else s.startEntry unit e rest
    | _, _ => s)

/-- Whether every pixel kernel of a request has completed or finished. -/
def State.pixelsOver (s : State) (i : Nat) : Bool :=
  (s.prog.all.filter (fun x => Step.isPixel x.2.2)).all (fun x =>
    s.stepOver x.1 x.2.1 i || (s.tile x.1).running.any (fun r => decide (r.req = i) && decide (r.idx = x.2.1) && r.finished))

/-- TOEHEEL_ENTRY_DONE (R202, R207, R216): the entry completes back to its step, or is discarded with its request; `cycles` it ran. -/
def execToeheelEntryDone (unit cycles : Nat) (s : State) : Host.Outcome State Fault Refusal :=
  answer s (
    let x := s.thUnit unit
    match x.running with
    | none => s
    | some e =>
      if s.parkState ≥ 2 then s
      else
        let s := (((s.setTh unit { x with running := none }).setRegBits (Off.th unit 0) 0 2 1).untally (Off.th unit 0x10) 1).tally (Off.th unit 0x14) cycles
        if s.live e.req then
          let s := (s.updTile e.tile (fun t => { t with running := t.running.map (fun r =>
            if r.req = e.req ∧ r.idx = e.idx then { r with finished := true } else r) })).tally (Off.th unit 8) 1
          if Step.isPixel e.word.toNat ∧ s.pixelsOver e.req = true then s.setTh unit ((s.thUnit unit).freeFrame e.req) else s
        else s.tally (Off.th unit 0xC) 1)

end Sys2Proof.Machine
end

