-- ==== Sys2Proof/Machine/Errors.lean ====
section
/-! DEFINITION. The error handler, built-in test, retirement and moves (R437 to R450). -/

namespace Sys2Proof.Machine

/-! ### Retiring toe-heel units and engines (R442, R450) -/

/-- A toe-heel unit retired: no new work; the entry it runs ends its request, whose record the retirement's is. -/
def State.retireTh (s : State) (u : Nat) : State :=
  if s.errs.thRetired.contains u then s
  else
    let w := [worldNum (s.thSecure u)]
    let x := s.thUnit u
    let s := ({ s with errs := { s.errs with thRetired := s.errs.thRetired ++ [u] } }).setReady 2 u 2
    let s := s.setRegBits (Off.th u 0) 0 2 3
    match x.running with
    | none => s.fileError w (((ErrRec.of .thRetired).unit 2 u).details u 0)
    | some e =>
      let s := ((s.setTh u { x with running := none }).untally (Off.th u 0x10) 1).tally (Off.th u 0xC) 1
      match s.req? e.req with
      | some q =>
        if q.phase = .finished then s.fileError w (((ErrRec.of .thRetired).unit 2 u).details u 0)
        else (s.endReq e.req .faultDevice).fileError w (((ErrRec.ofReq .thRetired q .faultDevice).unit 2 u).details u 0)
      | none => s.fileError w (((ErrRec.of .thRetired).unit 2 u).details u 0)

/-- The requests whose digests an engine forms, each once, those that have ended apart. -/
def State.engineReqs (s : State) (x : Nat) : List (Nat × Request) :=
  s.reqs.filter (fun e => decide (e.2.phase ≠ .finished) && s.audit.digests.any (fun d => decide (d.engine = x) && decide (d.req = e.1)))

/-- The requests that use an engine, each once, those that have ended apart: a digest engine's by their digests, a lane's by the SCATTER_MERGE
that runs on its tile. A mover retires only while no request uses it (R442). -/
def State.engineUsers (s : State) (x : Nat) : List (Nat × Request) :=
  if x < 256 then s.engineReqs x
  else
    let l := (s.tile (x - 256)).running.filter (fun r => decide (Step.opcode r.w = Op.scatterMerge) && !r.finished)
    if x < 1280 then s.reqs.filter (fun e => decide (e.2.phase ≠ .finished) && l.any (fun r => decide (r.req = e.1))) else []

/-- A causeway engine retired (R450): the request that uses it ends, and the retirement's record is that request's; any further
one files a record of its own (R494). -/
def State.retireEngine (s : State) (x : Nat) : State :=
  let c := Eng.causeway x
  let e := Eng.number x
  if s.errs.retiredEngines.contains (c, e) then s
  else
    let w := s.engineWorlds x
    let t := { s with errs := { s.errs with retiredEngines := s.errs.retiredEngines ++ [(c, e)] } }
    match s.engineUsers x with
    | [] => t.fileError w (((ErrRec.of .engineRetired).unit 3 c).details c e)
    | (i, q) :: more =>
      more.foldl (fun s r => s.failReq r.1 .faultDevice .retiredUnit (fun z => (z.unit 3 c).details e 0))
        ((t.endReq i .faultDevice).fileError w (((ErrRec.ofReq .engineRetired q .faultDevice).unit 3 c).details c e))

/-- UNIT_READY (R398): a unit's code changes; a toe-heel unit that fails retires, which its error record reports (R436, R450); the Milestone
block heeds the alert pin as it becomes ready (R468). -/
def execUnitReady (kind index code : Nat) (s : State) : Host.Outcome State Fault Refusal :=
  answer s (
    if s.readyAllowed kind index code = false then s
    else if kind = 2 ∧ code = 2 then s.retireTh index
    else (s.setReady kind index code).when (decide (kind = 0) && decide (index = 1) && decide (code = 1)) State.heedAlert)

/-- A unit retired by kind: 1 tile, 2 toe-heel unit, 3 engine. -/
def State.retireUnit (s : State) (kind index : Nat) : State :=
  if kind = 1 then s.retireTile index else if kind = 2 then s.retireTh index else s.retireEngine index

/-! ### The handler (R438 to R440) -/

/-- The action of Table 1 (R434, R438): a retired tile's move is due once its record is handled. A fatal error found while a record is in
handling parks halting whatever its kind (R439); the open batches, with the leaves of the requests it ends, close before a halting park (R333). A
fatal error during a halting park adds its record and changes nothing else (R439). -/
def State.errAction (s : State) (e : ErrRec) : State :=
  match e.reason.cls with
  | 2 =>
    match e.reason with
    | .macroRetired =>
      if s.regBit (Off.err 0) 0 ∨ e.handled then s else s.updTile e.index (fun t => { t with retired := true, moveDue := true })
    | .tileRetired => if (s.tile e.index).retired then s.updTile e.index (fun t => { t with moveDue := true }) else s
    | .thRetired => s.moveQueue e.index
    | _ => s
  | 3 =>
    let soft := !e.nested && (decide (e.reason = .vrPark) || decide (e.reason = .linkDown))
    if s.halted then s
    else if soft then s.parkFor e.reason
    else
      let s := if e.nested then s.haltPark Cause.fatal else s.parkFor e.reason
      (s.closeBatch 0 false).closeBatch 1 false
  | _ => s

/-- The unhandled records of a class, oldest first. -/
def State.waitingOf (s : State) (c : Nat) : List ErrRec :=
  s.errs.queue.filter (fun e => !e.handled && decide (e.reason.cls = c))

/-- The record the handler takes: the oldest of the highest class. -/
def State.nextError (s : State) : Option ErrRec :=
  ((s.waitingOf 3) ++ (s.waitingOf 2) ++ (s.waitingOf 1) ++ (s.waitingOf 0)).head?

/-- A record handled: marked in the queue and on die, and written as its ring has room. -/
def State.doneRecord (s : State) (e : ErrRec) (preempted : Bool) : State :=
  let mark := fun (x : ErrRec) => if x = e then { x with handled := true, preempted := preempted } else x
  let s := { s with errs := { s.errs with
    queue := s.errs.queue.map mark, onDieNs := s.errs.onDieNs.map mark, onDieS := s.errs.onDieS.map mark } }
  s.flushErrors e.world

/-- A record handled; records of a higher class that its handling raises preempt it, to any depth (four classes, so `k` = 4
suffices). -/
def State.handleRecord : Nat → State → ErrRec → State
  | 0, s, e => s.doneRecord e false
  | k + 1, s, e =>
    let outer := s.errs.handling
    let s := ({ s with errs := { s.errs with handling := e :: outer } }).errAction e
    let up := ((List.range 4).reverse.filter (fun c => decide (e.reason.cls < c))).flatMap (fun c => s.waitingOf c)
    let s := up.foldl (fun s h => (State.handleRecord k s h).tally (Off.err 0x50) 1) s
    ({ s with errs := { s.errs with handling := outer } }).doneRecord e (!up.isEmpty)

/-- ERROR_HANDLE (R438). -/
def execErrorHandle (s : State) : Host.Outcome State Fault Refusal :=
  answerBurning s (match s.nextError with
    | none => s
    | some e => State.handleRecord 4 s e)

/-- SW_FAULT written (R441): the code, and the writer's world. -/
def State.softwareFault (s : State) (code : Nat) (secure : Bool) : State :=
  s.fileError bothWorlds ((ErrRec.of .software).details code (worldNum secure))

/-- SW_FAULT (R441). -/
def execSwFault (code : Word) (secure : Bool) (s : State) : Host.Outcome State Fault Refusal :=
  answer s (s.posted (Off.err 0x58) 4 code.toNat secure (fun s => s.softwareFault code.toNat secure))

/-! ### Logic self-test (R442, R443) -/

/-- Slices of a unit kind (R442 Table 4). -/
def sliceCount (kind : Nat) : Nat := if kind = 1 then 8 else if kind = 2 then 4 else 1

/-- The worlds a unit belongs to. -/
def State.unitWorlds (s : State) (kind index : Nat) : List Nat :=
  if kind = 1 then [worldNum (s.tileSecure index)] else if kind = 2 then [worldNum (s.thSecure index)] else s.engineWorlds index

/-- Whether a unit has been retired, or is a tile with nothing behind it. -/
def State.unitGone (s : State) (kind index : Nat) : Bool :=
  if kind = 1 then s.unbacked index || (s.tile index).retired
  else if kind = 2 then s.errs.thRetired.contains index
  else s.errs.retiredEngines.contains (Eng.causeway index, Eng.number index)

/-- Whether a TEST in flight asks for a unit's self-test. -/
def State.testAsks (s : State) (kind index : Nat) : Bool :=
  s.reqs.any (fun r => decide (r.2.opcode = Dop.test) && decide (r.2.phase = .running) && decide (r.2.fld 8 1 + 1 = kind) &&
    (r.2.units.drop r.2.pos).contains (kind, index))

/-- The slices a unit has passed of its present round, and when it last completed one (R443). -/
def State.slicesOfUnit (s : State) (kind index : Nat) : Nat :=
  if kind = 1 then (s.tile index).slices else if kind = 2 then (s.thUnit index).slices else 0
def State.testedAt (s : State) (kind index : Nat) : Nat :=
  if kind = 1 then s.reg64 (Off.tile index 0xC10) else if kind = 2 then (s.thUnit index).tested
  else sget (fun _ => 0) s.errs.engineTested index

/-- PERIOD_H in ns (R443). -/
def State.testPeriod (s : State) : Nat := s.regBits (Off.err 4) 8 8 * 3600000000000

/-- Whether the in-service test of a unit is due (R443): once every PERIOD_H hours, what one period did not complete carries over. -/
def State.testDue (s : State) (kind index : Nat) : Bool :=
  let p := s.testPeriod
  let t := s.testedAt kind index
  decide (0 < s.slicesOfUnit kind index) || decide (t = 0) || decide (t / p < s.now / p)

/-- The requests a mover works for: transfers, images and activations in progress, and a chunk to deal (R251). -/
def State.moverWork (s : State) : Nat :=
  (s.reqs.filter (fun e => decide (e.2.phase = .running) && [Dop.copy, Dop.fill, Dop.remoteCopy, Dop.save, Dop.restore].contains e.2.opcode)).length +
  (s.passes.pending.filter (fun a => decide (a.phase = .draining))).length + s.nextDeal.toList.length

/-- The movers that may work: neither retired nor under test. -/
def State.movers (s : State) : Nat :=
  ((List.range 32).filter (fun m => !s.unitGone 3 (1280 + m) && !s.isTested 3 (1280 + m))).length

/-- Whether an engine is bound to nothing (R443): a digest engine forms no digest, a lane's tile merges nothing, and there are more movers
than transfers (which mover takes a transfer is open: DESIGN CHOICE, log entry 9, never the one under test). -/
def State.engineIdle (s : State) (x : Nat) : Bool :=
  if x < 256 then !s.audit.digests.any (fun d => decide (d.engine = x))
  else if x < 1280 then (s.engineUsers x).isEmpty
  else decide (s.moverWork < s.movers)

/-- Whether a unit is at a frame gap, or, forced, a tile at a seam that has found none for PERIOD_H hours (R443). -/
def State.gapOf (s : State) (kind index : Nat) (forced : Bool) : Bool :=
  if kind = 1 then
    if forced then s.atSeam index && decide ((s.tile index).sleep ≠ .doze) && decide ((s.tile index).gapLast + s.testPeriod ≤ s.now)
    else decide ((s.tile index).sleep = .doze) && !s.mateTested index
  else if kind = 2 then decide (s.reg (Off.th index 0x10) = 0)
  else s.engineIdle index

/-- The state of a unit saved around a slice (R442 Table 4): to its park record of R313, where one fits. What stands in the model's own
fields stays there too (DEDUCED, log entry 32). -/
def State.saveForTest (s : State) (kind index : Nat) : State :=
  if s.parkFits = false then s
  else if kind = 1 then s.writeTileRecord index
  else if kind = 2 then s.freeRecord (s.thRecord index) (2 ^ 24)
  else s

/-- A tile forced to test: its round of slices counts once in TST_FORCED (R443). -/
def State.noteForced (s : State) (n : Nat) : State :=
  if (s.tile n).forced then s else (s.updTile n (fun t => { t with forced := true })).tally (Off.tile n 0xC08) 1

/-- LBIST_SLICE (R442, R443): a working unit whose test is due, or that a TEST asks for, saves its state and runs a slice. The tiles of its
readiness group are at no gap meanwhile. -/
def execLbistSlice (kind index : Nat) (forced : Bool) (s : State) : Host.Outcome State Fault Refusal :=
  answer s (
    if s.unitGone kind index = true ∨ s.isTested kind index = true ∨ s.parkState ≠ 0 ∨ s.sleep.pkg ≠ .awake ∨
        s.gapOf kind index forced = false ∨
        ((s.regBit (Off.err 4) 0 && s.testDue kind index) || (!forced && s.testAsks kind index)) = false then s
    else
      let s := if kind = 1 then ((s.tiles.map (·.1)).filter (fun n => decide (n / 16 = index / 16))).foldl (fun s n => s.noteGap n) s else s
      let s := s.saveForTest kind index
      let s := { s with errs := { s.errs with underTest := s.errs.underTest ++ [(kind, index, false)] } }
      if kind = 1 then
        let s := s.updTile index (fun t => { t with testing := true })
        if forced then s.noteForced index else s
      else s)

/-- The test of a unit ends; its state is restored. -/
def State.endTest (s : State) (kind index : Nat) : State :=
  let s := { s with errs := { s.errs with underTest := s.errs.underTest.filter (fun x => !(decide (x.1 = kind) && decide (x.2.1 = index))) } }
  if kind = 1 then s.updTile index (fun t => { t with testing := false }) else s

/-- A round of slices completed: TST_LAST of a tile, or the unit's own time, stands at the time (R443). -/
def State.endRound (s : State) (kind index : Nat) : State :=
  if kind = 1 then (s.updTile index (fun t => { t with slices := 0, forced := false })).setReg64 (Off.tile index 0xC10) s.now
  else if kind = 2 then s.setTh index { s.thUnit index with slices := 0, tested := s.now }
  else { s with errs := { s.errs with engineTested := sput (fun _ => 0) s.errs.engineTested index s.now } }

/-- A slice passed: counted for a tile; after the unit's last the round is complete. -/
def State.countSlice (s : State) (kind index : Nat) : State :=
  let k := s.slicesOfUnit kind index + 1
  let s := if kind = 1 then s.tally (Off.tile index 0xC00) 1 else s
  if sliceCount kind ≤ k then s.endRound kind index
  else if kind = 1 then s.updTile index (fun t => { t with slices := k })
  else s.setTh index { s.thUnit index with slices := k }

/-- A mismatch noted: counted for a tile, a LBIST_RETRY record filed with the unit and the slice. -/
def State.noteMismatch (s : State) (kind index slice : Nat) : State :=
  let s := if kind = 1 then s.tally (Off.tile index 0xC04) 1 else s
  let u := if kind = 3 then Eng.number index else index
  s.fileError (s.unitWorlds kind index)
    (((ErrRec.of .lbistRetry).unit kind (if kind = 3 then Eng.causeway index else index)).details u slice)

/-- LBIST_RESULT (R442): the slice passes, runs again at once after a first mismatch, or retires the unit after a second. -/
def execLbistResult (kind index : Nat) (ok : Bool) (s : State) : Host.Outcome State Fault Refusal :=
  answer s (match s.errs.underTest.find? (fun x => decide (x.1 = kind) && decide (x.2.1 = index)) with
    | none => s
    | some x =>
      if ok then (s.endTest kind index).countSlice kind index
      else if x.2.2 then ((s.endTest kind index).tally (Off.err 0x6C) 1).retireUnit kind index
      else
        let s := { s with errs := { s.errs with underTest := s.errs.underTest.map (fun y => if y = x then (kind, index, true) else y) } }
        s.noteMismatch kind index (s.slicesOfUnit kind index))

/-! ### Moves (R16, R448) -/

/-- The first spare of a tread that passes, untested ones by the checks in order: the spares that failed, and the one found; no answer
while a check is missing. -/
def pickSpare (untested : Nat → Bool) : List Nat → List Bool → Option (List Nat × Option Nat)
  | [], _ => some ([], none)
  | n :: r, checks =>
    if untested n = false then some ([], some n)
    else match checks with
      | [] => none
      | true :: _ => some ([], some n)
      | false :: more => (pickSpare untested r more).map (fun p => (n :: p.1, p.2))

/-- A tile with no spare left: unbacked, its group failed, its requests no longer served (R15, R281, R448). -/
def State.loseTile (s : State) (n : Nat) : State :=
  let old := (tget s.passes.tileMap n).getD 0
  let s := s.setPhys (old / 544) (old % 544) .retired
  let s := { s with passes := { s.passes with tileMap := sdel s.passes.tileMap n } }
  let s := (s.syncTiles.fileError bothWorlds ((ErrRec.of .noSpare).details (n / 512) 0)).setReady 1 n 2
  (s.tile n).queue.foldl (fun s i => match s.req? i with
    | some q => s.notReady i q 1 n
    | none => s) s

/-- A tile on its new physical tile: the scratchpad as it was, words and units that cannot be read still bad, its weights rewritten from
the image of the active generation, all macros fresh (R448, R449). -/
def State.moveTo (s : State) (n p : Nat) : State :=
  let old := (tget s.passes.tileMap n).getD 0
  let s := s.noteRepair 2 n 0 0 0
  let s := (s.setPhys (old / 544) (old % 544) .retired).setPhys (n / 512) p .passed
  let s := { s with passes := { s.passes with tileMap := sins n (544 * (n / 512) + p) s.passes.tileMap } }
  let s := (s.setReg (Off.tile n 0x220) 0).setReg (Off.tile n 0x224) 0
  let fresh := fun (t : Tile) =>
    { t with retired := false, moveDue := false, testing := false, rowErrs := [], slices := 0, forced := false }
  let s := ((s.updTile n fresh).applyRepairs n).rewriteWeights n
  (s.tally (Off.err 0x5C) 1).syncTiles

/-- TILE_MOVE (R438, R448): a retired tile whose record has been handled takes, at its seam, the first spare that passes its check; `checks` are
the results for untested spares in order. -/
def execTileMove (tile : Nat) (checks : List Bool) (s : State) : Host.Outcome State Fault Refusal :=
  answer s (
    if s.unbacked tile ∨ (s.tile tile).retired = false ∨ (s.tile tile).moveDue = false ∨ s.atSeam tile = false ∨ s.parkState ≠ 0 then s
    else
      let t := tile / 512
      match pickSpare (fun n => decide (s.phys t n = .untested)) (s.spares t) checks with
      | none => s
      | some (bad, found) =>
        let s := bad.foldl (fun s n => s.setPhys t n .retired) s
        match found with
        | some p => s.moveTo tile p
        | none => s.loseTile tile)

/-! ### TEST (R444 to R446) -/

/-- What a unit's result does beside its log entry (R442, R445, R447). -/
def State.applyResult (s : State) (kind : Nat) (u : Nat × Nat) (r : UnitResult) : State :=
  let n := u.2
  if kind = 5 then
    let s := s.setPhys (n / 544) (n % 544) (if r.result = 2 then .failed else .passed)
    (if r.result = 2 then s.tally (Off.err 0x6C) 1 else s).syncTiles
  else if kind = 4 then (if u.1 ≠ 1 then s.scrubPage n else if s.unbacked n = false then s.scrubTile n else s)
  else if r.result = 4 then s
  else if r.result = 2 then (((if kind = 3 then s else s.noteMismatch u.1 n r.slice).tally (Off.err 0x6C) 1).retireUnit u.1 n)
  else if kind = 3 then
    let s := s.marchRepair n r.rows
    if s.inActiveUse n then s.rewriteWeights n else s.clearTile n
  else
    let s := if r.result = 1 then s.noteMismatch u.1 n r.slice else s
    (if u.1 = 1 then s.tally (Off.tile n 0xC00) 8 else s).endRound u.1 n

/-- The log entry of a unit (R446). -/
def State.logEntry (s : State) (u : Nat × Nat) (r : UnitResult) : List Byte :=
  padTo 32 (natLe 1 u.1 ++ natLe 1 r.result ++ natLe 2 u.2 ++ natLe 4 r.repairs ++ natLe 8 r.signature.toNat ++ natLe 8 s.now)

/-- Whether a unit is a tile absent on this grade (R4). -/
def State.absentUnit (s : State) (u : Nat × Nat) : Bool := decide (u.1 = 1) && !s.present u.2

/-- Whether a TEST passes over a unit (R446): one that is absent, retired or without a tile behind it, or that has come to belong to the other
world. The HBM units of a SCRUB and the spares of SPARES are none of these (DEDUCED, log entry 66). -/
def State.skipsUnit (s : State) (q : Request) (u : Nat × Nat) : Bool :=
  decide (q.fld 8 1 ≠ 5) && decide (u.1 ≠ 0) &&
  (s.absentUnit u || s.unitGone u.1 u.2 || !(s.unitWorlds u.1 u.2).contains (worldNum q.secure))

/-- The result a unit is given: SKIPPED where the TEST passes over it, whatever comes with it (R446). -/
def State.resultOf (s : State) (q : Request) (u : Nat × Nat) (r : UnitResult) : UnitResult :=
  if s.skipsUnit q u then { index := r.index, result := 4, repairs := 0, signature := 0, slice := 0, rows := [] } else r

/-- One result logged and applied: POSITION moves on. Logic self-test waits for a frame gap of the unit (R443), a MARCH of a tile of the active
pass for its seam. -/
def State.testOne (s : State) (i : Nat) (q : Request) (u : Nat × Nat) (r : UnitResult) : State :=
  let kind := q.fld 8 1
  let r := s.resultOf q u r
  if kind = 3 ∧ s.inActiveUse u.2 = true ∧ s.atSeam u.2 = false then s
  else if kind ≤ 2 ∧ r.result ≠ 4 ∧ (s.gapOf u.1 u.2 false || s.gapOf u.1 u.2 true) = false then s
  else
    let ptr := q.fld 0x10 8
    match (if ptr = 0 then (s, 0, Stop.none) else s.writeRange q.secure (ptr + 32 * q.pos) (s.logEntry u r)) with
    | (_, _, .waits) => s
    | (t, _, .refused st a) => t.stopMove i q.pos st a
    | (t, _, .none) =>
      if r.result = 3 then
        let rail := (q.lost.map (·.2)).getD 0
        t.failReq i .faultNotReady .testWindow (fun e => (e.unit 8 rail).details rail (t.opNow (q.railTread rail)).1)
      else (t.applyResult kind u r).progress i (q.pos + 1)

/-- The results of a TEST taken in order as long as each is for the next unit. Only the time-out leaves a unit INCONCLUSIVE (R444). -/
def State.testAll (s : State) (i : Nat) : List (Nat × Nat) → List UnitResult → State
  | u :: us, r :: rs =>
    match s.req? i with
    | none => s
    | some q =>
      if q.phase ≠ .running ∨ r.index ≠ u.2 ∨ r.result = 3 then s
      else
        let t := s.testOne i q u r
        match t.req? i with
        | some q2 => if q2.pos = q.pos + 1 then t.testAll i us rs else t
        | none => t
  | _, _ => s

/-- The rail that keeps a maintenance test from its window: `window`, one that the supply watch reads outside it, or the rail of a tread of
which the governor cannot give OP7 at full duty (R444). -/
def State.windowRail (s : State) (i : Nat) (q : Request) (window : Option Nat) : Option Nat :=
  window <|> ((s.updReq i (fun q => { q with phase := .running })).fullDutyBarred q.maintTreads)

/-- A maintenance test in progress (R444): its treads are asked for OP7 at full duty; results count while they have it and no rail bars it.
Once begun, a loss is noted with its time and rail, and the window is back when it holds again within 10 ms. -/
def State.runMaintenance (s : State) (i : Nat) (q : Request) (results : List UnitResult) (rail : Option Nat) : State :=
  match rail with
  | some r => s.updReq i (fun q => if q.lost.isSome then q else { q with lost := some (s.now, r) })
  | none =>
    if (q.lost.map (fun x => decide (x.1 + 10000000 < s.now))).getD false then s
    else
      let s := q.maintTreads.foldl (fun s t => s.askFullDuty t) s
      if q.maintTreads.all (fun t => decide (s.opNow t = (7, 16))) then
        (s.updReq i (fun q => { q with lost := none })).testAll i (q.units.drop q.pos) results
      else s

/-- TEST (R444, R445): `results` are those of the next units in order, `window` the rail that keeps a maintenance kind from its
window. A TEST that names one absent tile needs it and never starts (R4; DEDUCED, log entry 66). -/
def State.runTest (s : State) (req : Nat) (results : List UnitResult) (window : Option Nat) : State :=
  s.working req Dop.test (fun s q =>
    let kind := q.fld 8 1
    let t := q.fld 0xC 4
    if q.phase = .accepted ∧ (kind = 0 ∨ kind = 3) ∧ t ≠ 0xFFFFFFFF ∧ s.absentUnit (1, t) = true then s.neverReady req 1 t
    else
      let rail := if kind = 3 ∨ kind = 5 then s.windowRail req q window else none
      match (if q.phase = .accepted then rail else none) with
      | some r => s.failReq req .faultNotReady .testWindow (fun e => (e.unit 8 r).details r (s.opNow (q.railTread r)).1)
      | none =>
        let s := s.begin_ req
        let s := if kind = 3 ∨ kind = 5 then s.runMaintenance req q results rail else s.testAll req (q.units.drop q.pos) results
        match s.req? req with
        | some q2 => if q2.phase = .running ∧ q2.total ≤ q2.pos then s.finishOk req q2.pos else s
        | none => s)

/-- MAINTENANCE_WINDOW_TIMEOUT (R444): 10 ms after the window was lost, the unit logged INCONCLUSIVE; the TEST ends with FAULT_NOT_READY. -/
def State.windowTimeout (s : State) (req index kind : Nat) : State :=
  match s.req? req with
    | none => s
    | some q =>
      let k := q.fld 8 1
      if q.opcode ≠ Dop.test ∨ s.goesOn q = false ∨ (k ≠ 3 ∧ k ≠ 5) ∨
          (q.lost.map (fun x => decide (x.1 + 10000000 ≤ s.now))).getD false = false ∨ (q.units.drop q.pos).head? ≠ some (kind, index) then s
      else s.testOne req q (kind, index) { index := index, result := 3, repairs := 0, signature := 0, slice := 0, rows := [] }

end Sys2Proof.Machine
end

