-- ==== Sys2Proof/Machine/Mailbox.lean ====
section
/-! DEFINITION. The mailboxes (R422 to R425, R427, R430, R432, R437, R451). -/

namespace Sys2Proof.Machine

/-- Mailbox command codes (R432 Table 10, R451 Table 6). -/
def Mb.getReport : Nat := 1
def Mb.getCert : Nat := 2
def Mb.recover : Nat := 3
def Mb.update : Nat := 4
def Mb.setupWrite : Nat := 5
def Mb.transfer : Nat := 6
def Mb.logRead : Nat := 7
def Mb.repairList : Nat := 0x10
def Mb.repairCommit : Nat := 0x11
def Mb.retire : Nat := 0x12

/-- Whether a code is a command. -/
def Mb.known (c : Nat) : Bool := (decide (1 ≤ c) && decide (c ≤ 7)) || (decide (0x10 ≤ c) && decide (c ≤ 0x12))

/-- Whether a command's length is one it takes: the nonce of GET_REPORT, an image within its slot, a record within its range, a
transfer with the new owner digest, nothing for the commands that name no request. -/
def Mb.lengthGood (c len : Nat) : Bool :=
  if c = Mb.getReport then decide (len = 32)
  else if c = Mb.recover ∨ c = Mb.update then decide (0x2000 ≤ len) && decide (len ≤ 0x200000)
  else if c = Mb.setupWrite then decide (0x1000 ≤ len) && decide (len ≤ 0x10000)
  else if c = Mb.transfer then decide (32 ≤ len)
  else if c = Mb.retire then decide (1 ≤ len)
  else decide (len = 0)

/-- Whether Table 10 allows a command in a mailbox now. -/
def State.mbAllowed (s : State) (w c : Nat) : Bool :=
  (decide (c = Mb.getReport) || decide (c = Mb.getCert) || decide (c = Mb.logRead) || decide (w = 1)) &&
  (match s.sec.stage with
   | .booted => decide (c ≠ Mb.recover)
   | .recovery => decide (c = Mb.getCert) || decide (c = Mb.recover) || decide (c = Mb.logRead)
   | _ => false)

/-! ### The commands: result and response -/

/-- RECOVER (R422): a good image is copied into junction memory; it runs from step 4 of Table 7. -/
def State.mbRecover (s : State) (g : List Byte) : State × Nat × List Byte :=
  if g.length ≠ 0x2000 + Fw.length g then (s, 1, [])
  else if s.imageSigned g = false then (s, 3, [])
  else if Fw.svn g < s.fuses.svnMin then (s, 4, [])
  else ({ s with sec := { s.sec with recoverImage := g } }, 0, [])

/-- UPDATE (R423): a good image replaces the one in flash, verified in full before the erase. -/
def State.mbUpdate (s : State) (g : List Byte) (flashOk : Bool) : State × Nat × List Byte :=
  if g.length ≠ 0x2000 + Fw.length g then (s, 1, [])
  else if s.imageSigned g = false then (s, 3, [])
  else if Fw.svn g < s.fuses.svnMin then (s, 4, [])
  else if flashOk then (s.flashWrite 0 0x200000 g, 0, [])
  else (s.flashLost 0 0x200000, 7, [])

/-- SETUP_WRITE (R424): a record the ruling key has signed replaces the one in flash; it takes effect at the next boot. -/
def State.mbSetup (s : State) (g : List Byte) (flashOk : Bool) : State × Nat × List Byte :=
  if g.length ≠ Config.setupSpan g then (s, 1, [])
  else if setupGood s.rulingKey g = false then (s, 3, [])
  else if flashOk then (s.flashWrite Flash.setup Flash.cert g, 0, [])
  else (s.flashLost Flash.setup 0x10000, 7, [])

/-- Every secure region and area 6 zeroed (R425). -/
def State.zeroSecure (s : State) : State :=
  let s := (s.regions.filter (fun e => Region.secure e.2)).foldl (fun s e => s.zeroRange e.2 (fun _ => true)) s
  s.zeroRange (s.areaBase 6 / 2 ^ 21 + 2 ^ 27 * (s.areaSize 6 / 2 ^ 21)) (fun _ => true)

/-- Whether the two signatures over the new owner digest verify (R425): by the key in force, and by the new owner's; a transfer to the all-zero
digest, which has no owner, is signed in its place by the vendor key that will rule (DEDUCED, log entry 9). -/
def State.transferGood (s : State) (g : List Byte) : Bool :=
  let d := g.take 32
  let k := Config.transferKeys g
  let sig := Config.transferSigs g
  decide (shake256 k.1 = s.rulingKey) && Config.xmssVerify k.1 d sig.1 &&
  decide (shake256 k.2 = if allZero d then s.fuses.vendorDigest else d) && Config.xmssVerify k.2 d sig.2

/-- TRANSFER (R425): the next owner slot burned and the secure memory zeroed; the warm reset follows its answer. -/
def State.mbTransfer (s : State) (g : List Byte) : State × Nat × List Byte :=
  if 8 ≤ s.fuses.owners.length then (s, 6, [])
  else if s.transferGood g = false then (s, 3, [])
  else (({ s with fuses := { s.fuses with owners := s.fuses.owners ++ [g.take 32] } }.zeroSecure).syncOwner.syncSecStatus, 0, [])

/-- LOG_READ (R437): the records of the mailbox's world. -/
def State.mbLog (s : State) (w : Nat) : List Byte :=
  (if w = 0 then s.errs.onDieNs else s.errs.onDieS).flatMap (fun e => e.bytes false)

/-- The 16 bytes of a repair entry (R451 Table 6). -/
def Repair.bytes (r : Repair) (fused : Bool) : List Byte :=
  natLe 8 (r.kind % 4 + 4 * fused.toNat + 8 * (r.tread % 2) + 2 ^ 4 * (r.phys % 1024) + 2 ^ 14 * (r.unit % 64) +
    2 ^ 20 * (r.line % 1024) + 2 ^ 30 * (r.spare % 16)) ++ natLe 8 r.time

/-- REPAIR_LIST (R451). -/
def State.mbRepairs (s : State) : List Byte :=
  s.fuses.repairs.flatMap (fun r => r.bytes true) ++ s.errs.repairs.flatMap (fun r => r.bytes false)

/-- REPAIR_COMMIT (R451): soft repairs fused in the order they were made, as many as fit. -/
def State.mbCommit (s : State) : State × Nat × List Byte :=
  let k := min s.errs.repairs.length (4096 - s.fuses.repairs.length)
  let s := { s with
    fuses := { s.fuses with repairs := s.fuses.repairs ++ s.errs.repairs.take k }
    errs := { s.errs with repairs := s.errs.repairs.drop k } }
  let left := s.errs.repairs.length
  let s := (s.setReg (Off.err 0x64) left).setReg (Off.err 0x68) s.fuses.repairs.length
  let s := if 0 < left then s.fileError bothWorlds (ErrRec.of .fusesFull) else s
  (s, 0, natLe 4 k ++ natLe 4 left ++ natLe 4 (4096 - s.fuses.repairs.length))

/-- Whether a unit named for retirement, by kind and number, exists (R451). -/
def State.retireThere (s : State) (u : Nat × Nat) : Bool :=
  if u.1 = 1 then s.present u.2 && !s.unbacked u.2 else if u.1 = 2 then decide (u.2 < 16) else decide (u.1 = 3) && decide (u.2 < 1312)

/-- RETIRE (R451): a tile, a toe-heel unit or an engine that exists. -/
def State.mbRetire (s : State) (g : List Byte) : State × Nat × List Byte :=
  let u := Config.retireTarget g
  if s.retireThere u then (s.retireUnit u.1 u.2, 0, []) else (s, 1, [])

/-- What a command does, its result and its response; `none` where the answer waits for the signer. -/
def State.runMb (s : State) (w c : Nat) (g : List Byte) (windowOk flashOk : Bool) : State × Nat × List Byte :=
  if c = Mb.getCert then
    let f := s.flashBytes Flash.cert 0x10000
    (s, 0, f.take (min (Config.certSpan f) 0x10000))
  else if c = Mb.recover then s.mbRecover g
  else if c = Mb.update then s.mbUpdate g flashOk
  else if c = Mb.setupWrite then s.mbSetup g flashOk
  else if c = Mb.transfer then s.mbTransfer g
  else if c = Mb.logRead then (s, 0, s.mbLog w)
  else if c = Mb.repairList then (s, 0, s.mbRepairs)
  else if c = Mb.repairCommit then (if windowOk && s.fullDuty then s.mbCommit else (s, 2, []))
  else if c = Mb.retire then (if windowOk && s.fullDuty then s.mbRetire g else (s, 2, []))
  else (s, 1, [])

/-! ### MB_CMD (R432) -/

/-- A command taken by an idle mailbox: BUSY set, the request read (HOST_ERROR where the host answers with an error or poison), the
command run. Its answer goes out with
MAILBOX_COMMAND_DONE. -/
def State.startMb (s : State) (w v : Nat) (windowOk flashOk : Bool) : State :=
  let c := v % 256
  let len := v / 256
  let ptr := s.reg64 (Off.mb w 8)
  let s := (s.setReg (Off.mb w 0) v).setReg (Off.mb w 0x10) 1
  let m : Mailbox := { world := w, command := c, arg := ptr, result := 0, response := [] }
  let s := { s with sec := { s.sec with mbox := s.sec.mbox.filter (fun (x : Mailbox) => decide (x.world ≠ w)) ++ [m] } }
  if Mb.known c = false ∨ Mb.lengthGood c len = false ∨ ptrSpace ptr ≠ 1 ∨ bitsAt ptr 52 10 ≠ 0 then s.setMbox w 1 []
  else if s.mbAllowed w c = false then s.setMbox w 2 []
  else
    let g := s.hostBytes (ptrAddr ptr) len
    if (s.hostStop (ptrAddr ptr) len).isSome then s.setMbox w 8 [] else
    if c = Mb.getReport then (s.setMbox w 0 g).askSignature (2 + w)
    else
      let r := s.runMb w c g windowOk flashOk
      r.1.setMbox w r.2.1 r.2.2

/-- A write of MB_CMD: ignored and counted while BUSY. -/
def State.writeMbCmd (s : State) (w v : Nat) (windowOk flashOk : Bool) : State :=
  if s.regBit (Off.mb w 0x10) 0 then s.tally (Off.mb w 0x18) 1 else s.startMb w v windowOk flashOk

/-- A write of MB_CMD over BAR0: mailbox 1 is the secure world's (R432, R433). -/
def State.mailbox (s : State) (w : Nat) (arg : Word) (secure windowOk flashOk : Bool) : State :=
  s.posted (Off.mb w 0) 4 arg.toNat secure (fun s =>
    if w = 1 then s.secureOnly secure (Off.mb w 0) (fun s => s.writeMbCmd w arg.toNat windowOk flashOk)
    else s.writeMbCmd w arg.toNat windowOk flashOk)

/-- A row of Table 10 or Table 6: the write of MB_CMD whose code is the row's. -/
def State.mailboxRow (s : State) (code w : Nat) (arg : Word) (secure windowOk flashOk : Bool) : State :=
  if arg.toNat % 256 = code then s.mailbox w arg secure windowOk flashOk else s

/-- GET_REPORT (R430). -/
def execGetReport (world : Nat) (arg : Word) (secure : Bool) (s : State) : Host.Outcome State Fault Refusal :=
  answerBurning s (s.mailboxRow Mb.getReport world arg secure true true)

/-- GET_CERT (R427). -/
def execGetCert (world : Nat) (arg : Word) (secure : Bool) (s : State) : Host.Outcome State Fault Refusal :=
  answerBurning s (s.mailboxRow Mb.getCert world arg secure true true)

/-- RECOVER (R422). -/
def execRecover (world : Nat) (arg : Word) (secure : Bool) (s : State) : Host.Outcome State Fault Refusal :=
  answerBurning s (s.mailboxRow Mb.recover world arg secure true true)

/-- UPDATE (R423): `flashOk` false: the erase, the write or the read-back fails. -/
def execUpdate (world : Nat) (arg : Word) (secure flashOk : Bool) (s : State) : Host.Outcome State Fault Refusal :=
  answerBurning s (s.mailboxRow Mb.update world arg secure true flashOk)

/-- SETUP_WRITE (R424). -/
def execSetupWrite (world : Nat) (arg : Word) (secure flashOk : Bool) (s : State) : Host.Outcome State Fault Refusal :=
  answerBurning s (s.mailboxRow Mb.setupWrite world arg secure true flashOk)

/-- TRANSFER (R425). -/
def execTransfer (world : Nat) (arg : Word) (secure : Bool) (s : State) : Host.Outcome State Fault Refusal :=
  answerBurning s (s.mailboxRow Mb.transfer world arg secure true true)

/-- LOG_READ (R437). -/
def execLogRead (world : Nat) (arg : Word) (secure : Bool) (s : State) : Host.Outcome State Fault Refusal :=
  answerBurning s (s.mailboxRow Mb.logRead world arg secure true true)

/-- REPAIR_LIST (R451). -/
def execRepairList (world : Nat) (arg : Word) (secure : Bool) (s : State) : Host.Outcome State Fault Refusal :=
  answerBurning s (s.mailboxRow Mb.repairList world arg secure true true)

/-- REPAIR_COMMIT (R451): `windowOk` says whether the rails stand in the maintenance window of R444; both treads must have OP7 at full duty too. -/
def execRepairCommit (world : Nat) (arg : Word) (secure windowOk : Bool) (s : State) : Host.Outcome State Fault Refusal :=
  answerBurning s (s.mailboxRow Mb.repairCommit world arg secure windowOk true)

/-- RETIRE (R451). -/
def execRetire (world : Nat) (arg : Word) (secure windowOk : Bool) (s : State) : Host.Outcome State Fault Refusal :=
  answerBurning s (s.mailboxRow Mb.retire world arg secure windowOk true)

/-! ### MAILBOX_COMMAND_DONE -/

/-- A mailbox's answer: the response written to the request's buffer, BUSY cleared, RESULT set, MB_VECTOR raised. A buffer that the host
answers with an error takes none of it: HOST_ERROR. -/
def State.answerMb (s : State) (w : Nat) (m : Mailbox) : State :=
  let bad := (s.hostStop (ptrAddr m.arg) m.response.length).isSome
  let m := if bad then { m with result := 8, response := [] } else m
  let s := if m.response.isEmpty then s else s.setHostBytes (ptrAddr m.arg) m.response
  let s := { s with sec := { s.sec with mbox := s.sec.mbox.filter (fun (x : Mailbox) => decide (x.world ≠ w)) } }
  let s := s.setReg (Off.mb w 0x10) (2 ^ 8 * m.result + 2 ^ 16 * ((m.response.length + 15) / 16))
  let v := s.regBits (Off.mb w 0x14) 0 11
  if v = 0x7FF then s else s.sendMsix v

/-- MAILBOX_COMMAND_DONE (R432): after a transfer the device performs a WARMRST_N (R425). -/
def execMailboxCommandDone (world : Nat) (s : State) : Host.Outcome State Fault Refusal :=
  answerBurning s (
    match s.sec.mbox.find? (fun m => decide (m.world = world)) with
    | none => s
    | some m =>
      if s.sec.signQueue.contains (2 + world) ∨ s.link.up = false then s
      else
        let t := s.answerMb world m
        if m.command = Mb.transfer ∧ m.result = 0 then t.warmReset.warmRelease else t)

end Sys2Proof.Machine
end

