-- ==== Sys2Proof/Machine/HostLink.lean ====
section
/-! DEFINITION. The host link: modules, retrains, readiness, BAR4, CXL.mem, coherence and record writes (R254 to R272). -/

namespace Sys2Proof.Machine

/-! ### HL_STATUS (R272) -/

def State.hlModules (s : State) : Nat := s.regBits (Off.hl 0) 0 8
def State.hlHalves (s : State) : Nat := s.regBits (Off.hl 0) 8 8
def State.setModules (s : State) (modules halves : Nat) : State :=
  (s.setRegBits (Off.hl 0) 0 8 modules).setRegBits (Off.hl 0) 8 8 halves

/-- A retrain of the whole link asked for. -/
def State.wantRetrain (s : State) : State :=
  ({ s with link := { s.link with retrainWanted := true } }).emit .retrainRequest

/-- LANE_ERROR (R256): the retrain is asked for; the lane, one more of its module, is repaired in it. -/
def execLaneError (module : Nat) (s : State) : Host.Outcome State Fault Refusal :=
  answer s (
    if s.link.up = false ∨ s.hlModules.testBit module = false then s
    else ({ s with link := { s.link with laneErrs := s.link.laneErrs ++ [module] } }).wantRetrain)

/-- Whether the modules may train: after the reset, and secure boot's verification of the firmware or its wait for one (R270 Table 4). -/
def State.mayTrain (s : State) : Bool := decide (s.sec.stage = .booted) || decide (s.sec.stage = .recovery)

/-- MODULE_UP (R270): the module's bit is set; after the link is ready it joins at the next retrain. -/
def execModuleUp (module : Nat) (half : Bool) (rate : Nat) (s : State) : Host.Outcome State Fault Refusal :=
  answer s (
    if s.mayTrain = false ∨ s.hlModules.testBit module = true then s
    else
      let s := (s.setModules (putBit s.hlModules module true) (putBit s.hlHalves module half)).setRegBits (Off.hl 0) 16 3 rate
      if s.link.up then s.wantRetrain else s)

/-- A module that went down files a device record (R255). -/
def State.moduleLost (s : State) (m : Nat) : State := s.fileError bothWorlds (((ErrRec.of .moduleDown).unit 6 m).details m 0)

/-- LINK_RETRAIN (R255, R256): `modules` are up after it, `halves` of them at half width; a module that had a lane error and kept its
width has had a lane remapped; `replays` flits were replayed. -/
def execLinkRetrain (modules halves replays : Nat) (s : State) : Host.Outcome State Fault Refusal :=
  answer s (
    let old := s.hlModules
    if s.link.up = false ∨ s.link.retrainWanted = false ∨ modules = 0 ∨ modules &&& old ≠ modules then s
    else
      let fixed := s.link.laneErrs.filter (fun m => modules.testBit m && (!halves.testBit m || s.hlHalves.testBit m))
      let gone := (setBits 8 old).filter (fun m => !modules.testBit m)
      let s := { s with link := { s.link with laneErrs := [], retrainWanted := false } }
      let s := ((s.setModules modules (halves &&& modules)).tally (Off.hl 4) 1).tally (Off.hl 8) fixed.length
      gone.foldl (fun s m => s.moduleLost m) (s.tally (Off.hl 0xC) replays))

/-- LINK_DOWN (R257): the last module is down: the link is not ready any more (R270), and a fatal record is filed, whose handling parks
the device. -/
def execLinkDown (s : State) : Host.Outcome State Fault Refusal :=
  answer s (
    if s.link.up = false then s
    else
      let s := { s with link := { s.link with up := false, laneErrs := [], retrainWanted := false } }
      ((s.setModules 0 0).setReady 0 3 0).fileError bothWorlds (ErrRec.of .linkDown))

/-- What waited for the link is written: on-die copies of a halting park (R317), error records, events, leaves, batches. -/
def State.flushLink (s : State) : State :=
  let s := s.flushHalt
  let s := [0, 1].foldl (fun s w => s.flushErrors w) s
  let s := s.flushEvents
  ([0, 1].foldl (fun s w => s.drainBatches w) s).formHalted.flushHalt

/-- What enumeration writes (R260, R265, R269): a function mask it clears lets what is pending on an unmasked vector go. -/
def State.enumerate (s : State) (e : Enumeration) : State :=
  let c := s.link.cfg
  ({ s with link := { s.link with
      enumerated := true, up := true, hdmBase := e.hdmBase
      cfg := { c with bar0 := { c.bar0 with base := e.bar0 }, bar2 := { c.bar2 with base := e.bar2 }, bar4 := { c.bar4 with base := e.bar4 } } } }).setFuncMask
    e.funcMask

/-- LINK_READY (R255, R257, R270): modules up, the partner read, CXL.io enumerated; the `failed` modules cannot train at any width and
are marked down. -/
def execLinkReady (modules halves rate failed : Nat) (partner : DWord) (cfg : Enumeration) (s : State) : Host.Outcome State Fault Refusal :=
  answer s (
    if s.link.up = true ∨ modules = 0 ∨ s.mayTrain = false then s
    else
      let s := (s.setModules modules (halves &&& modules)).setRegBits (Off.hl 0) 16 3 rate
      let s := (s.setReg64 (Off.hl 0x28) partner.toNat).enumerate cfg
      let s := (s.setReady 0 3 1).flushLink
      ((setBits 8 failed).filter (fun m => !modules.testBit m)).foldl (fun s m => s.moduleLost m) s)

/-- IDE_FAULT (R272): counted; it forces a retrain. -/
def execIdeFault (s : State) : Host.Outcome State Fault Refusal :=
  answer s (if s.link.up = false ∨ s.regBit (Off.hl 0) 19 = false then s else (s.tally (Off.hl 0x20) 1).wantRetrain)

/-! ### CXL.cache (R267) -/

/-- HOST_SNOOP (R267): record writes are performed as they are made, so the answer follows every write to the line. -/
def execHostSnoop (line : Nat) (s : State) : Host.Outcome State Fault Refusal :=
  answer s (if s.link.up = false then s else s.emit (.snoopAnswer line (s.hostBytes (64 * line) 64)))

/-- Kind and index of a ring in a RECORD_LOST record (R436). -/
def ringCode : RingId → Nat
  | .cq c => 2 ^ 16 * c
  | .evq w => 1 + 2 ^ 16 * w
  | .erq w => 2 + 2 ^ 16 * w
  | .dlog w => 3 + 2 ^ 16 * w
  | .plog w => 4 + 2 ^ 16 * w
  | .pbat w => 5 + 2 ^ 16 * w

/-- Whether a ring is an error ring. -/
def ringIsErq : RingId → Bool
  | .erq _ => true
  | _ => false

/-- RECORD_WRITE_FAULT (R267): a record of a ring, `back` records before the last, answered with an error: TAIL stands, the bytes are
lost. -/
def execRecordWriteFault (ring : RingId) (back : Nat) (s : State) : Host.Outcome State Fault Refusal :=
  answer s (
    match (s.link.recWrites.filter (fun x => decide (x.ring = ring))).reverse[back]? with
    | none => s
    | some x =>
      let s := { s with link := { s.link with recWrites := s.link.recWrites.filter (fun y => decide (y ≠ x)) } }
      let s := (s.setHostBytes x.addr x.old).tally (Off.hl 0x30) 1
      if ringIsErq ring then s else s.fileError [ring.world] ((ErrRec.of .recordLost).details (ringCode ring) x.tail))

/-! ### HL_COHERENT (R266) -/

/-- A word of HL_COHERENT written: bits of units with reserved areas stay clear; bits that go clear are cleared by
COHERENT_CLEAR_DONE. -/
def State.writeCoherent (s : State) (word v : Nat) : State :=
  let free := (setBits 32 v).filter (fun i => (s.areaOf ((32 * word + i) * 2 ^ 21)).isNone)
  let old := setBits 32 (s.reg (Off.coherent word))
  let gone := (old.filter (fun i => !free.contains i)).map (32 * word + ·)
  let still := s.link.cohClearing.filter (fun u => !free.any (fun i => decide (32 * word + i = u)))
  let s := ({ s with link := { s.link with cohClearing := still ++ gone } }).setReg (Off.coherent word) (ofSetBits free)
  s.setRegBit (Off.hl 0x24) 0 (!s.link.cohClearing.isEmpty)

/-- HL_COHERENT_WRITE (R266). -/
def execHlCoherentWrite (word : Nat) (value : Word) (s : State) : Host.Outcome State Fault Refusal :=
  answer s (s.posted (Off.coherent word) 4 value.toNat false (fun s => s.writeCoherent word value.toNat))

/-- COHERENT_CLEAR_DONE (R266): every line of the cleared units back-invalidated. -/
def execCoherentClearDone (s : State) : Host.Outcome State Fault Refusal :=
  answer s (
    if s.link.cohClearing.isEmpty then s
    else
      let s := s.link.cohClearing.foldl (fun s u => s.snoopUnit u) s
      ({ s with link := { s.link with cohClearing := [] } }).setRegBit (Off.hl 0x24) 0 false)

/-! ### BAR4 and CXL.mem (R262, R265) -/

/-- BAR4_ACCESS (R262, R390, R391): in Deep a write is held and a read waits for the wake. -/
def execBar4Access (write : Bool) (addr len : Nat) (data : List Byte) (secure : Bool) (found : CheckOutcome) (s : State) :
    Host.Outcome State Fault Refusal :=
  answer s (
    if s.link.up = false then s
    else
      let s := s.noteTraffic
      let x : HostAccess := { cxl := false, write := write, door := false, addr := addr, len := len, data := data, secure := secure, found := found }
      if s.inDeep then (if write then s.holdAccess .bar4 addr data secure else s.keepAccess x)
      else s.wakeStacks.hostAccess x)

/-- CXL_MEM_REQUEST (R265): always non-secure; in Deep it waits for the wake. -/
def execCxlMemRequest (write : Bool) (hostAddr len : Nat) (data : List Byte) (found : CheckOutcome) (s : State) :
    Host.Outcome State Fault Refusal :=
  answer s (
    if s.link.up = false then s
    else
      let s := s.noteTraffic
      let x : HostAccess := { cxl := true, write := write, door := false, addr := hostAddr, len := len, data := data, secure := false, found := found }
      if s.inDeep then s.keepAccess x else s.wakeStacks.hostAccess x)

end Sys2Proof.Machine
end

