-- ==== Sys2Proof/Machine/Registers.lean ====
section
/-! DEFINITION. BAR0 as software sees it: what a read shows, writes of every register, snapshots, the I3C port, the test port (R10,
R471, R473, R482 to R489). -/

namespace Sys2Proof.Machine

/-! ### Snapshots (R487) -/

/-- A range copied into SNAP_DATA of a world, as that world sees it. -/
def State.snap (s : State) (w a : Nat) : State :=
  let words := (List.range 64).map (fun i => s.visibleWord (decide (w = 1)) (a + 4 * i))
  words.zipIdx.foldl (fun t e => t.setReg (Off.snapData w + 4 * e.2) e.1) s

/-- SNAP_ADDR written: a value that names no 256-byte range of BAR0 is refused (R482). The copy is taken at once, so SNAP_STATUS
reads 0 again. -/
def State.writeSnap (s : State) (w v : Nat) : State :=
  if v % 256 ≠ 0 ∨ Off.limit ≤ v then s.tally Off.badAccess 1 else (s.setReg64 (Off.snapAddr w) v).snap w v

/-- SNAP_ADDR_WRITE (R487). -/
def execSnapAddrWrite (w : Nat) (value : DWord) (secure : Bool) (s : State) : Host.Outcome State Fault Refusal :=
  answer s (s.posted (Off.snapAddr w) 8 value.toNat secure (fun s =>
    if w = 1 then s.secureOnly secure (Off.snapAddr w) (fun s => s.writeSnap w value.toNat) else s.writeSnap w value.toNat))

/-! ### Writes of 64-bit registers -/

/-- The ring whose base register lies at an offset of the world blocks. -/
def baseRing (off : Nat) : Option RingId :=
  ([0, 1].flatMap (fun w => [RingId.evq w, .erq w, .plog w, .pbat w, .dlog w])).find? (fun r => decide (r.baseOff = off))

/-- The base of a ring that is disabled (R274). -/
def State.writeBase (s : State) (r : RingId) (v : Nat) : State := if s.ringOn r then s else s.setReg64 r.baseOff v

/-- A 64-bit register written whole. -/
def State.write64 (s : State) (off v : Nat) (secure : Bool) : State :=
  if offIn off (Off.sq 0 0) (Off.sq 4160 0) then
    (if s.sqOn ((off - Off.sq 0 0) / 0x40) then s else s.setReg64 off v)
  else if offIn off (Off.cq 0 0) (Off.cq 4160 0) then s.writeBase (.cq ((off - Off.cq 0 0) / 0x40)) v
  else match baseRing off with
  | some r => s.writeBase r v
  | none =>
    if offIn off (Off.memBase 0) (Off.memProt 0) then (if s.regBit (Off.mem 4) 9 then s else s.setReg64 off v)
    else if offIn off (Off.memProt 0) (Off.memProt 8) then s.writeProt ((off - Off.memProt 0) / 8) v secure
    else if offIn off (Off.map 0 0) (Off.map 1024 0) then s.writePartition ((off - Off.map 0 0) / 0x20) (BitVec.ofNat 64 v)
    else if offIn off (Off.pwr 0x80) (Off.pwr 0xC0) then s.setReg64 off (v % 2 ^ 36)
    else if off = Off.ms 8 then s.setTime v
    else if offIn off (Off.ms 0x200) (Off.ms 0x240) then
      (s.setReg64 off v).programOut ((off - Off.ms 0x200) / 0x10)
    else if off = Off.mb 0 8 ∨ off = Off.mb 1 8 then s.setReg64 off v
    else if offIn off (Off.region 0) (Off.region 1024) then s.writeRegion ((off - Off.region 0) / 8) v
    else if off = Off.snapAddr 0 then s.writeSnap 0 v
    else if off = Off.snapAddr 1 then s.writeSnap 1 v
    else s

/-! ### Writes of 32-bit registers -/

/-- REQ_DRIFT_CFG with its limits (R116 Table 5). -/
def driftCfg (v : Nat) : Nat := clampNat 4 20 (bitsAt v 0 5) + 2 ^ 8 * max 1 (bitsAt v 8 8) + 2 ^ 16 * bitsAt v 16 1

/-- AWL_CFG with its limits (R198 Table 9). -/
def awlCfg (v : Nat) : Nat :=
  max 1 (bitsAt v 0 4) + 2 ^ 4 * clampNat 3 10 (bitsAt v 4 4) + 2 ^ 8 * clampNat 6 16 (bitsAt v 8 5) + 2 ^ 16 * bitsAt v 16 1

/-- SLEEP_CFG with its limits (R405 Table 8). -/
def sleepCfg (v : Nat) : Nat := bitsAt v 0 18 + 2 ^ 18 * max 1 (bitsAt v 18 6) + 2 ^ 24 * max 1 (bitsAt v 24 8)

/-- EVT_CFG: POLARITY 3 reads back as 0; MASKED stays (R405 Table 9). -/
def evtCfg (old v : Nat) : Nat :=
  (if bitsAt v 0 2 = 3 then 0 else bitsAt v 0 2) + 2 ^ 2 * bitsAt v 2 3 + 2 ^ 5 * bitsAt old 5 1 + 2 ^ 16 * bitsAt v 16 16

/-- MEM_CFG: LOCAL and LMODE only while unlocked (R253). -/
def State.writeMemCfg (s : State) (v : Nat) : State :=
  let low := if s.regBit (Off.mem 4) 9 then s.regBits (Off.mem 0) 0 6 else bitsAt v 0 6
  (s.setReg (Off.mem 0) (low + 2 ^ 8 * clampNat 1 168 (bitsAt v 8 8))).syncLimit

/-- LBIST_CFG with its limits (R452). -/
def lbistCfg (v : Nat) : Nat := bitsAt v 0 1 + 2 ^ 8 * clampNat 1 168 (bitsAt v 8 8)

/-- PARK_CTRL written (R319). -/
def State.writePark (s : State) (v : Nat) : State :=
  if v.testBit 0 then s.startPark Cause.request else if v.testBit 1 then s.endRequest else s

/-- A register of the world ring block, or of the digest and provenance block, written (R300, R335). -/
def State.writeRings (s : State) (w k v : Nat) (dig : Bool) : State :=
  if dig then
    if k = 8 then s.writeRingCtrl (.plog w) v
    else if k = 0xC then s.setReg (Off.dig w 0xC) (clampNat 10 10000 (bitsAt v 0 14))
    else if k = 0x14 then s.writeRingHead (.plog w) v
    else if k = 0x30 then s.writeRingCtrl (.pbat w) v
    else if k = 0x38 then s.writeRingHead (.pbat w) v
    else if k = 0x48 then s.writeRingCtrl (.dlog w) v
    else if k = 0x50 then s.writeRingHead (.dlog w) v
    else s
  else if k = 8 then s.writeRingCtrl (.evq w) v
  else if k = 0xC then s.setReg (Off.wrb w 0xC) (v % 2 ^ 24)
  else if k = 0x14 then s.writeRingHead (.evq w) v
  else if k = 0x48 then s.writeRingCtrl (.erq w) v
  else if k = 0x54 then s.writeRingHead (.erq w) v
  else s

/-- A register of the power block written (R365, R367, R370, R378, R381). -/
def State.writePwr (s : State) (k v : Nat) : State :=
  if k = 0 then s.writeCap v
  else if k = 4 then s.setReg (Off.pwr 4) (clampNat 10 120 (bitsAt v 0 7))
  else if k = 0x14 then s.setReg (Off.pwr 0x14) (clampNat 70 95 (bitsAt v 0 8))
  else if k = 0x20 then s.setReg (Off.pwr 0x20) (v % 2 ^ 22)
  else s

/-- A register of the Milestone block written (R390, R405). -/
def State.writeMs (s : State) (k v : Nat) : State :=
  if k = 0x30 then (if s.regBit (Off.ms 0x30) 16 then s else s.noteTraffic).setReg (Off.ms 0x30) (sleepCfg v)
  else if k = 0x34 then (if v.testBit 0 then s.restWake 5 else s)
  else if offIn k 0x100 0x200 && decide (k % 0x20 = 0) then s.setReg (Off.ms k) (evtCfg (s.reg (Off.ms k)) v)
  else if offIn k 0x200 0x240 && decide (k % 0x10 < 8) then
    (s.setReg (Off.ms k) (if k % 0x10 = 0 then v &&& 0xFFFFFF07 else max 1 v)).programOut ((k - 0x200) / 0x10)
  else s

/-- A register of the security block written (R408, R432, R433). A write of MB_CMD here finds the maintenance window open and the flash
good (log entry 11: those are operands of the commands' own rows). -/
def State.writeSec (s : State) (k v : Nat) : State :=
  if offIn k 0x100 0x1C0 then s.writeWorldMap ((k - 0x100) / 4) v
  else if k = 0x800 then s.writeMbCmd 0 v true true
  else if k = 0x840 then s.writeMbCmd 1 v true true
  else if k = 0x814 ∨ k = 0x854 then s.setReg (Off.sec k) (v % 2 ^ 11)
  else s

/-- A register of the error block written (R441, R452). -/
def State.writeErr (s : State) (k v : Nat) (secure : Bool) : State :=
  if k = 0 then s.setReg (Off.err 0) (v % 2)
  else if k = 4 then s.setReg (Off.err 4) (lbistCfg v)
  else if k = 0x58 then s.softwareFault v secure
  else s

/-- A word of the MSI-X table written (R269). -/
def State.writeMsix (s : State) (off v : Nat) : State :=
  if off % 16 ≠ 12 then s.setReg off v
  else if v.testBit 0 then s.setReg off 1
  else s.unmaskVector ((off - Off.msix 0 0) / 16)

/-- A 32-bit register written by a world that may. -/
def State.write32 (s : State) (off v : Nat) (secure : Bool) : State :=
  if off = Off.reqDriftCfg then s.setReg off (driftCfg v)
  else if offIn off (Off.sq 0 0) (Off.sq 4160 0) then
    (if off % 0x40 = 8 then s.writeSqCtrl ((off - Off.sq 0 0) / 0x40) v else s)
  else if offIn off (Off.cq 0 0) (Off.cq 4160 0) then
    let c := (off - Off.cq 0 0) / 0x40
    if off % 0x40 = 8 then s.writeRingCtrl (.cq c) v
    else if off % 0x40 = 0xC then s.setReg off (v % 2 ^ 24)
    else if off % 0x40 = 0x14 then s.writeRingHead (.cq c) v
    else s
  else if offIn off (Off.wrb 0 0) (Off.wrb 2 0) then s.writeRings ((off - Off.wrb 0 0) / 0x100) (off % 0x100) v false
  else if off = Off.awl 0 then s.setReg off (awlCfg v)
  else if off = Off.mem 0 then s.writeMemCfg v
  else if offIn off (Off.coherent 0) (Off.coherent 12288) then s.writeCoherent ((off - Off.coherent 0) / 4) v
  else if off = Off.park 8 then s.writePark v
  else if offIn off (Off.dig 0 0) (Off.dig 2 0) then s.writeRings ((off - Off.dig 0 0) / 0x100) (off % 0x100) v true
  else if off = Off.ix 0 then s.writeRole v
  else if offIn off (Off.ixp 0 0) (Off.ixp 16 0) then (if off % 0x200 = 4 then s.setReg off (v &&& 0xFFFF0FFF) else s)
  else if offIn off (Off.grp 0 0) (Off.grp 256 0) then
    (if s.isManager || s.isSub then s.writeGroup ((off - Off.grp 0 0) / 0x80) (off % 0x80 / 4) v else s)
  else if offIn off (Off.pwr 0) (Off.pwr 0x10000) then s.writePwr (off - Off.pwr 0) v
  else if offIn off (Off.ms 0) (Off.ms 0x10000) then s.writeMs (off - Off.ms 0) v
  else if offIn off (Off.sec 0) (Off.sec 0x8000) then s.writeSec (off - Off.sec 0) v
  else if offIn off (Off.err 0) (Off.err 0x10000) then s.writeErr (off - Off.err 0) v secure
  else if offIn off (Off.msix 0 0) (Off.msix 2048 0) then s.writeMsix off v
  else s

/-! ### A write of BAR0 (R482 to R485) -/

/-- A write of one register by the world that may make it; a secure-only one by the other world has no effect and is counted (R10);
the block of an unbacked tile takes none. -/
def State.guarded (s : State) (off : Nat) (secure : Bool) (f : State → State) : State :=
  if !secure && s.secureReg off then s.countViolation false 0 (0x030000000000 + off) else f s

/-- A 4-byte write: the low half of a 64-bit register is held until its high half is written (R483). -/
def State.write4 (s : State) (off v : Nat) (secure : Bool) : State :=
  s.guarded off secure (fun s =>
    if rw64 off then { s with holds := sins off (BitVec.ofNat 32 v) s.holds }
    else if 4 ≤ off ∧ rw64 (off - 4) = true then
      let low := match tget s.holds (off - 4) with
        | some x => x.toNat
        | none => s.reg (off - 4)
      ({ s with holds := sdel s.holds (off - 4) }).write64 (off - 4) (low + 2 ^ 32 * v) secure
    else s.write32 off v secure)

/-- A write of BAR0: a refused one is counted, one of 8 bytes as two, one for each register; an 8-byte write of two registers applies the lower
one first (R482). -/
def State.writeBar0 (s : State) (off size v : Nat) (secure : Bool) : State :=
  if (size ≠ 4 ∧ size ≠ 8) ∨ off % size ≠ 0 then s.tally Off.badAccess (if size = 8 then 2 else 1)
  else if size = 4 then s.write4 off (v % 2 ^ 32) secure
  else if rw64 off then s.guarded off secure (fun s => ({ s with holds := sdel s.holds off }).write64 off v secure)
  else (s.write4 off (v % 2 ^ 32) secure).write4 (off + 4) (v / 2 ^ 32) secure

/-- The rail of a telemetry register. -/
def railOf (off : Nat) : Option Nat := if offIn off (Off.pwr 0x100) (Off.pwr 0x128) then some ((off - Off.pwr 0x100) / 4) else none

/-- A write over I3C (R471): non-secure, 4 bytes, of the ranges the port reaches; it alone writes the telemetry (R375). -/
def State.writeI3c (s : State) (off size v : Nat) : State :=
  if size ≠ 4 ∨ off % 4 ≠ 0 ∨ i3cReach off = false then s.tally Off.badAccess 1
  else match railOf off with
    | some k => s.writeTelem k (v % 2 ^ 32)
    | none => s.write4 off (v % 2 ^ 32) false

/-- The wake cause of a write of BAR0: that of SLEEP_CTRL WAKE, or an access of the host (R390, R405). -/
def writeCause (off v : Nat) : Nat := if off = Off.ms 0x34 ∧ v.testBit 0 = true then 5 else 0

/-- REGISTER_WRITE (R390, R471, R482 to R485); in Deep it is held (R391). -/
def execRegisterWrite (off size : Nat) (value : DWord) (secure i3c : Bool) (s : State) : Host.Outcome State Fault Refusal :=
  answerBurning s (
    if s.inDeep then
      (if i3c then s.holdAccess .i3c off (natLe size value.toNat) false
       else s.noteTraffic.holdAccess .bar0 off (natLe size value.toNat) secure)
    else if i3c then (s.accessed 4).writeI3c off size value.toNat
    else (s.accessed (writeCause off value.toNat)).writeBar0 off size value.toNat secure)

/-! ### The latch of a 64-bit read (R483) -/

/-- The initiators that read BAR0: the host in each world, the board controller. -/
def initiatorOf (secure i3c : Bool) : Nat := if i3c then 2 else secure.toNat

/-- A 4-byte read of BAR0: that of a low half latches the high half for the initiator's next read of it (R483). -/
def State.readLatch (s : State) (off : Nat) (secure i3c : Bool) : State :=
  if off % 4 ≠ 0 ∨ (i3c = true ∧ i3cReach off = false) then s.tally Off.badAccess 1
  else
    let sec := secure && !i3c
    let s := if !sec && s.secureReg off then s.countViolation false 0 (0x030000000000 + off) else s
    if isLow64 off = false then s
    else
      let who := initiatorOf secure i3c
      { s with latches := s.latches.filter (fun l => !(decide (l.1 = who) && decide (l.2.1 = off))) ++
          [(who, off, BitVec.ofNat 32 (s.visibleWord sec (off + 4)))] }

/-- REGISTER_READ_LATCH (R390, R483); in Deep the read waits for the wake (R391). -/
def execRegisterReadLatch (off : Nat) (secure i3c : Bool) (s : State) : Host.Outcome State Fault Refusal :=
  answer s (
    if s.inDeep then (if i3c then s else s.noteTraffic).holdAccess (.read i3c) off [] secure
    else (s.accessed (if i3c then 4 else 0)).readLatch off secure i3c)

/-! ### The I3C and test ports (R471, R473) -/

/-- I3C_IBI_ACK (R471): the in-band interrupt is repeated no more. -/
def execI3cIbiAck (byte : Nat) (s : State) : Host.Outcome State Fault Refusal :=
  answerPin s (
    if s.pins.porstLow then s else { s with pins := { s.pins with ibi := s.pins.ibi.filter (fun b => decide (b ≠ byte)) } })

/-- The instructions of the test port, numbered by the model: 0 IDCODE, 1 BYPASS, 2 SAMPLE/PRELOAD, 3 EXTEST, 4 CLAMP, 5 HIGHZ. -/
def jtagLoads (code : Nat) : Nat := if code ≤ 5 then code else 1

/-- How the loaded instruction acts: EXTEST, CLAMP and HIGHZ as BYPASS unless PORST_N is low (R473). -/
def State.jtagActs (s : State) : Nat := if 3 ≤ s.pins.jtag ∧ s.pins.porstLow = false then 1 else s.pins.jtag

/-- The IDCODE register: Clorik's JEP106 identity and part number 0x7680, in the places IEEE 1149.1 gives them (R473). -/
def jtagIdcode : Nat := 1 + 2 * (Config.idcode.1 % 2 ^ 11) + 2 ^ 12 * 0x7680 + 2 ^ 28 * (Config.idcode.2 % 16)

/-- JTAG_INSTRUCTION (R473): every instruction that is not offered acts as BYPASS; IDCODE shifts the IDCODE register out. -/
def execJtagInstruction (code : Nat) (s : State) : Host.Outcome State Fault Refusal :=
  let t : State := { s with pins := { s.pins with jtag := jtagLoads code } }
  answerPin s (if code = 0 then t.emit (.idcode jtagIdcode) else t)

end Sys2Proof.Machine
end

