-- ==== Sys2Proof/Machine/Save.lean ====
section
/-! DEFINITION. SAVE and RESTORE and the hold of their object (R301 to R311, R318). -/

namespace Sys2Proof.Machine

/-! ### The hold (R302) -/

/-- OBJECT_HOLD (R302): a SAVE or RESTORE takes its object once every earlier request that uses it has completed; the time is
kept for the image's TIME. -/
def execObjectHold (req : Nat) (s : State) : Host.Outcome State Fault Refusal :=
  answer s (match s.req? req with
    | none => s
    | some q =>
      if q.saves && s.mayStart q && s.holdFree q then
        s.setReq req { q with phase := .running, held := true, aux := s.now }
      else s)

/-- A row for a SAVE or RESTORE that holds its object. -/
def State.holding (s : State) (i op : Nat) (f : State → Request → State) : State :=
  match s.req? i with
  | some q => if q.opcode = op ∧ q.held = true ∧ s.goesOn q = true then f s q else s
  | none => s

/-! ### SAVE (R303 to R307) -/

/-- CONTENT_DIGEST of a body (R303): the digest of the digests of its 2 MiB chunks. -/
def contentDigest (body : List Byte) : List Byte := inDigest body

/-- The header of an image (R303 Table 2). -/
def saveHeader (scope world object feature length time : Nat) (pass content : List Byte) (bytes : Nat) : List Byte :=
  padTo 4096 (natLe 4 0x45564153 ++ natLe 2 1 ++ natLe 1 scope ++ natLe 1 world ++ natLe 4 object ++ natLe 4 feature ++
    natLe 8 length ++ natLe 8 time ++ padTo 32 pass ++ padTo 32 content ++ natLe 8 bytes)

/-- The context a SAVE writes: as it stands, without the frames accepted after the SAVE (R302, R304). -/
def State.savedContext (s : State) (q : Request) : List Byte :=
  let st := q.object
  let l := s.laterFrames q
  let less := fun (off size n : Nat) (bs : List Byte) => overlay bs off (natLe size (s.ctx st off size - n))
  let keys := (l.filter (·.key)).length
  overlay (less Cx.frame 8 l.length (less Cx.accepted 8 l.length (less Cx.keyframes 8 keys (less Cx.inflight 4 l.length
    (s.memBytes (s.ctxAddr st) 128))))) Cx.generation (natLe 4 (s.savedGen q))

/-- The body of a STREAM image: context, guard entries, state area (R304). -/
def State.streamBody (s : State) (q : Request) : List Byte :=
  let st := q.object
  let need := s.needFor (s.savedGen q) (s.streamFrame st)
  padTo 0x400 (s.savedContext q) ++ padTo 0xC00 (s.memBytes (s.guardAddr st) 1024) ++
  padTo (roundUp 4096 need) (s.memBytes (s.ctx st Cx.base 8) need)

/-- The powered banks of a tile. -/
def State.banksOn (s : State) (n : Nat) : List Nat := (List.range 24).filter (fun b => s.regBit (Off.tile n 0x900) b)

/-- The body of a TILE image: a powered bank's bytes, zeros for the others (R305); a refused or bad line. -/
def State.tileBody (s : State) (secure : Bool) (n : Nat) : State × List Byte × Stop :=
  (List.range 24).foldl (fun (acc : State × List Byte × Stop) b => match acc with
    | (s, bs, .none) =>
      if s.regBit (Off.tile n 0x900) b then
        match s.readRange secure false (spBase n + 0x10000 * b) 0x10000 with
        | (t, r, st) => (t, bs ++ r, st)
      else (s, bs ++ List.replicate 0x10000 0, .none)
    | x => x) (s, [], .none)

/-- PASS_DIGEST of the active pass, zeros for none. -/
def State.activeDigest (s : State) : List Byte :=
  match s.activePass with
  | some p => p.passDigest
  | none => List.replicate 32 0

/-- An image written: its body at 0x1000, then its header (R303). POSITION counts the 4 KiB units written
below a refusal (R490). -/
def State.writeImage (s : State) (i : Nat) (q : Request) (pass body : List Byte) (bytes : Nat) : State :=
  let len := 4096 + body.length
  let dig := contentDigest body
  let hdr := saveHeader q.scope (worldNum q.secure) q.object s.sec.feature len q.aux pass dig bytes
  let ptr := q.fld 0x10 8
  let s := s.updReq i (fun r => { r with total := len / 4096, digestA := dig })
  match s.writeRange q.secure (ptr + 4096) body with
  | (_, _, .waits) => s
  | (t, k, .refused st a) => (t.undefinedRest q.secure (ptr + 4096) k (body.drop k)).stopMove i (k / 4096) st a
  | (t, _, .none) =>
    match t.writeRange q.secure ptr hdr with
    | (_, _, .waits) => s
    | (u, j, .refused st a) => (u.undefinedRest q.secure ptr j (hdr.drop j)).stopMove i (j / 4096) st a
    | (u, _, .none) => ((u.progress i (len / 4096)).finishOk i (len / 4096)).tally (Off.park 0x20) 1

/-- A SAVE of a stream. -/
def State.saveStream (s : State) (i : Nat) (q : Request) : State :=
  let st := q.object
  if s.streamOther st q.secure then s.failReq i .faultWorld .world id
  else if s.streamState st ≠ 1 then s.notReady i q 0 0
  else
    let g := s.savedGen q
    let need := s.needFor g (s.streamFrame st)
    let dig := match s.slotOf g with
      | some e => e.2.passDigest
      | none => List.replicate 32 0
    match s.ownReads [(s.ctxAddr st, 128), (s.guardAddr st, 1024), (s.ctx st Cx.base 8, need)] with
    | (t, some a) => t.stopMove i 0 .faultUncorrected a
    | (t, none) => t.writeImage i q dig (t.streamBody q) (0x1000 + need)

/-- A SAVE of a tile: an absent tile is not ready, an unbacked one no tile (R4, R15). -/
def State.saveTile (s : State) (i : Nat) (q : Request) : State :=
  let n := q.object
  if n < 1024 ∧ s.present n = false then s.neverReady i 1 n
  else if 1024 ≤ n ∨ s.unbacked n = true then s.failReq i .faultWorld .world (fun e => e.unit 1 n)
  else match s.tileBody q.secure n with
    | (_, _, .waits) => s
    | (t, _, .refused st a) => t.stopMove i 0 st a
    | (t, bs, .none) => t.writeImage i q t.activeDigest bs 0x180000

/-- A SAVE of a pass: the image of its slot, byte for byte (R306). -/
def State.savePass (s : State) (i : Nat) (q : Request) : State :=
  match s.slotOf q.object with
  | none => s.failReq i .faultPassGeneration .generation (fun e => e.details q.object 0)
  | some (_, p) =>
    if p.secure ≠ q.secure then s.failReq i .faultWorld .world id
    else if q.object = 0 then s.failReq i .faultPassGeneration .generation (fun e => e.details q.object 0)
    else match s.ownReads [(p.base, p.length)] with
      | (t, some a) => t.stopMove i 0 .faultUncorrected a
      | (s, none) =>
        let s := s.updReq i (fun r => { r with total := p.length / 4096 })
        let bs := s.memBytes p.base p.length
        match s.writeRange q.secure (q.fld 0x10 8) bs with
        | (_, _, .waits) => s
        | (t, k, .refused st a) => (t.undefinedRest q.secure (q.fld 0x10 8) k (bs.drop k)).stopMove i (k / 4096) st a
        | (t, _, .none) => ((t.progress i (p.length / 4096)).finishOk i (p.length / 4096)).tally (Off.park 0x20) 1

/-- SAVE (R301 to R307, R310): once it holds its object; LENGTH below the image's size ends it (R307). -/
def State.runSave (s : State) (req : Nat) : State :=
  s.holding req Dop.save (fun s q =>
    if q.secureToHost then s.failReq req .faultWorld .world id
    else if (match s.saveSize q with
      | some n => decide (q.fld 0x18 8 < n)
      | none => false) then s.failReq req .faultDescriptor .descriptor (fun e => e.details 0x18 0)
    else if s.imageOutside q ((s.saveSize q).getD 0) then s.failReq req .faultWorld .world id
    else
      let s := s.updReq req (fun r => { r with total := (s.saveSize q).getD 0 / 4096 })
      if q.scope = 0 then s.saveStream req q
      else if q.scope = 1 then s.saveTile req q
      else s.savePass req q)

/-! ### RESTORE (R308, R309) -/

/-- A RESTORE ended by a check of Table 3, counted, after `pos` units have been read (R318). -/
def State.refuseRestore (s : State) (i pos : Nat) (st : Status) : State :=
  ((s.updReq i (fun q => { q with pos := pos })).failReq i st st.reason id).tally (Off.park 0x28) 1

/-- As `notReady`, counted when it ends the RESTORE. -/
def State.restoreNotReady (s : State) (i : Nat) (q : Request) : State :=
  if q.wait then s else (s.notReady i q 0 0).tally (Off.park 0x28) 1

/-- The first check of Table 3 on a header: MAGIC, VERSION, reserved bytes, SCOPE, LENGTH. -/
def headerBad (q : Request) (h : List Byte) : Bool :=
  let len := fieldAt h 0x10 8
  decide (fieldAt h 0 4 ≠ 0x45564153) || decide (fieldAt h 4 2 ≠ 1) || !allZero (h.drop 0x68) ||
  decide (fieldAt h 6 1 ≠ q.scope) || decide (q.fld 0x18 8 < len) || decide (len % 4096 ≠ 0) ||
  (if q.scope = 0 then decide (len < 0x2000) else decide (len ≠ 1576960))

/-- The generation an image binds to (R308): the active one with its PASS_DIGEST, else the highest staged one. -/
def State.bindImage (s : State) (secure : Bool) (dig : List Byte) : Option Nat :=
  let l := (s.passes.slots.filter (fun e => decide (e.2.passDigest = dig) && !e.2.staging && (e.2.secure == secure))).map (·.2.gen)
  if l.contains s.genActive ∧ s.genActive ≠ 0 then some s.genActive
  else (sortNat l).getLast?

/-- The context of a restored stream (R309). -/
def restoredContext (old : List Byte) (secure : Bool) (g base units : Nat) : List Byte :=
  let ctrl := 1 + 4 * secure.toNat + 8 * ((fieldAt old 0 4).testBit 3).toNat
  overlay (padTo 128 (natLe 4 ctrl ++ natLe 4 g ++ natLe 8 base ++ natLe 4 units ++ old.drop 0x14)) 0x58 (natLe 4 0)

/-- A stream image applied, its digest checked. -/
def State.restoreStream (s : State) (i : Nat) (q : Request) (g : Nat) (h body : List Byte) : State :=
  let st := q.object
  let old := body.take 128
  let units := fieldAt old Cx.units 4
  match s.fitUnits q.secure units st with
  | none => s.restoreNotReady i q
  | some base =>
    if contentDigest body ≠ (h.drop 0x40).take 32 then s.refuseRestore i ((4096 + body.length) / 4096) .faultUncorrected
    else
      let state := ((body.drop 0x1000).take (fieldAt h 0x60 8 - 0x1000)).take (units * 0x200000)
      let s := (((s.healRange base (units * 0x200000)).clearMem base (base + units * 0x200000))).setMemBytes base state
      let s := s.fillMem (s.guardAddr st) (padTo 1024 (body.drop 0x400))
      let s := s.fillMem (s.ctxAddr st) (restoredContext old q.secure g base units)
      let s := s.updReq i (fun r => { r with
        wrote := true, gen := g, digestA := (h.drop 0x40).take 32, digestB := (h.drop 0x20).take 32 })
      ((s.progress i ((4096 + body.length) / 4096)).finishOk i ((4096 + body.length) / 4096)).tally (Off.park 0x24) 1

/-- The powered banks of a tile written from an image's body, and how it ended. -/
def State.writeBanks (s : State) (secure : Bool) (n : Nat) (body : List Byte) : State × Stop :=
  (s.banksOn n).foldl (fun (acc : State × Stop) b => match acc with
    | (s, .none) => match s.writeRange secure (spBase n + 0x10000 * b) ((body.drop (0x10000 * b)).take 0x10000) with
      | (t, _, st) => (t, st)
    | x => x) (s, .none)

/-- A tile image applied; a digest that differs leaves the scratchpad undefined (R308). -/
def State.restoreTile (s : State) (i : Nat) (q : Request) (g : Nat) (h body : List Byte) : State :=
  let n := q.object
  let inUse := match s.slotOf g with
    | some e => decide (n < 1024) && e.2.tileUse.contains n
    | none => false
  if fieldAt h 8 4 ≠ n ∨ inUse = false then s.refuseRestore i ((4096 + body.length) / 4096) .faultPassGeneration
  else if contentDigest body ≠ (h.drop 0x40).take 32 then
    let t := (s.banksOn n).foldl (fun s b => s.freeRange q.secure (spBase n + 0x10000 * b) 0 0x10000) s
    t.refuseRestore i ((4096 + body.length) / 4096) .faultUncorrected
  else match s.writeBanks q.secure n body with
    | (_, .waits) => s
    | (t, .refused st a) => t.stopMove i ((4096 + body.length) / 4096) st a
    | (t, .none) =>
      let t := t.updReq i (fun r => { r with wrote := true, gen := g })
      ((t.progress i ((4096 + body.length) / 4096)).finishOk i ((4096 + body.length) / 4096)).tally (Off.park 0x24) 1

/-- The body of an image read once its header has passed. -/
def State.applyImage (s : State) (i : Nat) (q : Request) (g : Nat) (h : List Byte) : State :=
  let len := fieldAt h 0x10 8
  match s.readRange q.secure false (q.fld 0x10 8 + 4096) (len - 4096) with
  | (_, _, .waits) => s
  | (t, bs, .refused st a) => t.stopMove i (1 + bs.length / 4096) st a
  | (t, body, .none) =>
    if q.scope = 0 then t.restoreStream i q g h body else t.restoreTile i q g h body

/-- RESTORE (R308 to R311): the checks in the order of Table 3, then the image. -/
def execRestore (req : Nat) (s : State) : Host.Outcome State Fault Refusal :=
  answer s (s.holding req Dop.restore (fun s q =>
    if q.secureToHost then s.failReq req .faultWorld .world id
    else if s.imageOutside q 4096 then s.failReq req .faultWorld .world id
    else if q.fld 0x18 8 < 4096 then s.refuseRestore req 0 .faultDescriptor
    else match s.readRange q.secure false (q.fld 0x10 8) 4096 with
      | (_, _, .waits) => s
      | (t, _, .refused st a) => t.stopMove req 0 st a
      | (t, h, .none) =>
        if headerBad q h then t.refuseRestore req 1 .faultDescriptor
        else
        let t := t.updReq req (fun r => { r with total := fieldAt h 0x10 8 / 4096, pos := 1 })
        if t.imageOutside q (fieldAt h 0x10 8) then t.failReq req .faultWorld .world id
        else if fieldAt h 7 1 ≠ worldNum q.secure then t.refuseRestore req 1 .faultWorld
        else if t.sec.feature < fieldAt h 0xC 4 then t.refuseRestore req 1 .faultPassGeneration
        else match t.bindImage q.secure ((h.drop 0x20).take 32) with
          | none => t.refuseRestore req 1 .faultPassGeneration
          | some g =>
            if q.scope = 0 ∧ t.streamState q.object ≠ 0 then t.restoreNotReady req q
            else t.applyImage req q g h))

end Sys2Proof.Machine
end

