-- ==== Sys2Proof/Machine/Movers.lean ====
section
/-! DEFINITION. The commands that move ranges (R284, R286, R301, R351, R354, R445): a line of theirs that is a register access of the
size R482 accepts takes effect before the command ends. -/

namespace Sys2Proof.Machine

/-- The register writes that the lines of a mover have made, in order (R482). -/
def State.applyRegs (s : State) : State :=
  s.regWrites.foldl (fun s w => s.writeBar0 w.off w.size w.value w.secure) { s with regWrites := [] }

/-- COPY (R284). -/
def execCopy (req : Nat) (s : State) : Host.Outcome State Fault Refusal :=
  answerBurning s (s.runCopy req).applyRegs

/-- FILL (R284). -/
def execFill (req : Nat) (s : State) : Host.Outcome State Fault Refusal :=
  answerBurning s (s.runFill req).applyRegs

/-- DIGEST (R284). -/
def execDigest (req : Nat) (s : State) : Host.Outcome State Fault Refusal :=
  answerBurning s (s.runDigest req).applyRegs

/-- RUN (R285, R286). -/
def execRun (req : Nat) (s : State) : Host.Outcome State Fault Refusal :=
  answerBurning s (s.runRun req).applyRegs

/-- SAVE (R301 to R307, R310). -/
def execSave (req : Nat) (s : State) : Host.Outcome State Fault Refusal :=
  answerBurning s (s.runSave req).applyRegs

/-- TEST (R444, R445). -/
def execTest (req : Nat) (results : List UnitResult) (window : Option Nat) (s : State) : Host.Outcome State Fault Refusal :=
  answerBurning s (s.runTest req results window).applyRegs

/-- MAINTENANCE_WINDOW_TIMEOUT (R444). -/
def execMaintenanceWindowTimeout (req index kind : Nat) (s : State) : Host.Outcome State Fault Refusal :=
  answerBurning s (s.windowTimeout req index kind).applyRegs

/-- COLLECTIVE (R354 to R356, R358). -/
def execCollective (req : Nat) (s : State) : Host.Outcome State Fault Refusal :=
  answerBurning s (s.runCollective req).applyRegs

/-- COLLECTIVE_CHUNK (R354 to R356). -/
def execCollectiveChunk (group inst rank chunk : Nat) (kind len : Nat) (data : List Byte) (stop : CollStop) (s : State) :
    Host.Outcome State Fault Refusal :=
  answerBurning s (s.collectiveChunk group inst rank chunk kind len data stop).applyRegs

/-- READ_DATA (R351). -/
def execReadData (h : WinHdr) (data : List Byte) (portSecure : Bool) (s : State) : Host.Outcome State Fault Refusal :=
  answerBurning s (s.wrongPort h (s.readData h data) portSecure).applyRegs

end Sys2Proof.Machine
end

