-- ==== Sys2Proof/Machine/Sleep.lean ====
section
/-! DEFINITION. Rest and Deep of the package (R387, R389 to R391, R395). -/

namespace Sys2Proof.Machine

/-- The latches of the EVT pins as sleep begins: clear. -/
def State.clearLatches (s : State) : State :=
  (s.sleep.pins.map (·.1)).foldl (fun s i => s.setEvtPin i { s.evtPin i with latched := false, deepEdge := false }) s

/-- REST_ENTRY (R389): bring-up settled, nothing in flight, no traffic for REST_MS ms, no park. The context caches go back and the
treads are gated. -/
def execRestEntry (s : State) : Host.Outcome State Fault Refusal :=
  answer s (
    if s.sleep.pkg ≠ .awake ∨ s.restEn = false ∨ s.regBit (Off.rdy 0) 2 = false ∨ s.reg Off.rqInuse ≠ 0 ∨ s.parkState ≠ 0 ∨
        s.now < s.sleep.idleSince + s.restMs * 1000000 then s
    else
      let s := { s with
        hbm := { s.hbm with ctxCache := [] }
        sleep := { s.sleep with pkg := .rest, since := s.now, stacksWoken := none } }
      (s.clearLatches.setRegBits (Off.ms 0x3C) 0 16 (s.regBits (Off.ms 0x3C) 0 16 + 1)).syncSleep)

/-- The treads lose power: weights, their check data and scratchpad content are lost (R387); what a lost cell reads as before it is written again is
log entry 6. -/
def State.loseArray (s : State) : State :=
  let s := s.clearMem 0x020000000000 0x020140000000
  { s with
    tiles := s.tiles.map (fun e => (e.1, { e.2 with dirty := true, badUnits := [] }))
    macros := s.macros.map (fun e => (e.1, { e.2 with tagKey := none, rows := [], cols := [] })) }

/-- DEEP_ENTRY (R389): DEEP_S s in Rest and no port attached. -/
def execDeepEntry (s : State) : Host.Outcome State Fault Refusal :=
  answer s (
    if s.sleep.pkg ≠ .rest ∨ s.deepEn = false ∨ s.now < s.sleep.since + s.deepS * 1000000000 ∨ s.reg (Off.ix 0xC) ≠ 0 then s
    else
      let s := ({ s with sleep := { s.sleep with pkg := .deep, since := s.now, stacksWoken := none } }).loseArray
      (s.setRegBits (Off.ms 0x3C) 16 16 (s.regBits (Off.ms 0x3C) 16 16 + 1)).syncSleep)

/-- The first edge latched in Deep is counted as the junction wakes; further ones were not (R395). -/
def State.countDeepEdge (s : State) (i : Nat) : State :=
  let x := s.evtPin i
  if x.deepEdge then
    (((s.setEvtPin i { x with deepEdge := false }).tally (Off.evt i 4) 1).setReg64 (Off.evt i 0x10) (x.lastEdge.getD 0)).tally (Off.evt i 0xC) 1
  else s

/-- An access held in Deep is performed (R391). -/
def State.applyHeld (s : State) (w : HeldAccess) : State :=
  let v := leNat w.data
  let n := w.data.length
  match w.kind with
  | .bar0 => s.writeBar0 w.addr n v w.secure
  | .bar2 => s.hostAccess (doorbellAccess w.addr n v w.secure)
  | .bar4 => s.hostAccess { cxl := false, write := true, door := false, addr := w.addr, len := n, data := w.data, secure := w.secure, found := .clean }
  | .i3c => s.writeI3c w.addr n v
  | .read i3c => s.readLatch w.addr w.secure i3c
  | .config => s.setFuncMask (decide (v ≠ 0))
  | .doe => s.answerDoe w.data

/-- A wake from Deep (R391): the edges counted, the tiles of the active pass written again from its image, then the held writes in
order and the accesses that waited. -/
def State.deepWake (s : State) (cause : Nat) : State :=
  let s := (s.sleep.pins.map (·.1)).foldl (fun s i => s.countDeepEdge i) s
  let s := s.awaken cause
  let s := match s.activePass with
    | some p => s.rewritePass p
    | none => s
  let held := s.sleep.deepWrites
  (held.foldl (fun (t : State) w => t.applyHeld w) { s with sleep := { s.sleep with deepWrites := [] } }).goOnHost

/-- Whether an access over I3C waits in Deep. -/
def HeldAccess.i3c (w : HeldAccess) : Bool := decide (w.kind = .i3c) || decide (w.kind = .read true)

/-- Whether a cause has reached the device and acts by PACKAGE_WAKE (R390): an EVT pin latched with WAKE_EN, or an access that waits in Deep.
An access in Rest, a flit and a write of WAKE act by themselves. -/
def State.causeStands (s : State) (cause : Nat) : Bool :=
  if cause = 3 then (List.range 8).any (fun i => (s.evtPin i).latched && s.evtWakes i)
  else if cause = 0 then s.sleep.deepWrites.any (fun w => !w.i3c && decide (w.kind ≠ .bar4))
  else if cause = 1 then s.sleep.deepWrites.any (fun w => decide (w.kind = .bar4)) || !s.link.waiting.isEmpty
  else if cause = 4 then s.sleep.deepWrites.any (fun w => w.i3c)
  else false

/-- A wake cause acts (R390 Table 3): 0 host, 1 CXL.mem or BAR4, 2 Irxia, 3 EVT, 4 I3C, 5 WAKE. -/
def State.wakePackage (s : State) (cause : Nat) : State :=
  match s.sleep.pkg with
  | .awake => s
  | .rest => if cause = 1 then s.wakeStacks else s.awaken cause
  | .deep => if cause = 2 then s else s.deepWake cause

/-- PACKAGE_WAKE (R390, R391). -/
def execPackageWake (cause : Nat) (s : State) : Host.Outcome State Fault Refusal :=
  answerBurning s (if s.causeStands cause then s.wakePackage cause else s)

/-- SLEEP_WAKE (R390): a write of SLEEP_CTRL with WAKE set. -/
def execSleepWake (value : Word) (s : State) : Host.Outcome State Fault Refusal :=
  answerBurning s (if value.getLsbD 0 then s.noteTraffic.wakePackage 5 else s)

/-- STACKS_SELF_REFRESH_RETURN (R390): 1 ms without an access. -/
def execStacksSelfRefreshReturn (s : State) : Host.Outcome State Fault Refusal :=
  answer s (match s.sleep.stacksWoken with
    | none => s
    | some t =>
      if s.sleep.pkg ≠ .rest ∨ s.now < t + 1000000 then s
      else { s with sleep := { s.sleep with stacksWoken := none } })

end Sys2Proof.Machine
end

