-- ==== Sys2Proof/Machine/Dispatch.lean ====
section
/-! DEFINITION. The dispatch: one arm per command, one direct call of its meaning. -/

namespace Sys2Proof.Machine

/-- The effect of a command on everything but the queue. -/
def exec (i : Instr) (s : State) : Host.Outcome State Fault Refusal :=
  match i with
  | .doorbell off size value secure => Sys2Proof.Machine.execDoorbell off size value secure s
  | .fetchTurn bad => Sys2Proof.Machine.execFetchTurn bad s
  | .descriptorAccept ring env => Sys2Proof.Machine.execDescriptorAccept ring env s
  | .run req => Sys2Proof.Machine.execRun req s
  | .loadPass req => Sys2Proof.Machine.execLoadPass req s
  | .stagingComplete req => Sys2Proof.Machine.execStagingComplete req s
  | .activationStart => Sys2Proof.Machine.execActivationStart s
  | .activationDrained lost => Sys2Proof.Machine.execActivationDrained lost s
  | .activationComplete => Sys2Proof.Machine.execActivationComplete s
  | .dropPass req => Sys2Proof.Machine.execDropPass req s
  | .save req => Sys2Proof.Machine.execSave req s
  | .restore req => Sys2Proof.Machine.execRestore req s
  | .objectHold req => Sys2Proof.Machine.execObjectHold req s
  | .copy req => Sys2Proof.Machine.execCopy req s
  | .fill req => Sys2Proof.Machine.execFill req s
  | .digest req => Sys2Proof.Machine.execDigest req s
  | .fence req => Sys2Proof.Machine.execFence req s
  | .barrier req => Sys2Proof.Machine.execBarrier req s
  | .windowOpen req => Sys2Proof.Machine.execWindowOpen req s
  | .windowClose req => Sys2Proof.Machine.execWindowClose req s
  | .remoteCopy req => Sys2Proof.Machine.execRemoteCopy req s
  | .collective req => Sys2Proof.Machine.execCollective req s
  | .streamOpen req => Sys2Proof.Machine.execStreamOpen req s
  | .streamClose req => Sys2Proof.Machine.execStreamClose req s
  | .keyframe req => Sys2Proof.Machine.execKeyframe req s
  | .test req results window => Sys2Proof.Machine.execTest req results window s
  | .nop req => Sys2Proof.Machine.execNop req s
  | .descriptorCompletion req => Sys2Proof.Machine.execDescriptorCompletion req s
  | .msixCoalesceTimeout ring => Sys2Proof.Machine.execMsixCoalesceTimeout ring s
  | .msixUnmask vector funcMask => Sys2Proof.Machine.execMsixUnmask vector funcMask s
  | .sqEnable ring value secure => Sys2Proof.Machine.execSqEnable ring value secure s
  | .sqDisable ring value secure => Sys2Proof.Machine.execSqDisable ring value secure s
  | .sqAbort ring value secure => Sys2Proof.Machine.execSqAbort ring value secure s
  | .ringEnable ring value secure => Sys2Proof.Machine.execRingEnable ring value secure s
  | .ringDisable ring value secure => Sys2Proof.Machine.execRingDisable ring value secure s
  | .ringHeadWrite ring value secure => Sys2Proof.Machine.execRingHeadWrite ring value secure s
  | .errorHandle => Sys2Proof.Machine.execErrorHandle s
  | .hostSnoop line => Sys2Proof.Machine.execHostSnoop line s
  | .recordWriteFault ring back => Sys2Proof.Machine.execRecordWriteFault ring back s
  | .bar4Access write addr len data secure found => Sys2Proof.Machine.execBar4Access write addr len data secure found s
  | .cxlMemRequest write hostAddr len data found => Sys2Proof.Machine.execCxlMemRequest write hostAddr len data found s
  | .hlCoherentWrite word value => Sys2Proof.Machine.execHlCoherentWrite word value s
  | .coherentClearDone => Sys2Proof.Machine.execCoherentClearDone s
  | .cimDense tile waits => Sys2Proof.Machine.execCimDense tile waits s
  | .cimMatch tile waits => Sys2Proof.Machine.execCimMatch tile waits s
  | .cimScatter tile waits => Sys2Proof.Machine.execCimScatter tile waits s
  | .awlScan tile waits cycles locked => Sys2Proof.Machine.execAwlScan tile waits cycles locked s
  | .shank tile waits cycles => Sys2Proof.Machine.execShank tile waits cycles s
  | .toeheel tile waits => Sys2Proof.Machine.execToeheel tile waits s
  | .requant tile waits => Sys2Proof.Machine.execRequant tile waits s
  | .compress tile waits => Sys2Proof.Machine.execCompress tile waits s
  | .reduce tile waits cycles => Sys2Proof.Machine.execReduce tile waits cycles s
  | .scatterMerge tile waits => Sys2Proof.Machine.execScatterMerge tile waits s
  | .collect tile waits => Sys2Proof.Machine.execCollect tile waits s
  | .waitRange tile waits => Sys2Proof.Machine.execWaitRange tile waits s
  | .seam tile waits => Sys2Proof.Machine.execSeam tile waits s
  | .endList tile => Sys2Proof.Machine.execEndList tile s
  | .stepComplete tile idx => Sys2Proof.Machine.execStepComplete tile idx s
  | .invocation tile macroIdx outcome => Sys2Proof.Machine.execInvocation tile macroIdx outcome s
  | .workingSetSwap tile macroIdx stalls => Sys2Proof.Machine.execWorkingSetSwap tile macroIdx stalls s
  | .remoteDrainArrival tile stalls => Sys2Proof.Machine.execRemoteDrainArrival tile stalls s
  | .scatterContribution tile stalls => Sys2Proof.Machine.execScatterContribution tile stalls s
  | .scrubRowRead tile macroIdx upsets => Sys2Proof.Machine.execScrubRowRead tile macroIdx upsets s
  | .scrubCorrection tile macroIdx => Sys2Proof.Machine.execScrubCorrection tile macroIdx s
  | .macroReload tile macroIdx => Sys2Proof.Machine.execMacroReload tile macroIdx s
  | .spillRotation tile => Sys2Proof.Machine.execSpillRotation tile s
  | .weightWindowWrite addr data secure req => Sys2Proof.Machine.execWeightWindowWrite addr data secure req s
  | .weightWindowRead addr len secure req => Sys2Proof.Machine.execWeightWindowRead addr len secure req s
  | .scratchpadAccess write tile off len data secure req found waits => Sys2Proof.Machine.execScratchpadAccess write tile off len data secure req found waits s
  | .markerArrival tile => Sys2Proof.Machine.execMarkerArrival tile s
  | .circularRecordLanded tile cq record => Sys2Proof.Machine.execCircularRecordLanded tile cq record s
  | .scaleRecordComplete req layer => Sys2Proof.Machine.execScaleRecordComplete req layer s
  | .toeheelEntryStart unit => Sys2Proof.Machine.execToeheelEntryStart unit s
  | .toeheelEntryDone unit cycles => Sys2Proof.Machine.execToeheelEntryDone unit cycles s
  | .chunkDeal causeway => Sys2Proof.Machine.execChunkDeal causeway s
  | .digestChunk req layer index => Sys2Proof.Machine.execDigestChunk req layer index s
  | .batchClose world => Sys2Proof.Machine.execBatchClose world s
  | .stackReady stack ok => Sys2Proof.Machine.execStackReady stack ok s
  | .stackFailed stack => Sys2Proof.Machine.execStackFailed stack s
  | .patrolScrub unitAddr found => Sys2Proof.Machine.execPatrolScrub unitAddr found s
  | .stackTempRead stack temp => Sys2Proof.Machine.execStackTempRead stack temp s
  | .memProtWrite n value secure => Sys2Proof.Machine.execMemProtWrite n value secure s
  | .memProtDone n => Sys2Proof.Machine.execMemProtDone n s
  | .laneError module => Sys2Proof.Machine.execLaneError module s
  | .linkRetrain modules halves replays => Sys2Proof.Machine.execLinkRetrain modules halves replays s
  | .moduleUp module half rate => Sys2Proof.Machine.execModuleUp module half rate s
  | .linkDown => Sys2Proof.Machine.execLinkDown s
  | .linkReady modules halves rate failed partner cfg => Sys2Proof.Machine.execLinkReady modules halves rate failed partner cfg s
  | .ideFault => Sys2Proof.Machine.execIdeFault s
  | .park value secure => Sys2Proof.Machine.execPark value secure s
  | .unpark value secure => Sys2Proof.Machine.execUnpark value secure s
  | .parkComplete => Sys2Proof.Machine.execParkComplete s
  | .parkStepTimeout => Sys2Proof.Machine.execParkStepTimeout s
  | .resumeFromPark => Sys2Proof.Machine.execResumeFromPark s
  | .governorTick input => Sys2Proof.Machine.execGovernorTick input s
  | .pwrCapWrite value => Sys2Proof.Machine.execPwrCapWrite value s
  | .railArrived tread => Sys2Proof.Machine.execRailArrived tread s
  | .vrAlertAssert => Sys2Proof.Machine.execVrAlertAssert s
  | .vrAlertRelease => Sys2Proof.Machine.execVrAlertRelease s
  | .vrAlertHoldEnd => Sys2Proof.Machine.execVrAlertHoldEnd s
  | .vrPark => Sys2Proof.Machine.execVrPark s
  | .thermalSensorRead readings => Sys2Proof.Machine.execThermalSensorRead readings s
  | .thermalPowerOff => Sys2Proof.Machine.execThermalPowerOff s
  | .thermtrip => Sys2Proof.Machine.execThermtrip s
  | .reconcile => Sys2Proof.Machine.execReconcile s
  | .divergenceDeclare => Sys2Proof.Machine.execDivergenceDeclare s
  | .divergenceClear => Sys2Proof.Machine.execDivergenceClear s
  | .coefficientRefit => Sys2Proof.Machine.execCoefficientRefit s
  | .telemWrite rail power seq => Sys2Proof.Machine.execTelemWrite rail power seq s
  | .telemStale rail => Sys2Proof.Machine.execTelemStale rail s
  | .capUnattainable => Sys2Proof.Machine.execCapUnattainable s
  | .systemPowerAssign reports => Sys2Proof.Machine.execSystemPowerAssign reports s
  | .assignmentReceived watts => Sys2Proof.Machine.execAssignmentReceived watts s
  | .assignmentTimeout => Sys2Proof.Machine.execAssignmentTimeout s
  | .ppsEdge after => Sys2Proof.Machine.execPpsEdge after s
  | .ppsHoldover => Sys2Proof.Machine.execPpsHoldover s
  | .msTimeSet value secure => Sys2Proof.Machine.execMsTimeSet value secure s
  | .refLost => Sys2Proof.Machine.execRefLost s
  | .tileDoze tile => Sys2Proof.Machine.execTileDoze tile s
  | .tileNap tile => Sys2Proof.Machine.execTileNap tile s
  | .tileWake tile => Sys2Proof.Machine.execTileWake tile s
  | .napBurstScrub tile => Sys2Proof.Machine.execNapBurstScrub tile s
  | .restEntry => Sys2Proof.Machine.execRestEntry s
  | .deepEntry => Sys2Proof.Machine.execDeepEntry s
  | .packageWake cause => Sys2Proof.Machine.execPackageWake cause s
  | .sleepWake value => Sys2Proof.Machine.execSleepWake value s
  | .evtEdge pin rising after => Sys2Proof.Machine.execEvtEdge pin rising after s
  | .evtWindowEnd pin => Sys2Proof.Machine.execEvtWindowEnd pin s
  | .evtStuck pin => Sys2Proof.Machine.execEvtStuck pin s
  | .evtUnstuck pin => Sys2Proof.Machine.execEvtUnstuck pin s
  | .evtOutPulse pin => Sys2Proof.Machine.execEvtOutPulse pin s
  | .unitReady kind index code => Sys2Proof.Machine.execUnitReady kind index code s
  | .powerOnTestBatch tread batch failed badRouters trim points => Sys2Proof.Machine.execPowerOnTestBatch tread batch failed badRouters trim points s
  | .bringupSettled => Sys2Proof.Machine.execBringupSettled s
  | .supplyFault rail => Sys2Proof.Machine.execSupplyFault rail s
  | .porst => Sys2Proof.Machine.execPorst s
  | .porstRelease role bootsrc refSwing warmHeld flashGood => Sys2Proof.Machine.execPorstRelease role bootsrc refSwing warmHeld flashGood s
  | .warmrst => Sys2Proof.Machine.execWarmrst s
  | .vddAonLoss => Sys2Proof.Machine.execVddAonLoss s
  | .secureBootComplete badFuses => Sys2Proof.Machine.execSecureBootComplete badFuses s
  | .getReport world arg secure => Sys2Proof.Machine.execGetReport world arg secure s
  | .getCert world arg secure => Sys2Proof.Machine.execGetCert world arg secure s
  | .recover world arg secure => Sys2Proof.Machine.execRecover world arg secure s
  | .update world arg secure flashOk => Sys2Proof.Machine.execUpdate world arg secure flashOk s
  | .setupWrite world arg secure flashOk => Sys2Proof.Machine.execSetupWrite world arg secure flashOk s
  | .transfer world arg secure => Sys2Proof.Machine.execTransfer world arg secure s
  | .logRead world arg secure => Sys2Proof.Machine.execLogRead world arg secure s
  | .repairList world arg secure => Sys2Proof.Machine.execRepairList world arg secure s
  | .repairCommit world arg secure windowOk => Sys2Proof.Machine.execRepairCommit world arg secure windowOk s
  | .retire world arg secure windowOk => Sys2Proof.Machine.execRetire world arg secure windowOk s
  | .regionWrite n value secure => Sys2Proof.Machine.execRegionWrite n value secure s
  | .regionChangeDone => Sys2Proof.Machine.execRegionChangeDone s
  | .worldMapWrite word value secure => Sys2Proof.Machine.execWorldMapWrite word value secure s
  | .worldChangeApply block => Sys2Proof.Machine.execWorldChangeApply block s
  | .lbistSlice kind index forced => Sys2Proof.Machine.execLbistSlice kind index forced s
  | .lbistResult kind index ok => Sys2Proof.Machine.execLbistResult kind index ok s
  | .tileMove tile checks => Sys2Proof.Machine.execTileMove tile checks s
  | .swFault code secure => Sys2Proof.Machine.execSwFault code secure s
  | .ixRoleConfirm value secure => Sys2Proof.Machine.execIxRoleConfirm value secure s
  | .signalDetect port => Sys2Proof.Machine.execSignalDetect port s
  | .portTrained port iface loss lanes => Sys2Proof.Machine.execPortTrained port iface loss lanes s
  | .hello port h => Sys2Proof.Machine.execHello port h s
  | .mapAdmit port a => Sys2Proof.Machine.execMapAdmit port a s
  | .flitReceived port bytes corrected fecOk fwd => Sys2Proof.Machine.execFlitReceived port bytes corrected fecOk fwd s
  | .replayReq port seq => Sys2Proof.Machine.execReplayReq port seq s
  | .heartbeatSend port => Sys2Proof.Machine.execHeartbeatSend port s
  | .partnerLost port => Sys2Proof.Machine.execPartnerLost port s
  | .lossNotice lost => Sys2Proof.Machine.execLossNotice lost s
  | .mapUpdate port news => Sys2Proof.Machine.execMapUpdate port news s
  | .timeSend port => Sys2Proof.Machine.execTimeSend port s
  | .timePacket port stamp => Sys2Proof.Machine.execTimePacket port stamp s
  | .windowOpenRequest o portSecure => Sys2Proof.Machine.execWindowOpenRequest o portSecure s
  | .windowWritePacket h data portSecure => Sys2Proof.Machine.execWindowWritePacket h data portSecure s
  | .readReq h portSecure => Sys2Proof.Machine.execReadReq h portSecure s
  | .readData h data portSecure => Sys2Proof.Machine.execReadData h data portSecure s
  | .windowAnswer h ack portSecure => Sys2Proof.Machine.execWindowAnswer h ack portSecure s
  | .closeNotice peer window epoch fromIssuer => Sys2Proof.Machine.execCloseNotice peer window epoch fromIssuer s
  | .collectiveChunk group inst rank chunk kind len data stop => Sys2Proof.Machine.execCollectiveChunk group inst rank chunk kind len data stop s
  | .barrierArrival group inst member barrierId secure => Sys2Proof.Machine.execBarrierArrival group inst member barrierId secure s
  | .groupWrite group word value => Sys2Proof.Machine.execGroupWrite group word value s
  | .mapPartitionWrite device value => Sys2Proof.Machine.execMapPartitionWrite device value s
  | .partitionDelivery value => Sys2Proof.Machine.execPartitionDelivery value s
  | .snapAddrWrite w value secure => Sys2Proof.Machine.execSnapAddrWrite w value secure s
  | .registerWrite off size value secure i3c => Sys2Proof.Machine.execRegisterWrite off size value secure i3c s
  | .i3cIbiAck byte => Sys2Proof.Machine.execI3cIbiAck byte s
  | .jtagInstruction code => Sys2Proof.Machine.execJtagInstruction code s
  | .warmrstRelease => Sys2Proof.Machine.execWarmrstRelease s
  | .windowNoticeAnswer window epoch ok status => Sys2Proof.Machine.execWindowNoticeAnswer window epoch ok status s
  | .barrierCompleteNotice group inst mismatch => Sys2Proof.Machine.execBarrierCompleteNotice group inst mismatch s
  | .evtOutPulseEnd pin => Sys2Proof.Machine.execEvtOutPulseEnd pin s
  | .stacksSelfRefreshReturn => Sys2Proof.Machine.execStacksSelfRefreshReturn s
  | .mailboxCommandDone world => Sys2Proof.Machine.execMailboxCommandDone world s
  | .signerTreeRebuilt => Sys2Proof.Machine.execSignerTreeRebuilt s
  | .registerReadLatch off secure i3c => Sys2Proof.Machine.execRegisterReadLatch off secure i3c s
  | .doeRequest object => Sys2Proof.Machine.execDoeRequest object s
  | .maintenanceWindowTimeout req index kind => Sys2Proof.Machine.execMaintenanceWindowTimeout req index kind s

end Sys2Proof.Machine
end

