-- ==== Sys2Proof/Safety.lean ====
section
/-! DEFINITION. What counts as a safe run, in the terms the statements use. -/

namespace Sys2Proof.Machine

/-- The access from outside that a command is, as it waits in Deep (R391): a write or a read of BAR0, a write of BAR2, an access over I3C, a write of the
function mask, a DOE object. BAR4 and CXL.mem, which wake the stacks alone, are not among them. -/
def State.waitsAs (s : State) : Instr → Option HeldAccess
  | .registerWrite off size v secure i3c =>
    some { kind := if i3c then .i3c else .bar0, addr := off, data := natLe size v.toNat, secure := secure && !i3c }
  | .registerReadLatch off secure i3c => some { kind := .read i3c, addr := off, data := [], secure := secure }
  | .telemWrite k p n => some { kind := .i3c, addr := Off.pwr (0x100 + 4 * k), data := natLe 4 (p % 65536 + 2 ^ 16 * (n % 256)), secure := false }
  | .doorbell off size v secure => some { kind := .bar2, addr := off, data := natLe size v.toNat, secure := secure }
  | .msixUnmask _ (some b) => some { kind := .config, addr := 0, data := [BitVec.ofNat 8 b.toNat], secure := false }
  | .msixUnmask v none => some (bar0 (Off.msix v 12) 4 0 false)
  | .doeRequest l => if s.link.up then some { kind := .doe, addr := 0, data := l, secure := false } else none
  | .sqEnable r v secure => if v.getLsbD 0 && !v.getLsbD 1 then some (bar0 (Off.sq r 8) 4 v.toNat secure) else none
  | .sqDisable r v secure => if !v.getLsbD 0 && !v.getLsbD 1 then some (bar0 (Off.sq r 8) 4 v.toNat secure) else none
  | .sqAbort r v secure => if v.getLsbD 1 then some (bar0 (Off.sq r 8) 4 v.toNat secure) else none
  | .ringEnable r v secure => if v.getLsbD 0 then some (bar0 r.ctrlOff 4 v.toNat secure) else none
  | .ringDisable r v secure => if v.getLsbD 0 then none else some (bar0 r.ctrlOff 4 v.toNat secure)
  | .ringHeadWrite r v secure => some (bar0 r.headOff 4 v.toNat secure)
  | .hlCoherentWrite w v => some (bar0 (Off.coherent w) 4 v.toNat false)
  | .memProtWrite n v secure => some (bar0 (Off.memProt n) 8 v.toNat secure)
  | .park v secure => if v.getLsbD 0 then some (bar0 (Off.park 8) 4 v.toNat secure) else none
  | .unpark v secure => if v.getLsbD 1 && !v.getLsbD 0 then some (bar0 (Off.park 8) 4 v.toNat secure) else none
  | .pwrCapWrite v => some (bar0 (Off.pwr 0) 4 v.toNat false)
  | .msTimeSet v secure => some (bar0 (Off.ms 8) 8 v.toNat secure)
  | .getReport w v secure => mailbox Mb.getReport w v secure
  | .getCert w v secure => mailbox Mb.getCert w v secure
  | .recover w v secure => mailbox Mb.recover w v secure
  | .update w v secure _ => mailbox Mb.update w v secure
  | .setupWrite w v secure _ => mailbox Mb.setupWrite w v secure
  | .transfer w v secure => mailbox Mb.transfer w v secure
  | .logRead w v secure => mailbox Mb.logRead w v secure
  | .repairList w v secure => mailbox Mb.repairList w v secure
  | .repairCommit w v secure _ => mailbox Mb.repairCommit w v secure
  | .retire w v secure _ => mailbox Mb.retire w v secure
  | .regionWrite n v secure => some (bar0 (Off.region n) 8 v.toNat secure)
  | .worldMapWrite w v secure => some (bar0 (Off.sec (0x100 + 4 * w)) 4 v.toNat secure)
  | .swFault v secure => some (bar0 (Off.err 0x58) 4 v.toNat secure)
  | .ixRoleConfirm v secure => if v.getLsbD 2 then some (bar0 (Off.ix 0) 4 v.toNat secure) else none
  | .groupWrite g w v => if s.isManager || s.isSub then some (bar0 (Off.grp g (4 * w)) 4 v.toNat false) else none
  | .mapPartitionWrite d v => some (bar0 (Off.map d 8) 8 v.toNat false)
  | .snapAddrWrite w v secure => some (bar0 (Off.snapAddr w) 8 v.toNat secure)
  | _ => none
where
  bar0 (off n v : Nat) (secure : Bool) : HeldAccess := { kind := .bar0, addr := off, data := natLe n v, secure := secure }
  mailbox (code w : Nat) (v : Word) (secure : Bool) : Option HeldAccess :=
    if v.toNat % 256 = code then some (bar0 (Off.mb w 0) 4 v.toNat secure) else none

/-- The cause by which an access ends Rest (R390 Table 3): 0 the host, 4 the board controller, 5 a write of SLEEP_CTRL WAKE. -/
def accessCause : Instr → Nat
  | .registerWrite off _ v _ i3c => if i3c then 4 else writeCause off v.toNat
  | .registerReadLatch _ _ i3c => if i3c then 4 else 0
  | .telemWrite _ _ _ => 4
  | _ => 0

/-- A step that goes on: it answers a next state. The part never stops on a command (R8). -/
def StepsTo (s t : State) : Prop := step s = .next t

/-- A run of the block: some number of steps, each of which goes on. -/
inductive Reaches : State → State → Prop where
  | here (s : State) : Reaches s s
  | there {s t u : State} (h : StepsTo s t) (r : Reaches t u) : Reaches s u

/-- The stores in canonical form: device and host memory and the registers. -/
def State.canonical (s : State) : Bool :=
  Memory.wf s.mem && Memory.wf s.host && swf erasedByte s.flash && swf Regs.resetWord s.regs

/-- No unit of a range of HBM has a stored bit changed that a read has not yet met (R246). -/
def State.noFlips (s : State) (a n : Nat) : Bool := s.hbm.flips.all (fun f => decide (64 * f.1 + 64 ≤ a) || decide (a + n ≤ 64 * f.1))

/-- The toll check admits every line of a range of HBM to an initiator of a world, and no protection error stands in its way (R245, R246,
R414): a write, or a read (`table` for the source of a COPY). -/
abbrev LinesOpen (s : State) (secure write table : Bool) (a n : Nat) : Prop :=
  a + n ≤ 0x00C000000000 ∧ s.noFlips a n = true ∧ ∀ p ∈ linePieces a n, s.toll secure false write table p.1 p.2 = .admitted ∧
    (if write then s.mergeBad p.1 p.2 else s.lineBad p.1 p.2) = false

/-- The toll check admits every line of a range of the scratchpads to an initiator of a world, and no bad word stands in its way (R218,
R232, R234). -/
abbrev BankLinesOpen (s : State) (secure write : Bool) (a n : Nat) : Prop :=
  0x020000000000 ≤ a ∧ a + n ≤ 0x020080000000 ∧ s.noFlips a n = true ∧
    ∀ p ∈ linePieces a n, s.toll secure false write false p.1 p.2 = .admitted ∧
      (if write then s.mergeBad p.1 p.2 else s.lineBad p.1 p.2) = false

/-- The next step `w` of tile `n`, of request `i` (`q`), has an opcode and may issue, its macros neither retired nor invalid (R227, R449), and
what it reads of its stream's state stands in HBM as it was written (R246). -/
def State.ready (s : State) (n op i : Nat) (q : Request) (w : Nat) : Bool :=
  decide (s.frontStep n = some (i, q, w)) && decide (Step.opcode w = op) && s.mayIssue n i q w &&
  (Step.macros w).all (fun m => !s.macRetired n m && !s.macInvalid n m) && decide (s.readState q w = (s, none))

/-- Tile `n` has no step of an opcode to issue and runs exactly one that has work left: `r`, of the running request `q`. -/
def State.runsOnly (s : State) (n op : Nat) (r : RStep) (q : Request) : Bool :=
  (s.frontStep n).all (fun x => decide (Step.opcode x.2.2 ≠ op)) &&
  decide ((s.tile n).running.filter (fun x => decide (Step.opcode x.w = op) && !x.finished) = [r]) &&
  decide (s.req? r.req = some q) && decide (q.phase = .running) && decide (s.parkState < 2)

/-- Where byte `off` of the region a handle names lies, and whether the toll check admits every line of a write of `len` bytes there
for a step of a world (R218, R234). -/
def State.dstAt (s : State) (h off : Nat) : Nat := spBase (hTile h) + (Rg.lo (s.entryOf h) + off)
def State.dstOpen (s : State) (secure : Bool) (h off len : Nat) : Bool :=
  (s.stepRefusal secure true (hTile h) (Rg.lo (s.entryOf h) + off) len).isNone

/-- The running steps of a tile with `r` put in a new state. -/
def State.runningWith (s : State) (n : Nat) (r r2 : RStep) : List RStep :=
  (s.tile n).running.map (fun x => if x = r then r2 else x)

/-- The batch that a close of a world's open leaves forms at this moment (R333). -/
def State.closingBatch (s : State) (w : Nat) (early : Bool) : Batch :=
  { index := (s.auditWorld w).nextBatch, firstSeq := fieldAt ((s.auditWorld w).openLeaves.headD []) 8 8, leaves := (s.auditWorld w).openLeaves,
    opened := (s.auditWorld w).openedAt, closed := s.now, early := early, sig := none }

/-- An idle mailbox takes a command: the write of MB_CMD names it, its world may write there, its length and its pointer are good, and
Table 10 allows it now (R432). -/
def State.asksMb (s : State) (w c : Nat) (arg : Word) (secure : Bool) : Bool :=
  !s.stopped && decide (s.sleep.pkg = .awake) && (decide (w = 0) || (decide (w = 1) && secure)) && !s.regBit (Off.mb w 0x10) 0 &&
  decide (arg.toNat % 256 = c) && Mb.lengthGood c (arg.toNat / 256) && decide (ptrSpace (s.reg64 (Off.mb w 8)) = 1) &&
  decide (bitsAt (s.reg64 (Off.mb w 8)) 52 10 = 0) && s.mbAllowed w c

/-- Whether the host answers a read of the request with an error or with poison. -/
def State.mbHostBad (s : State) (w : Nat) (arg : Word) : Bool := (s.hostStop (ptrAddr (s.reg64 (Off.mb w 8))) (arg.toNat / 256)).isSome

/-- A mailbox takes a command and can read its request. -/
def State.takesMb (s : State) (w c : Nat) (arg : Word) (secure : Bool) : Bool := s.asksMb w c arg secure && !s.mbHostBad w arg

/-- The request's bytes, its result and response as they stand, and a mailbox that runs the command of `arg`. -/
def State.mbRequest (s : State) (w : Nat) (arg : Word) : List Byte := s.hostBytes (ptrAddr (s.reg64 (Off.mb w 8))) (arg.toNat / 256)
def State.mbEntry (s : State) (w : Nat) : Option (Nat × List Byte) :=
  (s.sec.mbox.find? (fun m => decide (m.world = w))).map (fun m => (m.result, m.response))
def State.mbBusy (s : State) (w : Nat) (arg : Word) : Bool :=
  s.regBit (Off.mb w 0x10) 0 && decide (s.reg (Off.mb w 0) = arg.toNat)

/-- What RECOVER and UPDATE answer to an image (R419, R432 Table 9): 0 where it is good. -/
def State.imageResult (s : State) (g : List Byte) : Nat :=
  if g.length ≠ 0x2000 + Fw.length g then 1 else if s.imageSigned g = false then 3 else if Fw.svn g < s.fuses.svnMin then 4 else 0

/-- The writes of MB_CMD, each with its code; `f` is what the flash or the maintenance window answers. -/
def mbCommands (w : Nat) (arg : Word) (secure f : Bool) : List (Nat × Instr) :=
  [(Mb.getReport, .getReport w arg secure), (Mb.getCert, .getCert w arg secure), (Mb.recover, .recover w arg secure),
   (Mb.update, .update w arg secure f), (Mb.setupWrite, .setupWrite w arg secure f), (Mb.transfer, .transfer w arg secure),
   (Mb.logRead, .logRead w arg secure), (Mb.repairList, .repairList w arg secure), (Mb.repairCommit, .repairCommit w arg secure f),
   (Mb.retire, .retire w arg secure f)]

/-- The form of a mailbox request that R432 and R282 ask for: its length and its pointer to host memory. -/
def State.mbForm (s : State) (w c : Nat) (arg : Word) : Bool :=
  Mb.lengthGood c (arg.toNat / 256) && decide (ptrSpace (s.reg64 (Off.mb w 8)) = 1) && decide (bitsAt (s.reg64 (Off.mb w 8)) 52 10 = 0)

/-- Nothing but the mailbox's own state differs between `s` and `t`: its registers, its entry, the time of the last traffic. -/
def State.mbOnly (s : State) (w : Nat) (t : State) : Bool :=
  decide (t = { s with regs := t.regs, sleep := { s.sleep with idleSince := s.now }, sec := { s.sec with mbox := t.sec.mbox } }) &&
  (t.sec.mbox.filter (fun m => decide (m.world ≠ w)) == s.sec.mbox.filter (fun m => decide (m.world ≠ w))) &&
  decide (sdel (sdel t.regs (Off.mb w 0)) (Off.mb w 0x10) = sdel (sdel s.regs (Off.mb w 0)) (Off.mb w 0x10))

/-- The fuses within their numbers: 4,096 epochs (R428), eight owner slots (R417), a thermometer of 64 (R419), 4,096 repair entries
(R451). -/
def Fuses.inBounds (f : Fuses) : Bool :=
  decide (f.epochsBurned ≤ 4096) && decide (f.owners.length ≤ 8) && decide (f.svnMin ≤ 64) && decide (f.repairs.length ≤ 4096)

/-- How a request stands: its phase, its status and its POSITION. -/
def State.standing (s : State) (i : Nat) : Option (ReqPhase × Status × Nat) :=
  (s.req? i).map (fun q => (q.phase, q.status, q.pos))

/-- Every register but those listed reads in `t` as in `s`. -/
def SameRegsBut (l : List Nat) (s t : State) : Prop := ∀ o, o ∉ l → t.reg o = s.reg o

/-- Every byte of device memory outside [lo, hi) reads in `t` as in `s`. -/
def SameMemOutside (lo hi : Nat) (s t : State) : Prop :=
  ∀ a, a < lo ∨ hi ≤ a → sget zeroByte t.mem a = sget zeroByte s.mem a

/-- Every byte of host memory outside [lo, hi) reads in `t` as in `s`. -/
def SameHostOutside (lo hi : Nat) (s t : State) : Prop :=
  ∀ a, a < lo ∨ hi ≤ a → sget zeroByte t.host a = sget zeroByte s.host a

/-- The markers a step of tile n sends when it completes: one for each region of another tile that it writes (R228). -/
def regionMarkers (s : State) (n : Nat) (r : RStep) (order : Nat) : List Marker :=
  ((Step.writes r.w).filter (fun h => decide (hTile h ≠ n) && Rg.isData (s.entryOf h))).map
    (fun h => { dst := hTile h, region := hIdx h, req := r.req, ord := order })

/-- Whether the place of the j-th next record of a circular region admits a record (R229, R231). -/
def recordOpen (s : State) (secure : Bool) (h j len : Nat) : Bool :=
  (s.stepRefusal secure true (hTile h) (Rg.recOff (s.entryOf h) ((s.circNext (hTile h) (Rg.cq (s.entryOf h)) + j) % 2 ^ 32)) len).isNone

/-- A pre-activation of a key after its records are added: from 0 on a keyframe (R158), else from what is stored (R167). -/
def mergedSum (s : State) (q : Request) (pre : Nat) (k : Nat × Nat) (recs : List VergeRec) (layer j : Nat) : Int :=
  (if q.key then 0 else signedOf 32 (s.memNat (pre + 4 * (k.1 * s.prog.cout layer + 64 * k.2) + 4 * j) 4)) +
    sumInt (recs.map (fun v => v.sums.getD j 0))

/-- The drain a due working set of a macro makes for the ledger range of its step (R43, R73, R77): block 0 carries the terms, and a balance
group's members leave theirs to the marker (R145). -/
def setDrain (s : State) (n m : Nat) (j : CimJob) : Drain :=
  { src := n, dst := hTile (Step.dst j.w), region := hIdx (Step.dst j.w), layer := Step.layer j.w, position := j.ledgerPos (s.mac n m).position
    block := (m - Step.mfirst j.w) / s.slicesOf j.w, slice := 0
    terms := if (m - Step.mfirst j.w) / s.slicesOf j.w = 0 ∧ s.balanced j.w = false then (s.mac n m).termsK * Step.k j.w else 0
    tag := Step.tag j.w, req := j.i, ord := j.q.order, final := (s.mac n m).finalDue && !s.balanced j.w, values := (s.mac n m).work }

/-- The registers that sending on the lanes of the ports changes: the credits held and out (R339). -/
def laneRegs : List Nat := (List.range 16).flatMap (fun p => (List.range 4).flatMap (fun v => [Off.cred p v 4, Off.cred p v 8]))

/-- Whether no chunk of a collective's instance has come before this member joined it (R354). -/
def noneEarly (s : State) (g inst : Nat) : Bool := (s.ix.early.filter (fun e => decide (e.group = g) && decide (e.inst = inst))).isEmpty

/-- How a stopped copy ends (R351 to R353, R490): at the lowest refused byte that it has learned of, else for its closed window. -/
def copyStop (q : Request) : Status × Nat :=
  match q.stop with
  | none => (.faultWindowClosed, q.pos)
  | some (st, _, k) => (st, min k q.pos)

/-- Whether packets of a request beside the one answered await their answers. -/
def othersWait (s : State) (x : Txn) (q : Request) : Bool :=
  (s.ix.txns.erase x).any (fun y => decide (y.req = x.req) && decide (y.order = q.order))

/-- The ports by which a packet for another device may leave (R341 to R343): of its world, a foreman's own of either, control and management along
the tree. -/
def forwardPorts (s : State) (f : FwdPacket) : List Nat :=
  s.routePorts f.dst (if f.foreman then none else some f.secure) (f.vl % 4 = 0 || f.vl % 4 = 3)

/-- Whether no leaf of a world that waits on die can be written to its log now: none waits, or the log takes none (R331). -/
def leavesStay (s : State) (w : Nat) : Bool :=
  !s.ringOn (.plog w) || s.ringFull (.plog w) || !s.link.up || (s.auditWorld w).buffer.isEmpty


/-- What the governor of `s` chose in a tick that left `t` (R364 to R366, R368, R370): nothing at a hard thermal limit or in an episode of an
unattainable cap, else its choice from the tick's forecast and what P then is. -/
def State.chosen (t s : State) (g : GovInput) : Option ((Nat × Nat) × (Nat × Nat)) :=
  if s.power.therm = .hardLimit ∨ s.power.therm = .powerOff ∨ s.power.capEpisode = true then none else t.chooseBoth (s.forecast g)

end Sys2Proof.Machine

namespace Sys2Proof

/-- The commands of the pins, which a device held in reset or stopped by its thermal trip takes too: resets, the supply of the
Milestone block, the test port, the acknowledge of an in-band interrupt (R462, R463, R471, R473). -/
def Instr.ofPins : Instr → Bool
  | .porst => true
  | .porstRelease _ _ _ _ _ => true
  | .vddAonLoss => true
  | .jtagInstruction _ => true
  | .i3cIbiAck _ => true
  | _ => false

end Sys2Proof
end

