-- ==== Sys2Proof/WellFormed.lean ====
section
/-! DEFINITION. The well-formed commands: every operand within the range of what it names. -/

namespace Sys2Proof

/-- Submission and completion ring indices (R273). -/
def okRing (r : Nat) : Bool := decide (r < 4160)
/-- Request-table indices (R242). -/
def okReq (i : Nat) : Bool := decide (i < 262144)
/-- Logical tiles, macros, toe-heel units, causeways, stacks (R3, R40, R199, R236). -/
def okTile (n : Nat) : Bool := decide (n < 1024)
def okMacro (m : Nat) : Bool := decide (m < 64)
def okUnit (u : Nat) : Bool := decide (u < 16)
def okCauseway (c : Nat) : Bool := decide (c < 4)
def okStack (k : Nat) : Bool := decide (k < 24)
/-- Irxia ports and devices, UCIe modules, EVT pins, rails, worlds. -/
def okPort (p : Nat) : Bool := decide (p < 16)
def okDevice (d : Nat) : Bool := decide (d < 1024)
def okModule (m : Nat) : Bool := decide (m < 8)
def okPin (p : Nat) : Bool := decide (p < 8)
def okRail (k : Nat) : Bool := decide (k < 10)
def okWorld (w : Nat) : Bool := decide (w < 2)
def okTread (t : Nat) : Bool := decide (t < 2)
/-- A unit that built-in test covers, by event KIND (R442): a tile, a toe-heel unit, or an engine as Eng.causeway numbers them. -/
def okTested (k i : Nat) : Bool :=
  (decide (k = 1) && okTile i) || (decide (k = 2) && okUnit i) || (decide (k = 3) && decide (i < 1312))
/-- An access gives as many bytes as it says when it writes. -/
def okData (write : Bool) (len : Nat) (data : List Byte) : Bool := !write || decide (data.length = len)

/-- The ring a command names exists (R273, R328). -/
def RingId.wf : RingId → Bool
  | .cq c => okRing c
  | .evq w | .erq w | .plog w | .pbat w | .dlog w => okWorld w

/-- The request a command may name. -/
def okReq? : Option Nat → Bool
  | some i => okReq i
  | none => true

/-- A cell of a macro: 256 rows, 606 columns with the spares and the side array (R40, R56). -/
def CellUpset.wf (u : CellUpset) : Bool := decide (u.row < 256) && decide (u.col < 606)

/-- A line of host memory (R282) and a unit of HBM (R11). -/
def Surroundings.wf (e : Surroundings) : Bool := e.hostBad.all (fun l => decide (l < 2 ^ 46)) && e.flips.all (fun f => decide (f.1 < 0x300000000)) &&
  e.bridgeRetries.all (fun c => decide (c < 4)) && e.eccReports.all (fun k => decide (k < 24))

/-- The bases an enumeration writes: 64 bits wide, each a multiple of its BAR's size (R260). -/
def Enumeration.wf (e : Enumeration) : Bool :=
  decide (e.bar0 < 2 ^ 64) && decide (e.bar0 % 2 ^ 26 = 0) && decide (e.bar2 < 2 ^ 64) && decide (e.bar2 % 2 ^ 25 = 0) &&
  decide (e.bar4 < 2 ^ 64) && decide (e.bar4 % 2 ^ 40 = 0) && decide (e.hdmBase < 2 ^ 64)

/-- A link joins two ports of two devices (R341). -/
def IxLink.wf (l : IxLink) : Bool := okDevice l.near && okDevice l.far && okPort l.nearPort && okPort l.farPort

/-- Every operand of a command lies within the range of what it names. -/
def Instr.wf : Instr → Bool
  | .doorbell off size _ _ => decide (off < 0x2000000) && decide (1 ≤ size) && decide (size ≤ 64)
  | .fetchTurn _ => true
  | .descriptorAccept r e => okRing r && e.wf
  | .run i | .loadPass i | .stagingComplete i | .dropPass i | .save i | .restore i | .objectHold i
  | .copy i | .fill i | .digest i | .fence i | .barrier i | .windowOpen i | .windowClose i
  | .remoteCopy i | .collective i | .streamOpen i | .streamClose i | .keyframe i | .nop i
  | .descriptorCompletion i => okReq i
  | .activationStart | .activationComplete => true
  | .activationDrained n => match n with
    | some n => okTile n
    | none => true
  | .test i _ _ => okReq i
  | .msixCoalesceTimeout r | .recordWriteFault r _ => r.wf
  | .msixUnmask v _ => decide (v < 2048)
  | .sqEnable r _ _ | .sqDisable r _ _ | .sqAbort r _ _ => okRing r
  | .ringEnable r _ _ | .ringDisable r _ _ | .ringHeadWrite r _ _ => r.wf
  | .errorHandle | .coherentClearDone => true
  | .hostSnoop _ => true
  | .bar4Access w a n d _ _ => decide (a + n ≤ 2 ^ 40) && decide (1 ≤ n) && okData w n d
  | .cxlMemRequest w _ n d _ => decide (n = 64) && okData w n d
  | .hlCoherentWrite k _ => decide (k < 12288)
  | .cimDense n _ | .cimMatch n _ | .cimScatter n _ | .shank n _ _ | .toeheel n _ | .requant n _
  | .compress n _ | .reduce n _ _ | .scatterMerge n _ | .collect n _ | .waitRange n _ | .seam n _ => okTile n
  | .awlScan n _ _ _ | .endList n | .remoteDrainArrival n _ | .scatterContribution n _ | .spillRotation n
  | .markerArrival n => okTile n
  | .stepComplete n i => okTile n && decide (i < 2048)
  | .invocation n m o => okTile n && okMacro m && o.upsets.all CellUpset.wf
  | .scrubRowRead n m l => okTile n && okMacro m && l.all CellUpset.wf
  | .workingSetSwap n m _ | .scrubCorrection n m | .macroReload n m => okTile n && okMacro m
  | .weightWindowWrite a d _ i => decide (0x020100000000 ≤ a) && decide (a + d.length ≤ 0x020140000000) && okReq? i
  | .weightWindowRead a n _ i => decide (0x020100000000 ≤ a) && decide (a + n ≤ 0x020140000000) && okReq? i
  | .scratchpadAccess w n off k d _ i _ _ =>
    okTile n && decide (off < 0x200000) && decide (1 ≤ k) && decide (k ≤ 64) && okData w k d && okReq? i
  | .circularRecordLanded n q _ => okTile n && decide (q < 16)
  | .scaleRecordComplete i l => okReq i && decide (l < 65536)
  | .toeheelEntryStart u | .toeheelEntryDone u _ => okUnit u
  | .chunkDeal c => okCauseway c
  | .digestChunk i l _ => okReq i && decide (l < 65536)
  | .batchClose w => okWorld w
  | .stackReady k _ | .stackFailed k | .stackTempRead k _ => okStack k
  | .patrolScrub u _ => decide (u < 0x00C000000000 / 64)
  | .memProtWrite n _ _ => decide (n < 8)
  | .memProtDone n => decide (n < 8)
  | .laneError m => okModule m
  | .moduleUp m _ r => okModule m && decide (r < 6)
  | .linkRetrain m h _ => decide (m < 256) && decide (h < 256)
  | .linkDown | .ideFault => true
  | .linkReady m h r f _ e => decide (m < 256) && decide (h < 256) && decide (r < 6) && decide (f < 256) && e.wf
  | .park _ _ | .unpark _ _ | .parkComplete | .parkStepTimeout | .resumeFromPark => true
  | .governorTick g => g.acts.all (fun a => decide (a.counts.length = 8) && decide (a.tread ≤ 2) && (a.req.map okReq).getD true)
  | .pwrCapWrite _ => true
  | .railArrived t => okTread t
  | .vrAlertAssert | .vrAlertRelease | .vrAlertHoldEnd | .vrPark => true
  | .thermalSensorRead rs => rs.all (fun r => decide (r.kind < 10) && decide (r.temp < 256))
  | .thermalPowerOff | .thermtrip | .reconcile | .divergenceDeclare | .divergenceClear
  | .coefficientRefit => true
  | .telemWrite k _ _ | .telemStale k => okRail k
  | .capUnattainable | .assignmentReceived _ | .assignmentTimeout => true
  | .systemPowerAssign rs => rs.all (fun r => okDevice r.1)
  | .ppsEdge _ | .ppsHoldover | .msTimeSet _ _ | .refLost => true
  | .tileDoze n | .tileNap n | .tileWake n | .napBurstScrub n => okTile n
  | .restEntry | .deepEntry | .sleepWake _ => true
  | .packageWake c => decide (c < 6)
  | .evtEdge p _ _ | .evtWindowEnd p | .evtStuck p | .evtUnstuck p => okPin p
  | .evtOutPulse p | .evtOutPulseEnd p => decide (p < 4)
  | .unitReady k i c => decide (k < 10) && decide (i < 1024) && decide (c < 4)
  | .powerOnTestBatch t b _ _ trim points => okTread t && decide (b < 17) && decide (trim ≤ 16) && decide (points < 256)
  | .bringupSettled | .porst | .warmrst | .vddAonLoss | .warmrstRelease => true
  | .supplyFault k => okRail k
  | .porstRelease r b _ _ _ => decide (r < 4) && decide (b < 4)
  | .secureBootComplete bad => bad.all (fun n => decide (n < 4096))
  | .getReport w _ _ | .getCert w _ _ | .recover w _ _ | .update w _ _ _ | .setupWrite w _ _ _
  | .transfer w _ _ | .logRead w _ _ | .repairList w _ _ | .repairCommit w _ _ _ | .retire w _ _ _
  | .mailboxCommandDone w => okWorld w
  | .regionWrite n _ _ => decide (n < 1024)
  | .regionChangeDone | .signerTreeRebuilt => true
  | .worldMapWrite k _ _ => decide (k < 48)
  | .worldChangeApply b => decide (b < 1312)
  | .lbistSlice k i _ | .lbistResult k i _ => okTested k i
  | .tileMove n _ => okTile n
  | .swFault _ _ | .ixRoleConfirm _ _ => true
  | .signalDetect p | .replayReq p _ | .heartbeatSend p | .partnerLost p | .timeSend p
  | .timePacket p _ => okPort p
  | .portTrained p i _ lanes => okPort p && decide (i < 3) && lanes.all (fun l => decide (l < 4))
  | .hello p h => okPort p && okDevice h.device && okPort h.port && decide (h.keyDigest.length = 32) && decide (h.portsUp < 2 ^ 16)
  | .mapAdmit p a => okPort p && okDevice a.number && okDevice a.parent && okPort a.parentPort && okPort a.port
  | .flitReceived p bs _ _ fwd => okPort p && decide (bs.length = 256) && fwd.all (fun f => okDevice f.src && okDevice f.dst && !f.bytes.isEmpty)
  | .lossNotice l => l.all okDevice
  | .mapUpdate p n => okPort p && n.lost.all okDevice && n.devices.all (fun d => okDevice d.1) && n.links.all IxLink.wf
  | .windowOpenRequest o _ => okDevice o.src && decide (o.window < 256)
  | .windowWritePacket h d _ => okDevice h.src && decide (h.window < 256) && decide (d.length = h.len)
  | .readReq h _ | .windowAnswer h _ _ => okDevice h.src && decide (h.window < 256)
  | .readData h d _ => okDevice h.src && decide (h.window < 256) && decide (d.length = h.len)
  | .closeNotice p w _ _ => okDevice p && decide (w < 256)
  | .windowNoticeAnswer w _ _ _ => decide (w < 256)
  | .collectiveChunk g _ r _ k _ _ _ => decide (g < 256) && okDevice r && decide (k < 256)
  | .barrierArrival g _ m _ _ => decide (g < 256) && okDevice m
  | .barrierCompleteNotice g _ _ => decide (g < 256)
  | .groupWrite g k _ => decide (g < 256) && decide (k < 32)
  | .mapPartitionWrite d _ => okDevice d
  | .partitionDelivery _ => true
  | .snapAddrWrite w _ _ => okWorld w
  | .registerWrite off n _ _ _ => decide (off < 0x4000000) && decide (1 ≤ n) && decide (n ≤ 8)
  | .registerReadLatch off _ _ => decide (off < 0x4000000)
  | .i3cIbiAck b => decide (b < 256)
  | .jtagInstruction c => decide (c < 256)
  | .stacksSelfRefreshReturn => true
  | .doeRequest o => decide (0 < o.length)
  | .maintenanceWindowTimeout i _ k => okReq i && decide (k < 10)

end Sys2Proof
end

