-- ==== Sys2Proof/Certificates/Slice0/Obligations.lean ====
section
/-! DEFINITION. The statements for the provers. Each says for which states and operands a command completes, what it leaves
in the next state and what it leaves alone. -/

open Sys2Proof Sys2Proof.Machine

/-! ### The queue and the step -/

/-- TIER 1. A step takes the command at the front of the queue and runs it with the queue's rest. -/
def Obligations.StepRunsTheFrontCommand : Prop :=
  ∀ (c : Instr) (rest : List Instr) (s : State), s.pending = c :: rest →
    step s = exec c { s with pending := rest }

/-- TIER 1. An empty queue (the model's choice, log entry 1): one period of the reference clock passes. Time advances by the rate
word, or by 30,517.578125 ns where the reference has stopped (R383, R385), fraction included and modulo 2^64 ns, and nothing else
changes; while PORST_N is low nothing changes. -/
def Obligations.EmptyQueueTicksTheReferenceClock : Prop :=
  ∀ s : State, s.pending = [] → ∃ t, step s = .next t ∧
    (s.pins.porstLow = true → t = s) ∧
    (s.pins.porstLow = false → s.clock.frac < 2 ^ 32 →
      t = { s with clock := { s.clock with ns := t.clock.ns, frac := t.clock.frac } } ∧ t.clock.frac < 2 ^ 32 ∧
      t.clock.ns * 2 ^ 32 + t.clock.frac =
        (s.clock.ns * 2 ^ 32 + s.clock.frac + (if s.clock.refOk then s.clock.rate else 131072000000000)) % 2 ^ 96)

/-- TIER 2. Every command answers a next state, whatever the state is: the part never stops on a command (R8), and a command
leaves the queue's rest as it is, first in first out. No register write that a mover's line made (R482) is left over between commands, as at reset. -/
def Obligations.EveryCommandGoesOnAndKeepsTheQueue : Prop :=
  ∀ (c : Instr) (s : State), ∃ t, exec c s = .next t ∧ t.pending = s.pending ∧ (s.regWrites = [] → t.regWrites = [])

/-! ### Time (R383 to R385) -/

/-- TIER 2. PPS_EDGE, PPS_HOLDOVER, MS_TIME_SET, REF_LOST (R384, R385, R438). An edge of PPS_IN on a device that follows no manager is compared
with the nearest whole second: it steps the time by the error above 1 µs and else changes the rate word by at most 50 ppm of 40 ns; it is locked
from the third edge in a row within 20 ns; 1.5 s without an edge set HOLDOVER and keep the rate word. A write of MS_TIME_SET by the secure world
sets the time, counts in MS_STEPS and gives MS_LAST_STEP the signed size, or on an attached worker is ignored and counted in MS_STEPS_REFUSED.
The first loss of the reference sets REF_LOST, the counter from then on running on the Milestone clock, and is a fatal error filed in both
worlds. Each clause names all that may change. -/
def Obligations.TimeIsDisciplinedFromOneSource : Prop :=
  (∀ (after : Nat) (s : State) (error : Int), s.stopped = false → s.follows = false → s.pinsLive = true →
    -500000000 ≤ error → error < 500000000 → ((s.stamp after : Int) + error) % 1000000000 = 0 →
    s.clock.rate ≤ nominalRate + nominalRate / 20000 → nominalRate - nominalRate / 20000 ≤ s.clock.rate →
    ∃ t, exec (.ppsEdge after) s = .next t ∧
      t = { s with regs := t.regs, clock := t.clock, free := t.free } ∧
      SameRegsBut [Off.ms 0x10, Off.ms 0x14, Off.ms 0x18, Off.ms 0x20, Off.ms 0x24] s t ∧
      t.clock.ppsLast = t.clock.ns ∧ t.reg (Off.ms 0x14) = twos 32 error ∧
      (1000 < error.natAbs → t.clock.ns = (((s.clock.ns : Int) + error) % 2 ^ 64).toNat ∧ t.clock.rate = s.clock.rate ∧
        t.reg (Off.ms 0x18) = (s.reg (Off.ms 0x18) + 1) % 2 ^ 32 ∧ t.reg64 (Off.ms 0x20) = twos 64 error) ∧
      (error.natAbs ≤ 1000 → t.clock.ns = s.clock.ns ∧ t.reg (Off.ms 0x18) = s.reg (Off.ms 0x18) ∧
        nominalRate - nominalRate / 20000 ≤ t.clock.rate ∧ t.clock.rate ≤ nominalRate + nominalRate / 20000) ∧
      t.regBits (Off.ms 0x10) 0 2 = 1 ∧
      (t.regBit (Off.ms 0x10) 2 = true ↔ error.natAbs ≤ 20 ∧ 2 ≤ s.clock.ppsGood)) ∧
  (∀ s : State, s.stopped = false → s.regBits (Off.ms 0x10) 0 2 = 1 → s.clock.ppsLast + 1500000000 ≤ s.now →
    ∃ t, exec .ppsHoldover s = .next t ∧ t = { s with regs := t.regs, clock := t.clock } ∧
      t.clock = { s.clock with ppsGood := 0 } ∧ t.regBit (Off.ms 0x10) 3 = true ∧
      SameRegsBut [Off.ms 0x10] s t) ∧
  (∀ (v : DWord) (s : State), s.stopped = false → s.sleep.pkg = .awake →
    ∃ t, exec (.msTimeSet v true) s = .next t ∧
      t = { s with regs := t.regs, clock := t.clock, sleep := t.sleep, holds := t.holds } ∧
      (s.follows = false → t.clock = { s.clock with ns := v.toNat } ∧
        t.reg (Off.ms 0x18) = (s.reg (Off.ms 0x18) + 1) % 2 ^ 32 ∧
        t.reg64 (Off.ms 0x20) = twos 64 ((v.toNat : Int) - s.clock.ns) ∧ t.reg (Off.ms 0x1C) = s.reg (Off.ms 0x1C)) ∧
      (s.follows = true → t.clock = s.clock ∧ t.reg (Off.ms 0x1C) = (s.reg (Off.ms 0x1C) + 1) % 2 ^ 32 ∧
        SameRegsBut [Off.ms 0x1C] s t)) ∧
  (∀ s : State, s.stopped = false → s.clock.refOk = true →
    ∃ t, exec .refLost s = .next t ∧
      t = { s with regs := t.regs, clock := { s.clock with refOk := false }, errs := t.errs } ∧
      t.regBit (Off.ms 0x10) 4 = true ∧
      (∃ a ∈ t.errs.onDieNs, a ∈ t.errs.queue ++ t.errs.overflow ∧ a.reason = .refLost ∧ a.reason.cls = 3 ∧ a.world = 0 ∧
        a.time = s.now ∧ a.handled = false) ∧
      (∃ b ∈ t.errs.onDieS, b ∈ t.errs.queue ++ t.errs.overflow ∧ b.reason = .refLost ∧ b.world = 1 ∧ b.time = s.now ∧
        b.handled = false) ∧
      t.reg (Off.err 0x1C) = (s.reg (Off.err 0x1C) + 2) % 2 ^ 32)

/-! ### Sleep of tiles (R388) -/

/-- TIER 2. TILE_DOZE, TILE_NAP, TILE_WAKE, NAP_BURST_SCRUB (R388). While the package is awake, a backed tile without a step issued or queued for
64 fabric cycles enters Doze; after NAP_US µs of Doze, unless NAP_US is 0, it enters Nap; a wake makes it awake. Only that tile's sleep state,
the note that its frame gap ended with its Doze (R443), and SLEEP_STATUS change. The burst scrub of a napping tile leaves it napping, reads every
row of every macro that is not retired, and sets MAC_SCRUB_LAST to the present time; where every row agrees with its check words nothing else
changes. -/
def Obligations.TilesDozeNapWakeAndScrub : Prop :=
  (∀ (n : Nat) (s : State), s.stopped = false → s.unbacked n = false → (s.tile n).sleep = .awake → s.tileIdle n = true →
    s.sleep.pkg = .awake → s.cycles64 (n / 512) (max (s.tile n).lastStep (s.tile n).sleepSince) = true →
    ∃ t, exec (.tileDoze n) s = .next t ∧ t = { s with regs := t.regs, tiles := t.tiles } ∧ SameRegsBut [Off.ms 0x38] s t ∧
      t.tile n = { s.tile n with sleep := .doze, sleepSince := s.now } ∧ (∀ k, k ≠ n → t.tile k = s.tile k)) ∧
  (∀ (n : Nat) (s : State), s.stopped = false → (s.tile n).sleep = .doze → s.napUs ≠ 0 →
    (s.tile n).sleepSince + s.napUs * 1000 ≤ s.now → (s.tile n).testing = false → s.sleep.pkg = .awake →
    ∃ t, exec (.tileNap n) s = .next t ∧ t = { s with regs := t.regs, tiles := t.tiles } ∧ SameRegsBut [Off.ms 0x38] s t ∧
      t.tile n = { s.tile n with sleep := .nap, sleepSince := s.now, gapLast := if s.mateTested n then (s.tile n).gapLast else s.now } ∧ (∀ k, k ≠ n → t.tile k = s.tile k)) ∧
  (∀ (n : Nat) (s : State), s.stopped = false → (s.tile n).sleep ≠ .awake → s.sleep.pkg = .awake →
    ∃ t, exec (.tileWake n) s = .next t ∧ t = { s with regs := t.regs, tiles := t.tiles } ∧ SameRegsBut [Off.ms 0x38] s t ∧
      t.tile n = { s.tile n with sleep := .awake, sleepSince := s.now, gapLast :=
        if (s.tile n).sleep = .doze ∧ s.mateTested n = false then s.now else (s.tile n).gapLast } ∧ (∀ k, k ≠ n → t.tile k = s.tile k)) ∧
  (∀ (n : Nat) (s : State), n < 1024 → s.stopped = false → (s.tile n).sleep = .nap → s.unbacked n = false → s.sleep.pkg = .awake →
    (∀ m, m < 64 → s.macRetired n m = false ∧ (s.mac n m).passCorr = 0) →
    (∀ m, m < 64 → ∀ r, r < 256 → (s.cellRow n m r).fixes = [] ∧ (s.cellRow n m r).badWords = 0) →
    ∃ t, exec (.napBurstScrub n) s = .next t ∧ t = { s with regs := t.regs, tiles := t.tiles, macros := t.macros } ∧
      SameRegsBut [Off.tile n 0x228, Off.tile n 0x22C] s t ∧ t.reg64 (Off.tile n 0x228) = s.now % 2 ^ 64 ∧
      (t.tile n).sleep = .nap ∧
      (∀ m, m < 64 → (s.mac n m).reload = false → (t.mac n m).scrubStart = s.now) ∧
      (∀ m, m < 64 → (t.mac n m).scrubRow = (s.mac n m).scrubRow % 256)) ∧
  (∀ (n : Nat) (s : State), n < 1024 → s.stopped = false → (s.tile n).sleep = .nap → s.unbacked n = false → s.sleep.pkg = .awake →
    ∃ t, exec (.napBurstScrub n) s = .next t ∧ t.reg64 (Off.tile n 0x228) = s.now % 2 ^ 64 ∧ (t.tile n).sleep = .nap ∧
      (∀ k, k ≠ n → t.tile k = s.tile k) ∧ t.reqs = s.reqs ∧ t.passes = s.passes ∧
      (∀ m, m < 64 → s.macRetired n m = false → (t.mac n m).scrubRow = (s.mac n m).scrubRow % 256 ∧ (t.mac n m).passCorr = 0))

/-! ### The EVT pins (R392 to R396) -/

/-- TIER 2. EVT_EDGE and EVT_WINDOW_END (R383, R392, R393, R395). Outside Deep an edge that the pin's configuration selects adds 1 to EVT_COUNTi
and leaves its time in EVT_LASTi, stamped within the tick while the package is awake and at the tick's boundary in Rest; one less than 20 ns
after the last counted edge, in the same window of 1 µs of system time, makes that window an overrun window. Another edge leaves both registers
alone. The latch of a pin with WAKE_EN that is not masked catches every edge, counted or not, in every state. In Deep it records the first
counted edge, and the counts stand. Nothing but the pin and its two registers changes. An overrun window that has ended, outside Deep, counts in
EVT_OVR_WINDOWSi; the event is posted at the first one and then only after 1 ms without one. -/
def Obligations.CountedEdgesAndOverrunsAreCounted : Prop :=
  (∀ (i after : Nat) (rising : Bool) (s : State), i < 8 → s.stopped = false → s.pinsLive = true → s.inDeep = false →
    s.evtCounts i rising = true →
    ∃ t, exec (.evtEdge i rising after) s = .next t ∧ t = { s with regs := t.regs, sleep := t.sleep } ∧
      t.sleep = { s.sleep with pins := t.sleep.pins } ∧
      SameRegsBut [Off.evt i 4, Off.evt i 0x10, Off.evt i 0x14] s t ∧ t.reg (Off.evt i 4) = (s.reg (Off.evt i 4) + 1) % 2 ^ 32 ∧
      t.reg64 (Off.evt i 0x10) = s.stamp after % 2 ^ 64 ∧ (s.sleep.pkg = .rest → s.stamp after = s.now) ∧
      t.evtPin i = { s.evtPin i with
        level := rising
        levelSince := s.stamp after
        latched := (s.evtPin i).latched || s.evtWakes i
        lastEdge := some (s.stamp after)
        overruns := (t.evtPin i).overruns } ∧
      (∀ w, w ∈ (t.evtPin i).overruns ↔ w ∈ (s.evtPin i).overruns ∨
        w = s.stamp after / 1000 ∧ ∃ u, (s.evtPin i).lastEdge = some u ∧ u / 1000 = w ∧ u ≤ s.stamp after ∧ s.stamp after < u + 20) ∧
      (∀ k, k ≠ i → t.evtPin k = s.evtPin k)) ∧
  (∀ (i after : Nat) (rising : Bool) (s : State), s.stopped = false → s.pinsLive = true → s.evtCounts i rising = false →
    ∃ t, exec (.evtEdge i rising after) s = .next t ∧ t = { s with sleep := t.sleep } ∧ t.sleep = { s.sleep with pins := t.sleep.pins } ∧
      t.evtPin i = { s.evtPin i with
        level := rising
        levelSince := s.stamp after
        latched := (s.evtPin i).latched || (s.evtWakes i && !s.regBit (Off.evt i 0) 5) } ∧
      (∀ k, k ≠ i → t.evtPin k = s.evtPin k)) ∧
  (∀ (i after : Nat) (rising : Bool) (s : State), s.stopped = false → s.pinsLive = true → s.inDeep = true → s.evtCounts i rising = true →
    ∃ t, exec (.evtEdge i rising after) s = .next t ∧ t = { s with sleep := t.sleep } ∧ t.sleep = { s.sleep with pins := t.sleep.pins } ∧
      (t.evtPin i).latched = ((s.evtPin i).latched || s.evtWakes i) ∧ (t.evtPin i).deepEdge = ((s.evtPin i).deepEdge || s.evtWakes i) ∧
      (t.evtPin i).lastEdge = (if s.evtWakes i = true ∧ (s.evtPin i).deepEdge = false then some s.now else (s.evtPin i).lastEdge) ∧
      (∀ k, k ≠ i → t.evtPin k = s.evtPin k)) ∧
  (∀ (i w : Nat) (rest : List Nat) (s : State), i < 8 → s.stopped = false → s.inDeep = false → (s.evtPin i).overruns = w :: rest →
    1000 * (w + 1) ≤ s.now → ((s.evtPin i).lastOverrun.map (· + 1000000)).getD 0 ≤ 1000 * w → s.parkState ≠ 2 →
    ∃ t, exec (.evtWindowEnd i) s = .next t ∧
      t.reg (Off.evt i 8) = (s.reg (Off.evt i 8) + 1) % 2 ^ 32 ∧
      t.evtPin i = { s.evtPin i with overruns := rest, lastOverrun := some (1000 * (w + 1)) } ∧
      (∀ w ∈ [0, 1], t.reg (Off.wrb w 0x18) = (s.reg (Off.wrb w 0x18) + 1) % 2 ^ 32) ∧
      t = { s with regs := t.regs, host := t.host, link := t.link, rings := t.rings, sleep := t.sleep, out := t.out }) ∧
  (∀ (i w last : Nat) (rest : List Nat) (s : State), i < 8 → s.stopped = false → s.inDeep = false → (s.evtPin i).overruns = w :: rest →
    1000 * (w + 1) ≤ s.now → (s.evtPin i).lastOverrun = some last → 1000 * w < last + 1000000 →
    ∃ t, exec (.evtWindowEnd i) s = .next t ∧ t.reg (Off.evt i 8) = (s.reg (Off.evt i 8) + 1) % 2 ^ 32 ∧
      t.evtPin i = { s.evtPin i with overruns := rest, lastOverrun := some (1000 * (w + 1)) } ∧
      SameRegsBut [Off.evt i 8] s t ∧ t = { s with regs := t.regs, sleep := t.sleep })

/-- TIER 2. EVT_STUCK and EVT_UNSTUCK (R394), and EVT_EDGE on a masked pin. A pin at its active level for STUCK_MS ms, not 0, is stuck: EVT_STUCK
is posted in both worlds and MASKED is set; with STUCK_MS 0 no pin is stuck. No edge of a masked pin, the one that ends the stuck level included,
is counted or latched to wake. 1 ms at the inactive level clears the mask. -/
def Obligations.StuckPinsAreMaskedUntilTheyRest : Prop :=
  (∀ (i : Nat) (s : State), i < 8 → s.stopped = false → s.regBits (Off.evt i 0) 16 16 ≠ 0 → s.regBit (Off.evt i 0) 5 = false →
    (s.evtPin i).level = s.regBit (Off.evt i 0) 3 → (s.evtPin i).levelSince + s.regBits (Off.evt i 0) 16 16 * 1000000 ≤ s.now → s.parkState ≠ 2 →
    ∃ t, exec (.evtStuck i) s = .next t ∧ t.regBit (Off.evt i 0) 5 = true ∧
      (∀ w ∈ [0, 1], t.reg (Off.wrb w 0x18) = (s.reg (Off.wrb w 0x18) + 1) % 2 ^ 32) ∧
      t = { s with regs := t.regs, host := t.host, link := t.link, rings := t.rings, out := t.out }) ∧
  (∀ (i : Nat) (s : State), i < 8 → s.stopped = false → s.regBit (Off.evt i 0) 5 = true →
    (s.evtPin i).level = !s.regBit (Off.evt i 0) 3 → (s.evtPin i).levelSince + 1000000 ≤ s.now →
    ∃ t, exec (.evtUnstuck i) s = .next t ∧ t.regBit (Off.evt i 0) 5 = false ∧ SameRegsBut [Off.evt i 0] s t ∧
      t = { s with regs := t.regs }) ∧
  (∀ (i : Nat) (s : State), s.stopped = false → s.regBits (Off.evt i 0) 16 16 = 0 → exec (.evtStuck i) s = .next s) ∧
  (∀ (i after : Nat) (rising : Bool) (s : State), s.stopped = false → s.pinsLive = true → s.regBit (Off.evt i 0) 5 = true →
    ∃ t, exec (.evtEdge i rising after) s = .next t ∧ t = { s with sleep := { s.sleep with pins := t.sleep.pins } } ∧
      t.evtPin i = { s.evtPin i with level := rising, levelSince := s.stamp after } ∧ (∀ k, k ≠ i → t.evtPin k = s.evtPin k))

/-- TIER 2. EVT_OUT_PULSE and EVT_OUT_PULSE_END (R396). In MODE 1 one pulse starts at EVTO_TIMEj; in MODE 2 pulse k starts at EVTO_TIMEj + k ·
PERIOD µs, each in the tick that holds its programmed time; WIDTH ns after its start the pin is idle again. A pulse starts at no other time: not
before, not when its time is past, not twice, and none in MODE 0, whose static level ends by no pulse. -/
def Obligations.EvtOutPulsesFollowTheProgrammedTime : Prop :=
  (∀ (j k : Nat) (s : State), s.stopped = false → s.pinsLive = true →
    (s.regBits (Off.evto j 0) 0 2 = 1 ∧ k = 0 ∨ s.regBits (Off.evto j 0) 0 2 = 2) → s.pulses j ≤ k →
    s.now ≤ s.reg64 (Off.evto j 8) + k * (max 1 (s.reg (Off.evto j 4)) * 1000) →
    s.reg64 (Off.evto j 8) + k * (max 1 (s.reg (Off.evto j 4)) * 1000) < s.now + s.tickNs →
    k = s.pulses j ∨ s.reg64 (Off.evto j 8) + (k - 1) * (max 1 (s.reg (Off.evto j 4)) * 1000) < s.now →
    ∃ t, exec (.evtOutPulse j) s = .next t ∧ t = { s with sleep := t.sleep, out := t.out } ∧ t.out = s.out ++ [.evtPulse j] ∧
      t.sleep = { s.sleep with outHigh := t.sleep.outHigh, outStart := t.sleep.outStart, outPulses := t.sleep.outPulses } ∧
      j ∈ t.sleep.outHigh ∧ (∀ l, l ≠ j → (l ∈ t.sleep.outHigh ↔ l ∈ s.sleep.outHigh)) ∧
      tget t.sleep.outStart j = some (s.reg64 (Off.evto j 8) + k * (max 1 (s.reg (Off.evto j 4)) * 1000)) ∧
      t.pulses j = k + 1 ∧ (∀ l, l ≠ j → t.pulses l = s.pulses l)) ∧
  (∀ (j start : Nat) (s : State), s.stopped = false → j ∈ s.sleep.outHigh → s.regBits (Off.evto j 0) 0 2 ≠ 0 →
    tget s.sleep.outStart j = some start → start + s.regBits (Off.evto j 0) 8 24 < s.now + s.tickNs →
    ∃ t, exec (.evtOutPulseEnd j) s = .next t ∧ t = { s with sleep := { s.sleep with outHigh := t.sleep.outHigh } } ∧
      j ∉ t.sleep.outHigh ∧ (∀ k, k ≠ j → (k ∈ t.sleep.outHigh ↔ k ∈ s.sleep.outHigh))) ∧
  (∀ (j : Nat) (s : State), exec (.evtOutPulse j) s = .next s ∨
    ∃ k, (s.regBits (Off.evto j 0) 0 2 = 1 ∧ k = 0 ∨ s.regBits (Off.evto j 0) 0 2 = 2) ∧ s.pulses j ≤ k ∧
      s.now ≤ s.reg64 (Off.evto j 8) + k * (max 1 (s.reg (Off.evto j 4)) * 1000) ∧
      s.reg64 (Off.evto j 8) + k * (max 1 (s.reg (Off.evto j 4)) * 1000) < s.now + s.tickNs) ∧
  (∀ (j : Nat) (s : State), s.stopped = false → s.regBits (Off.evto j 0) 0 2 = 0 → exec (.evtOutPulseEnd j) s = .next s)

/-! ### Rest and Deep (R387 to R391) -/

/-- TIER 2. REST_ENTRY and DEEP_ENTRY (R389). With REST_EN, bring-up settled, RQ_INUSE 0, no park and REST_MS ms without traffic an awake package
enters Rest; with DEEP_EN, DEEP_S s in Rest and IX_PORTS_UP 0 it goes on to Deep, where HBM content survives (R391). SLEEP_STATUS and
SLEEP_ENTRIES say so. -/
def Obligations.PackageEntersRestAndDeep : Prop :=
  (∀ s : State, s.stopped = false → s.sleep.pkg = .awake → s.restEn = true → s.regBit (Off.rdy 0) 2 = true → s.reg Off.rqInuse = 0 →
    s.parkState = 0 → s.sleep.idleSince + s.restMs * 1000000 ≤ s.now →
    ∃ t, exec .restEntry s = .next t ∧ t = { s with regs := t.regs, hbm := t.hbm, sleep := t.sleep } ∧
      t.sleep.pkg = .rest ∧ t.sleep.since = s.now ∧ (∀ i, (t.evtPin i).latched = false ∧ (t.evtPin i).deepEdge = false) ∧ t.hbm = { s.hbm with ctxCache := [] } ∧ t.regBits (Off.ms 0x38) 0 3 = 3 ∧
      t.regBits (Off.ms 0x3C) 0 16 = (s.regBits (Off.ms 0x3C) 0 16 + 1) % 2 ^ 16 ∧ SameRegsBut [Off.ms 0x38, Off.ms 0x3C] s t) ∧
  (∀ s : State, s.stopped = false → s.sleep.pkg = .rest → s.deepEn = true → s.sleep.since + s.deepS * 1000000000 ≤ s.now →
    s.reg (Off.ix 0xC) = 0 →
    ∃ t, exec .deepEntry s = .next t ∧
      t = { s with regs := t.regs, sleep := t.sleep, mem := t.mem, tiles := t.tiles, macros := t.macros } ∧
      t.sleep.pkg = .deep ∧ t.sleep.since = s.now ∧ t.regBits (Off.ms 0x38) 0 3 = 4 ∧
      t.regBits (Off.ms 0x3C) 16 16 = (s.regBits (Off.ms 0x3C) 16 16 + 1) % 2 ^ 16 ∧ SameRegsBut [Off.ms 0x38, Off.ms 0x3C] s t ∧
      SameMemOutside 0x020000000000 0x020140000000 s t)

/-- TIER 2. PACKAGE_WAKE, SLEEP_WAKE and STACKS_SELF_REFRESH_RETURN (R390, R391, R395). Any command that is an access of the host or of the board
controller ends Rest first and then acts as in the woken package; so do a write of WAKE and an EVT edge latched on a pin with WAKE_EN.
MS_WAKE_CAUSE names the cause and the pins latched. In Deep such an access waits in order and changes nothing else, and the wake it causes
performs it; a CXL.mem or BAR4 access wakes the stacks alone from Rest, which return to self-refresh after 1 ms; an Irxia flit ends no Deep. A
wake from Deep counts 1 for each latched edge, in EVT_COUNTi and EVT_WAKE_GAPSi. -/
def Obligations.WakeCausesEndRestAndDeep : Prop :=
  (∀ (c : Instr) (x : HeldAccess) (s : State), s.stopped = false → s.sleep.pkg = .rest → s.waitsAs c = some x →
    exec c s = exec c (s.awaken (accessCause c))) ∧
  (∀ (cause : Nat) (s : State), s.sleep.pkg = .rest →
    (s.awaken cause).sleep.pkg = .awake ∧ (s.awaken cause).regBits (Off.ms 0x38) 0 3 = 0 ∧
    (s.awaken cause).reg (Off.ms 0x2C) = (2 ^ cause + 2 ^ 8 * ofSetBits ((List.range 8).filter (fun i => (s.evtPin i).latched))) % 2 ^ 32 ∧
    (∀ i, i < 8 → ((s.awaken cause).evtPin i).latched = false) ∧ (∀ n, s.unbacked n = false → ((s.awaken cause).tile n).sleep = .nap) ∧
    (∀ a, a < 0x020100000000 → sget zeroByte (s.awaken cause).mem a = sget zeroByte s.mem a) ∧ (s.awaken cause).reqs = s.reqs) ∧
  (∀ s : State, s.stopped = false → s.sleep.pkg = .rest → (∃ i, i < 8 ∧ (s.evtPin i).latched = true ∧ s.evtWakes i = true) →
    exec (.packageWake 3) s = .next (s.awaken 3)) ∧
  (∀ (cause : Nat) (s : State), s.stopped = false → cause ≠ 3 → s.sleep.deepWrites = [] → s.link.waiting = [] →
    exec (.packageWake cause) s = .next s) ∧
  (∀ (c : Instr) (x : HeldAccess) (s : State), s.stopped = false → s.sleep.pkg = .deep → s.waitsAs c = some x →
    ∃ t, exec c s = .next t ∧ t = { s with
        holds := t.holds
        sleep := { s.sleep with
          idleSince := if accessCause c = 4 then s.sleep.idleSince else s.now
          deepWrites := s.sleep.deepWrites ++ [x] } }) ∧
  (∀ s : State, s.stopped = false → s.sleep.pkg = .deep → exec (.packageWake 2) s = .next s) ∧
  (∀ (cause : Nat) (s : State), s.stopped = false → s.sleep.pkg = .deep → s.causeStands cause = true →
    ∃ t, exec (.packageWake cause) s = .next t ∧ t.sleep.pkg = .awake ∧ t.sleep.deepWrites = []) ∧
  (∀ s : State, s.stopped = false → s.sleep.pkg = .deep → s.sleep.deepWrites = [] → s.link.waiting = [] → s.genActive = 0 →
    (∃ i, i < 8 ∧ (s.evtPin i).latched = true ∧ s.evtWakes i = true) →
    ∃ t, exec (.packageWake 3) s = .next t ∧ t.sleep.pkg = .awake ∧
      (∀ i, i < 8 → (s.evtPin i).deepEdge = true →
        t.reg (Off.evt i 4) = (s.reg (Off.evt i 4) + 1) % 2 ^ 32 ∧ t.reg (Off.evt i 0xC) = (s.reg (Off.evt i 0xC) + 1) % 2 ^ 32 ∧
        t.reg64 (Off.evt i 0x10) = (s.evtPin i).lastEdge.getD 0 % 2 ^ 64) ∧
      (∀ i, i < 8 → (s.evtPin i).deepEdge = false →
        t.reg (Off.evt i 4) = s.reg (Off.evt i 4) ∧ t.reg (Off.evt i 0xC) = s.reg (Off.evt i 0xC))) ∧
  (∀ (v : Word) (s : State), s.stopped = false → s.sleep.pkg = .rest → v.getLsbD 0 = true →
    exec (.sleepWake v) s = .next (s.awaken 5)) ∧
  (∀ (since : Nat) (s : State), s.stopped = false → s.sleep.pkg = .rest → s.sleep.stacksWoken = some since → since + 1000000 ≤ s.now →
    ∃ t, exec .stacksSelfRefreshReturn s = .next t ∧ t = { s with sleep := { s.sleep with stacksWoken := none } })

/-! ### BAR0 (R10, R482 to R487), I3C and JTAG (R471, R473) -/

/-- TIER 2. REGISTER_WRITE (R482, R483). A misaligned access or one of another size than 4 or 8 changes nothing and adds 1 to BAR0_BAD_ACCESS, 2
for an access of 8 bytes, one for each register; an access of the I3C port outside the ranges of R471 adds 1. A 4-byte write of the low half of a
64-bit RW register is held and leaves the register at its old value; it takes effect with the next write of the high half (shown of SQ_BASE of a
disabled ring); an 8-byte write of a 64-bit register writes both halves, and one of two 32-bit registers writes the lower one first. -/
def Obligations.RegisterWritesAreAlignedAndHeldByHalves : Prop :=
  (∀ (off size : Nat) (v : DWord) (secure : Bool) (s : State), s.stopped = false → s.sleep.pkg = .awake →
    (size ≠ 4 ∧ size ≠ 8 ∨ off % size ≠ 0) →
    ∃ t, exec (.registerWrite off size v secure false) s = .next t ∧
      t = { s with regs := t.regs, sleep := { s.sleep with idleSince := s.now } } ∧
      SameRegsBut [Off.badAccess] s t ∧ t.reg Off.badAccess = (s.reg Off.badAccess + (if size = 8 then 2 else 1)) % 2 ^ 32) ∧
  (∀ (off size : Nat) (v : DWord) (secure : Bool) (s : State), s.stopped = false → s.sleep.pkg = .awake →
    (size ≠ 4 ∨ off % 4 ≠ 0 ∨ i3cReach off = false) →
    ∃ t, exec (.registerWrite off size v secure true) s = .next t ∧ t = { s with regs := t.regs } ∧
      SameRegsBut [Off.badAccess] s t ∧ t.reg Off.badAccess = (s.reg Off.badAccess + 1) % 2 ^ 32) ∧
  (∀ (off : Nat) (v : DWord) (secure : Bool) (s : State), s.stopped = false → s.sleep.pkg = .awake → off % 4 = 0 → rw64 off = true →
    (secure = true ∨ s.secureReg off = false) →
    ∃ t, exec (.registerWrite off 4 v secure false) s = .next t ∧
      t = { s with holds := t.holds, sleep := { s.sleep with idleSince := s.now } } ∧
      tget t.holds off = some (v.setWidth 32) ∧ (∀ o, o ≠ off → tget t.holds o = tget s.holds o)) ∧
  (∀ (r : Nat) (low : Word) (v : DWord) (secure : Bool) (s : State), s.stopped = false → s.sleep.pkg = .awake → r < 4160 → s.sqOn r = false →
    (secure = true ∨ r < 4096) → tget s.holds (Off.sq r 0) = some low →
    ∃ t, exec (.registerWrite (Off.sq r 4) 4 v secure false) s = .next t ∧
      t = { s with regs := t.regs, holds := t.holds, sleep := { s.sleep with idleSince := s.now } } ∧
      t.reg64 (Off.sq r 0) = low.toNat + 2 ^ 32 * (v.toNat % 2 ^ 32) ∧ SameRegsBut [Off.sq r 0, Off.sq r 4] s t ∧
      tget t.holds (Off.sq r 0) = none) ∧
  (∀ (r : Nat) (v : DWord) (secure : Bool) (s : State), s.stopped = false → s.sleep.pkg = .awake → r < 4160 → s.sqOn r = false →
    (secure = true ∨ r < 4096) →
    ∃ t, exec (.registerWrite (Off.sq r 0) 8 v secure false) s = .next t ∧ t.reg64 (Off.sq r 0) = v.toNat ∧
      t = { s with regs := t.regs, holds := t.holds, sleep := { s.sleep with idleSince := s.now } } ∧
      SameRegsBut [Off.sq r 0, Off.sq r 4] s t ∧ tget t.holds (Off.sq r 0) = none) ∧
  (∀ (off : Nat) (v : DWord) (secure : Bool) (s t : State), s.stopped = false → s.sleep.pkg = .awake → off % 8 = 0 → rw64 off = false →
    s.regWrites = [] → exec (.registerWrite off 4 (v &&& 0xFFFFFFFF) secure false) s = .next t →
    exec (.registerWrite off 8 v secure false) s = exec (.registerWrite (off + 4) 4 (v >>> 32) secure false) t)

/-- TIER 2. A write of a secure-only register, or of the block of a secure unit, by the non-secure world has no effect and is counted in the
world-violation tally (R10): TOLL_REFUSED of the world rises by 1 and TOLL_LAST names the address; nothing else changes, whatever register it is, for a
write of 4 bytes and for the 8 bytes of a 64-bit register. -/
def Obligations.NonSecureWritesOfSecureRegistersOnlyCount : Prop :=
  ∀ (off size : Nat) (v : DWord) (s : State), s.stopped = false → s.sleep.pkg = .awake →
    (size = 4 ∨ size = 8 ∧ rw64 off = true) → off % size = 0 → off < Off.limit → s.secureReg off = true →
    ∃ t, exec (.registerWrite off size v false false) s = .next t ∧
      t = { s with regs := t.regs, sleep := { s.sleep with idleSince := s.now } } ∧
      SameRegsBut [Off.sec 0x80, Off.sec 0x90, Off.sec 0x94] s t ∧ t.reg (Off.sec 0x80) = (s.reg (Off.sec 0x80) + 1) % 2 ^ 32 ∧
      bitsAt (t.reg64 (Off.sec 0x90)) 0 48 = 0x030000000000 + off

/-- TIER 2. SNAP_ADDR_WRITE, REGISTER_READ_LATCH, I3C_IBI_ACK, JTAG_INSTRUCTION (R487, R483, R471, R473). A snapshot holds the 64 words its world
sees in the range; a 4-byte read of the low half of a 64-bit register latches the high half for its initiator; an acknowledged in-band interrupt
is repeated no more; a misaligned read changes nothing but BAR0_BAD_ACCESS, a non-secure read of a secure register is counted and latches zero;
the test port loads the instruction, any that is not offered acting as BYPASS, also while PORST_N is low, and IDCODE shifts out the part number
0x7680. -/
def Obligations.SnapshotsLatchesAndTestPort : Prop :=
  (∀ (w : Nat) (v : DWord) (secure : Bool) (s : State), s.stopped = false → s.sleep.pkg = .awake → w < 2 → (w = 1 → secure = true) →
    v.toNat % 256 = 0 → v.toNat < Off.limit →
    ∃ t, exec (.snapAddrWrite w v secure) s = .next t ∧
      (∀ i, i < 64 → t.reg (Off.snapData w + 4 * i) =
        (s.setReg64 (Off.snapAddr w) v.toNat).visibleWord (decide (w = 1)) (v.toNat + 4 * i) % 2 ^ 32) ∧
      t.reg64 (Off.snapAddr w) = v.toNat ∧
      (∀ o, o < Off.snapData w ∨ Off.snapData w + 256 ≤ o → o ≠ Off.snapAddr w → o ≠ Off.snapAddr w + 4 → t.reg o = s.reg o) ∧
      t = { s with regs := t.regs, holds := t.holds, sleep := { s.sleep with idleSince := s.now } }) ∧
  (∀ (off : Nat) (secure : Bool) (s : State), s.stopped = false → s.sleep.pkg = .awake → off % 4 = 0 → isLow64 off = true →
    (secure = true ∨ s.secureReg off = false) →
    ∃ t, exec (.registerReadLatch off secure false) s = .next t ∧
      t = { s with latches := t.latches, sleep := { s.sleep with idleSince := s.now } } ∧
      (initiatorOf secure false, off, BitVec.ofNat 32 (s.visibleWord secure (off + 4))) ∈ t.latches) ∧
  (∀ (b : Nat) (s : State), s.pins.porstLow = false →
    ∃ t, exec (.i3cIbiAck b) s = .next t ∧ t = { s with pins := { s.pins with ibi := t.pins.ibi } } ∧ b ∉ t.pins.ibi ∧
      (∀ c, c ≠ b → (c ∈ t.pins.ibi ↔ c ∈ s.pins.ibi))) ∧
  (∀ (off : Nat) (secure : Bool) (s : State), s.stopped = false → s.sleep.pkg = .awake → off % 4 ≠ 0 →
    ∃ t, exec (.registerReadLatch off secure false) s = .next t ∧
      t = { s with regs := t.regs, sleep := { s.sleep with idleSince := s.now } } ∧
      SameRegsBut [Off.badAccess] s t ∧ t.reg Off.badAccess = (s.reg Off.badAccess + 1) % 2 ^ 32) ∧
  (∀ (off : Nat) (s : State), s.stopped = false → s.sleep.pkg = .awake → off % 4 = 0 → off < Off.limit → s.secureReg off = true →
    s.secureReg (off + 4) = true →
    ∃ t, exec (.registerReadLatch off false false) s = .next t ∧
      t = { s with regs := t.regs, latches := t.latches, sleep := { s.sleep with idleSince := s.now } } ∧
      t.reg (Off.sec 0x80) = (s.reg (Off.sec 0x80) + 1) % 2 ^ 32 ∧ SameRegsBut [Off.sec 0x80, Off.sec 0x90, Off.sec 0x94] s t ∧
      (∀ l ∈ t.latches, l ∈ s.latches ∨ l = (0, off, 0))) ∧
  (∀ (code : Nat) (s : State), ∃ t, exec (.jtagInstruction code) s = .next t ∧
      t = { s with pins := { s.pins with jtag := if code ≤ 5 then code else 1 }, out := t.out } ∧
      (code ≠ 0 → t.out = s.out) ∧
      (code = 0 → ∃ id, t.out = s.out ++ [.idcode id] ∧ bitsAt id 0 1 = 1 ∧ bitsAt id 12 16 = 0x7680 ∧ id < 2 ^ 32))

/-! ### Doorbells, rings and messages (R264, R269, R274 to R279, R291, R292, R294) -/

/-- TIER 2. DOORBELL (R264, R276, R391). Written by a world that may, a doorbell of 4 or 8 bytes at the start of ring r's page is accepted into
SQ_TAIL exactly when the ring is enabled and neither the new count of placed descriptors nor the step exceeds the ring's size; else SQ_TAIL
stands, SQ_DB_BAD rises by 1 and a job-class record with reason DOORBELL is filed. A non-secure doorbell to a secure page is refused and counted;
a write of BAR2 that is no doorbell, whatever its world, is discarded and counted. Behind a posted write of BAR4 that is not yet visible it waits
(R268); in Deep it is held. -/
def Obligations.DoorbellsMoveTheTailOrAreDiscarded : Prop :=
  (∀ (r size : Nat) (v : DWord) (secure : Bool) (s : State), s.stopped = false → s.sleep.pkg = .awake → s.postedWaits = false → r < 4160 → (size = 4 ∨ size = 8) →
    (secure = true ∨ r < 4096) → s.sqOn r = true →
    (v.toNat % 2 ^ 32 + 2 ^ 32 - s.reg (Off.sq r 0x10)) % 2 ^ 32 ≤ s.sqSize r →
    (v.toNat % 2 ^ 32 + 2 ^ 32 - s.reg (Off.sq r 0xC)) % 2 ^ 32 ≤ s.sqSize r →
    ∃ t, exec (.doorbell (4096 * r) size v secure) s = .next t ∧
      t = { s with regs := t.regs, sleep := { s.sleep with idleSince := s.now } } ∧
      t.reg (Off.sq r 0xC) = v.toNat % 2 ^ 32 ∧ SameRegsBut [Off.sq r 0xC] s t) ∧
  (∀ (r size : Nat) (v : DWord) (secure : Bool) (s : State), s.stopped = false → s.sleep.pkg = .awake → s.postedWaits = false → r < 4160 → (size = 4 ∨ size = 8) →
    (secure = true ∨ r < 4096) →
    (s.sqOn r = false ∨ s.sqSize r < (v.toNat % 2 ^ 32 + 2 ^ 32 - s.reg (Off.sq r 0x10)) % 2 ^ 32 ∨
      s.sqSize r < (v.toNat % 2 ^ 32 + 2 ^ 32 - s.reg (Off.sq r 0xC)) % 2 ^ 32) →
    ∃ t, exec (.doorbell (4096 * r) size v secure) s = .next t ∧
      t = { s with regs := t.regs, errs := t.errs, sleep := { s.sleep with idleSince := s.now } } ∧
      t.reg (Off.sq r 0x1C) = (s.reg (Off.sq r 0x1C) + 1) % 2 ^ 32 ∧
      (∀ o, o ≠ Off.sq r 0x1C → o < Off.err 0 ∨ Off.err 0x58 ≤ o → t.reg o = s.reg o) ∧
      (∃ e ∈ (if r < 4096 then t.errs.onDieNs else t.errs.onDieS), e.reason = .doorbell ∧ e.reason.cls = 1 ∧ e.ring = r ∧
        e.detail0 = v.toNat % 2 ^ 32 ∧ e.detail1 = s.reg (Off.sq r 0xC) ∧ e.time = s.now)) ∧
  (∀ (off size : Nat) (v : DWord) (secure : Bool) (s : State), s.stopped = false → s.sleep.pkg = .awake → s.postedWaits = false →
    (4160 ≤ off / 4096 ∨ off % 4096 ≠ 0 ∨ size ≠ 4 ∧ size ≠ 8) →
    ∃ t, exec (.doorbell off size v secure) s = .next t ∧
      t = { s with regs := t.regs, sleep := { s.sleep with idleSince := s.now } } ∧
      t.reg (Off.hl 0x14) = (s.reg (Off.hl 0x14) + 1) % 2 ^ 32 ∧ SameRegsBut [Off.hl 0x14] s t) ∧
  (∀ (r size : Nat) (v : DWord) (s : State), s.stopped = false → s.sleep.pkg = .awake → s.postedWaits = false → 4096 ≤ r → r < 4160 →
    (size = 4 ∨ size = 8) →
    ∃ t, exec (.doorbell (4096 * r) size v false) s = .next t ∧
      t = { s with regs := t.regs, sleep := { s.sleep with idleSince := s.now } } ∧
      t.reg (Off.hl 0x10) = (s.reg (Off.hl 0x10) + 1) % 2 ^ 32 ∧
      t.reg (Off.sec 0x80) = (s.reg (Off.sec 0x80) + 1) % 2 ^ 32 ∧
      SameRegsBut [Off.hl 0x10, Off.sec 0x80, Off.sec 0x90, Off.sec 0x94] s t) ∧
  (∀ (off size : Nat) (v : DWord) (secure : Bool) (s : State), s.stopped = false → s.sleep.pkg = .awake → s.postedWaits = true →
    ∃ t, exec (.doorbell off size v secure) s = .next t ∧
      t = { s with
        sleep := { s.sleep with idleSince := s.now }
        link := { s.link with waiting := s.link.waiting ++ [doorbellAccess off size v.toNat secure] } }) ∧
  (∀ (off size : Nat) (v : DWord) (secure : Bool) (s : State), s.stopped = false → s.inDeep = true →
    ∃ t, exec (.doorbell off size v secure) s = .next t ∧
      t = { s with sleep := { s.sleep with
        idleSince := s.now
        deepWrites := s.sleep.deepWrites ++ [{ kind := .bar2, addr := off, data := natLe size v.toNat, secure := secure }] } })

/-- TIER 2. SQ_ENABLE, SQ_DISABLE, SQ_ABORT (R274, R278, R294). ENABLE is set on a disabled ring whose base lies in host memory on 4 KiB, whose
completion ring (of the CQ field of the same write) is enabled and of the same world, and whose SQ_INFLIGHT is 0; it then clears SQ_TAIL,
SQ_HEAD, SQ_COMPLETED and SQ_DB_BAD; where one of these fails ENABLE stays clear; on an enabled ring the write changes WEIGHT alone. A non-secure
write of a secure ring has no effect and is counted. Clearing ENABLE drops what was fetched and not accepted. ABORT clears ENABLE, sets ABORTING
unless nothing is in flight, and ends with ABORTED every descriptor of the ring accepted and not completed, but for those that run to their end;
a RUN that is inside a step stops at the next step boundary. -/
def Obligations.SubmissionRingsEnableDisableAndAbort : Prop :=
  (∀ (r : Nat) (v : Word) (secure : Bool) (s : State), s.stopped = false → s.sleep.pkg = .awake → r < 4160 → (secure = true ∨ r < 4096) →
    v.getLsbD 0 = true → v.getLsbD 1 = false → s.sqOn r = false → s.sqMayEnable r (sqCq v.toNat) = true →
    ∃ t, exec (.sqEnable r v secure) s = .next t ∧
      t = { s with regs := t.regs, sleep := { s.sleep with idleSince := s.now } } ∧
      t.sqOn r = true ∧ t.sqSize r = 2 ^ clampNat 4 16 (sqLog v.toNat) ∧ sqCq (t.sqCtrl r) = sqCq v.toNat ∧
      sqWeight (t.sqCtrl r) = max 1 (sqWeight v.toNat) ∧ sqAborting (t.sqCtrl r) = false ∧
      (∀ k ∈ [0xC, 0x10, 0x14, 0x1C], t.reg (Off.sq r k) = 0) ∧
      SameRegsBut [Off.sq r 8, Off.sq r 0xC, Off.sq r 0x10, Off.sq r 0x14, Off.sq r 0x1C] s t) ∧
  (∀ (r : Nat) (v : Word) (secure : Bool) (s : State), s.stopped = false → s.sleep.pkg = .awake → r < 4160 → (secure = true ∨ r < 4096) →
    v.getLsbD 0 = true → v.getLsbD 1 = false → s.sqOn r = false → s.sqMayEnable r (sqCq v.toNat) = false →
    ∃ t, exec (.sqEnable r v secure) s = .next t ∧
      t = { s with regs := t.regs, sleep := { s.sleep with idleSince := s.now } } ∧ t.sqOn r = false ∧ SameRegsBut [Off.sq r 8] s t) ∧
  (∀ (r : Nat) (v : Word) (secure : Bool) (s : State), s.stopped = false → s.sleep.pkg = .awake → r < 4160 → (secure = true ∨ r < 4096) →
    v.getLsbD 0 = true → v.getLsbD 1 = false → s.sqOn r = true →
    ∃ t, exec (.sqEnable r v secure) s = .next t ∧
      t = { s with regs := t.regs, sleep := { s.sleep with idleSince := s.now } } ∧ SameRegsBut [Off.sq r 8] s t ∧ t.sqOn r = true ∧
      t.sqSize r = s.sqSize r ∧ sqCq (t.sqCtrl r) = sqCq (s.sqCtrl r) ∧ sqWeight (t.sqCtrl r) = max 1 (sqWeight v.toNat) ∧
      sqAborting (t.sqCtrl r) = sqAborting (s.sqCtrl r)) ∧
  (∀ (r : Nat) (v : Word) (c : Instr) (s : State), s.stopped = false → s.sleep.pkg = .awake → 4096 ≤ r → r < 4160 →
    (c = .sqEnable r v false ∧ v.getLsbD 0 = true ∧ v.getLsbD 1 = false ∨ c = .sqDisable r v false ∧ v.getLsbD 0 = false ∧ v.getLsbD 1 = false ∨
      c = .sqAbort r v false ∧ v.getLsbD 1 = true) →
    ∃ t, exec c s = .next t ∧ t = { s with regs := t.regs, sleep := { s.sleep with idleSince := s.now } } ∧
      t.reg (Off.sec 0x80) = (s.reg (Off.sec 0x80) + 1) % 2 ^ 32 ∧ SameRegsBut [Off.sec 0x80, Off.sec 0x90, Off.sec 0x94] s t) ∧
  (∀ (r : Nat) (v : Word) (secure : Bool) (s : State), s.stopped = false → s.sleep.pkg = .awake → r < 4160 → (secure = true ∨ r < 4096) →
    v.getLsbD 0 = false → v.getLsbD 1 = false →
    ∃ t, exec (.sqDisable r v secure) s = .next t ∧
      t = { s with regs := t.regs, rings := t.rings, sleep := { s.sleep with idleSince := s.now } } ∧ t.sqOn r = false ∧
      t.rings = { s.rings with fetched := s.rings.fetched.filter (fun f => decide (f.ring ≠ r)) } ∧ SameRegsBut [Off.sq r 8] s t) ∧
  (∀ (r : Nat) (v : Word) (secure : Bool) (s : State), s.stopped = false → s.sleep.pkg = .awake → r < 4160 → (secure = true ∨ r < 4096) →
    v.getLsbD 1 = true →
    ∃ t, exec (.sqAbort r v secure) s = .next t ∧ t.sqOn r = false ∧
      (sqAborting (t.sqCtrl r) = true ↔ s.reg (Off.sq r 0x18) ≠ 0) ∧
      t.rings.fetched = s.rings.fetched.filter (fun f => decide (f.ring ≠ r)) ∧ (∀ k, k < 4160 → k ≠ r → t.sqCtrl k = s.sqCtrl k) ∧
      (∀ k ∈ [0xC, 0x10, 0x14, 0x18, 0x1C], t.reg (Off.sq r k) = s.reg (Off.sq r k)) ∧
      (∀ e ∈ s.reqs, s.req? e.1 = some e.2 → e.2.ring = r → e.2.phase ≠ .finished → s.abortExempt e.1 e.2 = false →
        ∃ q, t.req? e.1 = some q ∧ (q.phase = .finished ∧ q.status = .aborted ∨
          q.phase = .stopping ∧ e.2.opcode = Dop.run ∧ s.midStep e.1 = true)))

/-- TIER 2. RING_ENABLE, RING_DISABLE and RING_HEAD_WRITE (R274, R291). A disabled ring whose base may be used is enabled, and a completion ring
so enabled has CQ_TAIL, CQ_HEAD, CQ_FINAL, CQ_MILE_DROPPED and CQ_HEAD_BAD cleared. One whose base may not be used stays disabled, and on an
enabled ring the write changes the vector alone. A completion ring that an enabled submission ring names, or whose CQ_RESERVED is not 0, ignores
in full a write that would clear ENABLE; any other ring is disabled with its size frozen. A HEAD between the old one and TAIL is taken; one that
moves backwards or past TAIL is ignored and, on a completion ring, counted in CQ_HEAD_BAD. A non-secure write of a secure ring has no effect and
is counted. Neither write changes a request, a pass or device memory; the records that waited for a ring may be written. -/
def Obligations.WrittenRingsEnableDisableAndFreeTheirEntries : Prop :=
  (∀ (ring : RingId) (v : Word) (secure : Bool) (s : State), s.stopped = false → s.sleep.pkg = .awake → ring.wf = true →
    (secure = true ∨ ring.world = 0) → v.getLsbD 0 = true → s.ringOn ring = false → baseGood (s.reg64 ring.baseOff) = true →
    ∃ t, exec (.ringEnable ring v secure) s = .next t ∧ t.ringOn ring = true ∧
      t.ringSize ring = 2 ^ clampNat 4 16 (ctrlLog v.toNat) ∧ ctrlVector (t.reg ring.ctrlOff) = ctrlVector v.toNat ∧
      t = { s with
        regs := t.regs, host := t.host, rings := t.rings, link := t.link, errs := t.errs, audit := t.audit, out := t.out
        sleep := { s.sleep with idleSince := s.now } } ∧
      (∀ r : RingId, r ≠ ring → r.wf = true → t.ringOn r = s.ringOn r ∧ t.reg r.headOff = s.reg r.headOff)) ∧
  (∀ (c : Nat) (v : Word) (secure : Bool) (s : State), s.stopped = false → s.sleep.pkg = .awake → c < 4160 → (secure = true ∨ c < 4096) →
    v.getLsbD 0 = true → s.ringOn (.cq c) = false → baseGood (s.reg64 (Off.cq c 0)) = true →
    ∃ t, exec (.ringEnable (.cq c) v secure) s = .next t ∧
      t = { s with regs := t.regs, rings := t.rings, sleep := { s.sleep with idleSince := s.now } } ∧
      (∀ k ∈ [0x10, 0x14, 0x1C, 0x20, 0x24], t.reg (Off.cq c k) = 0) ∧
      SameRegsBut [Off.cq c 8, Off.cq c 0x10, Off.cq c 0x14, Off.cq c 0x1C, Off.cq c 0x20, Off.cq c 0x24] s t) ∧
  (∀ (ring : RingId) (v : Word) (secure : Bool) (s : State), s.stopped = false → s.sleep.pkg = .awake → ring.wf = true →
    (secure = true ∨ ring.world = 0) → v.getLsbD 0 = false → s.ringOn ring = true → s.cqHeld ring = false →
    ∃ t, exec (.ringDisable ring v secure) s = .next t ∧
      t = { s with regs := t.regs, sleep := { s.sleep with idleSince := s.now } } ∧ t.ringOn ring = false ∧
      t.ringSize ring = s.ringSize ring ∧ SameRegsBut [ring.ctrlOff] s t) ∧
  (∀ (c : Nat) (v : Word) (secure : Bool) (s : State), s.stopped = false → s.sleep.pkg = .awake → c < 4160 → (secure = true ∨ c < 4096) →
    v.getLsbD 0 = false → s.ringOn (.cq c) = true → s.cqHeld (.cq c) = true →
    ∃ t, exec (.ringDisable (.cq c) v secure) s = .next t ∧ t = { s with sleep := { s.sleep with idleSince := s.now } }) ∧
  (∀ (ring : RingId) (v : Word) (secure : Bool) (s : State), s.stopped = false → s.sleep.pkg = .awake → ring.wf = true →
    (secure = true ∨ ring.world = 0) → (v.toNat + 2 ^ 32 - s.reg ring.headOff) % 2 ^ 32 ≤ s.ringUsed ring →
    ∃ t, exec (.ringHeadWrite ring v secure) s = .next t ∧ t.reg ring.headOff = v.toNat ∧
      t = { s with
        regs := t.regs, host := t.host, rings := t.rings, link := t.link, errs := t.errs, audit := t.audit, park := t.park, out := t.out
        sleep := { s.sleep with idleSince := s.now } } ∧
      (ring ∉ [.erq 0, .erq 1, .plog 0, .plog 1, .pbat 0, .pbat 1] →
        t = { s with regs := t.regs, sleep := { s.sleep with idleSince := s.now } } ∧ SameRegsBut [ring.headOff] s t)) ∧
  (∀ (c : Nat) (v : Word) (secure : Bool) (s : State), s.stopped = false → s.sleep.pkg = .awake → c < 4160 → (secure = true ∨ c < 4096) →
    s.ringUsed (.cq c) < (v.toNat + 2 ^ 32 - s.reg (Off.cq c 0x14)) % 2 ^ 32 →
    ∃ t, exec (.ringHeadWrite (.cq c) v secure) s = .next t ∧
      t = { s with regs := t.regs, sleep := { s.sleep with idleSince := s.now } } ∧
      t.reg (Off.cq c 0x24) = (s.reg (Off.cq c 0x24) + 1) % 2 ^ 32 ∧ SameRegsBut [Off.cq c 0x24] s t) ∧
  (∀ (ring : RingId) (v : Word) (secure : Bool) (s : State), s.stopped = false → s.sleep.pkg = .awake → ring.wf = true →
    (secure = true ∨ ring.world = 0) → ring ∈ [.evq 0, .evq 1, .erq 0, .erq 1, .plog 0, .plog 1, .pbat 0, .pbat 1, .dlog 0, .dlog 1] →
    s.ringUsed ring < (v.toNat + 2 ^ 32 - s.reg ring.headOff) % 2 ^ 32 →
    ∃ t, exec (.ringHeadWrite ring v secure) s = .next t ∧ t = { s with sleep := { s.sleep with idleSince := s.now } }) ∧
  (∀ (ring : RingId) (v : Word) (secure : Bool) (s : State), s.stopped = false → s.sleep.pkg = .awake → ring.wf = true →
    (secure = true ∨ ring.world = 0) → v.getLsbD 0 = true → (s.ringOn ring = true ∨ baseGood (s.reg64 ring.baseOff) = false) →
    ∃ t, exec (.ringEnable ring v secure) s = .next t ∧
      t = { s with regs := t.regs, sleep := { s.sleep with idleSince := s.now } } ∧ t.ringOn ring = s.ringOn ring ∧
      (s.ringOn ring = true → t.ringSize ring = s.ringSize ring) ∧ ctrlVector (t.reg ring.ctrlOff) = ctrlVector v.toNat ∧
      SameRegsBut [ring.ctrlOff] s t) ∧
  (∀ (ring : RingId) (v : Word) (c : Instr) (s : State), s.stopped = false → s.sleep.pkg = .awake → ring.wf = true → ring.world = 1 →
    (c = .ringEnable ring v false ∧ v.getLsbD 0 = true ∨ c = .ringDisable ring v false ∧ v.getLsbD 0 = false ∨ c = .ringHeadWrite ring v false) →
    ∃ t, exec c s = .next t ∧ t = { s with regs := t.regs, sleep := { s.sleep with idleSince := s.now } } ∧
      t.reg (Off.sec 0x80) = (s.reg (Off.sec 0x80) + 1) % 2 ^ 32 ∧ SameRegsBut [Off.sec 0x80, Off.sec 0x90, Off.sec 0x94] s t)

/-- TIER 2. FETCH_TURN (R278, R279). With the link up, the device neither parking, parked nor in Deep, and a request-table entry free, the next
ring of the round robin has up to WEIGHT of its pending descriptors fetched, no more than free request-table entries and free completion records:
in slot order, each as the 64 bytes that stand in its slot of the ring in host memory. Nothing else changes. A turn that finds the request table
full counts in RQ_FULL_WAITS. -/
def Obligations.FetchTurnReadsTheRingInSlotOrder : Prop :=
  (∀ (bad : List Nat) (r : Nat) (s : State), s.stopped = false → s.parkState = 0 → s.link.up = true → s.inDeep = false → s.nextRing = some r →
    s.reqRoom ≠ 0 → 0 < sqWeight (s.sqCtrl r) →
    ∃ t, exec (.fetchTurn bad) s = .next t ∧ t = { s with rings := t.rings } ∧ t.rings.rrLast = r ∧
      (t.rings.fetched.take s.rings.fetched.length = s.rings.fetched) ∧
      (t.rings.fetched.length = s.rings.fetched.length + min (min (sqWeight (s.sqCtrl r)) (s.sqPending r))
        (min s.reqRoom (s.cqRoom (sqCq (s.sqCtrl r))))) ∧
      (∀ f ∈ (t.rings.fetched.drop s.rings.fetched.length).zipIdx (s.reg (Off.sq r 0x10) +
          (s.rings.fetched.filter (fun f => decide (f.ring = r))).length),
        f.1.ring = r ∧ f.1.num = f.2 % 2 ^ 32 ∧
        f.1.bytes = s.hostBytes (ptrAddr (s.reg64 (Off.sq r 0)) + f.2 % s.sqSize r * 64) 64)) ∧
  (∀ (bad : List Nat) (r : Nat) (s : State), s.stopped = false → s.parkState = 0 → s.link.up = true → s.inDeep = false → s.nextRing = some r →
    s.reqRoom = 0 →
    ∃ t, exec (.fetchTurn bad) s = .next t ∧ t = { s with regs := t.regs } ∧
      t.reg Off.rqFullWaits = (s.reg Off.rqFullWaits + 1) % 2 ^ 32 ∧ SameRegsBut [Off.rqFullWaits] s t)

/-- TIER 2. MSIX_COALESCE_TIMEOUT and MSIX_UNMASK (R269, R292). COAL_TIME µs after the first pending record the ring's message goes out and the
pending count is cleared; with the vector or the function masked its pending bit is set in place of it. Unmasking a vector clears its mask bit
and sends a message that was pending, once; a function mask that is cleared sends what is pending on every unmasked vector. -/
def Obligations.MessagesGoOutWhenDueAndWhenUnmasked : Prop :=
  (∀ (ring : RingId) (off : Nat) (s : State), s.stopped = false → ring.coalOff = some off → 0 < (s.coalOf ring).count → 0 < s.regBits off 0 16 →
    (s.coalOf ring).since + s.regBits off 0 16 * 1000 ≤ s.now →
    ∃ t, exec (.msixCoalesceTimeout ring) s = .next t ∧ t = { s with regs := t.regs, rings := t.rings, out := t.out } ∧
      (t.coalOf ring).count = 0 ∧
      (s.link.funcMask = false → s.regBit (Off.msix (ctrlVector (s.reg ring.ctrlOff)) 12) 0 = false →
        t.out = s.out ++ [.msix (ctrlVector (s.reg ring.ctrlOff))] ∧ t.regs = s.regs) ∧
      (s.link.funcMask = true ∨ s.regBit (Off.msix (ctrlVector (s.reg ring.ctrlOff)) 12) 0 = true →
        t.out = s.out ∧ t.regBit (Off.pba (ctrlVector (s.reg ring.ctrlOff))) (ctrlVector (s.reg ring.ctrlOff) % 32) = true)) ∧
  (∀ (v : Nat) (s : State), s.stopped = false → s.sleep.pkg = .awake → v < 2048 →
    ∃ t, exec (.msixUnmask v none) s = .next t ∧ t = { s with regs := t.regs, out := t.out, sleep := { s.sleep with idleSince := s.now } } ∧ t.regBit (Off.msix v 12) 0 = false ∧
      (s.regBit (Off.pba v) (v % 32) = true → s.link.funcMask = false →
        t.out = s.out ++ [.msix v] ∧ t.regBit (Off.pba v) (v % 32) = false) ∧
      (s.regBit (Off.pba v) (v % 32) = false → t.out = s.out) ∧
      SameRegsBut [Off.msix v 12, Off.pba v] s t) ∧
  (∀ (v : Nat) (s : State), s.stopped = false → s.sleep.pkg = .awake →
    ∃ t, exec (.msixUnmask v (some true)) s = .next t ∧ t = { s with link := { s.link with funcMask := true }, sleep := { s.sleep with idleSince := s.now } }) ∧
  (∀ (v : Nat) (s : State), s.stopped = false → s.sleep.pkg = .awake →
    ∃ t, exec (.msixUnmask v (some false)) s = .next t ∧
      t = { s with regs := t.regs, out := t.out, link := { s.link with funcMask := false }, sleep := { s.sleep with idleSince := s.now } } ∧
      t.out = s.out ++ ((List.range 2048).filter (fun u => s.regBit (Off.pba u) (u % 32) && !s.regBit (Off.msix u 12) 0)).map Out.msix ∧
      (∀ u, u < 2048 → t.regBit (Off.pba u) (u % 32) = (s.regBit (Off.pba u) (u % 32) && s.regBit (Off.msix u 12) 0)) ∧
      (∀ o, o < Off.pba 0 ∨ Off.pba 2048 ≤ o → t.reg o = s.reg o))

/-! ### Acceptance and completion of a descriptor (R278, R283, R288, R290, R297, R331) -/

/-- TIER 2. DESCRIPTOR_ACCEPT (R278, R283). The next fetched descriptor of a ring takes a request-table entry and one reserved record: SQ_HEAD,
SQ_INFLIGHT, CQ_RESERVED and RQ_INUSE rise by 1, and the entry holds the descriptor with its number. One whose read failed ends at once with
FAULT_UNCORRECTED and its number in POSITION; one that breaks a rule of form ends at once with FAULT_DESCRIPTOR; a NOP of good form waits to
start. (The lowest free index is the model's choice, log entry 21.) -/
def Obligations.AcceptedDescriptorsTakeAnEntryAndAReservation : Prop :=
  (∀ (r : Nat) (f : Fetched) (env : Surroundings) (s : State), s.stopped = false → r < 4160 → s.rings.fetched.find? (fun f => decide (f.ring = r)) = some f →
    s.parkState = 0 → s.inDeep = false → lowestFree s.reqs 0 < 262144 →
    ∃ t, exec (.descriptorAccept r env) s = .next t ∧ t.hostBad = env.hostBad ∧
      t.reg (Off.sq r 0x10) = (s.reg (Off.sq r 0x10) + 1) % 2 ^ 32 ∧ t.reg (Off.sq r 0x18) = (s.reg (Off.sq r 0x18) + 1) % 2 ^ 32 ∧
      t.reg (Off.cq (sqCq (s.sqCtrl r)) 0x18) = (s.reg (Off.cq (sqCq (s.sqCtrl r)) 0x18) + 1) % 2 ^ 32 ∧
      t.reg Off.rqInuse = (s.reg Off.rqInuse + 1) % 2 ^ 32 ∧ t.rings.fetched = s.rings.fetched.erase f ∧
      (t.req? (lowestFree s.reqs 0)).map (fun q => (q.ring, q.cq, q.num)) = some (r, sqCq (s.sqCtrl r), f.num) ∧
      (f.bad = true → t.standing (lowestFree s.reqs 0) = some (.finished, .faultUncorrected, f.num)) ∧
      (∀ o, f.bad = false → descCheck f.bytes = some o → t.standing (lowestFree s.reqs 0) = some (.finished, .faultDescriptor, 0)) ∧
      (f.bad = false → descCheck f.bytes = none → fieldAt f.bytes 0 1 = Dop.nop → t.standing (lowestFree s.reqs 0) = some (.accepted, .ok, 0)))

/-- TIER 2. DESCRIPTOR_COMPLETION (R288, R290, R291, R294, R297). A finished request that owes no leaf and moves no stream has its final record
of 32 bytes written in the slot of CQ_TAIL with its PHASE; CQ_TAIL, SQ_COMPLETED and CQ_FINAL rise by 1, SQ_INFLIGHT, CQ_RESERVED and RQ_INUSE
fall by 1, the entry is free, and ABORTING clears when nothing is in flight. With IRQ set, COAL_COUNT at most 1 and the vector unmasked, its
message goes out. Device memory and every other byte of host memory stand, and a FENCE that waited for it counts it in POSITION. A frame of a
stream and a request that owes a leaf complete so too, beside the end of the frame and the leaf. A leaf that finds no room makes the completion
wait, counted (R331); a failed frame waits for the frames before it and for a SAVE that holds its stream. -/
def Obligations.CompletionWritesOneFinalRecord : Prop :=
  (∀ (i : Nat) (q : Request) (s : State), s.stopped = false → s.req? i = some q → q.phase = .finished → s.link.up = true → s.parkState ≠ 2 →
    q.ring < 4160 → q.cq < 4160 → s.leafDue q = false → q.stream = none →
    ∃ t, exec (.descriptorCompletion i) s = .next t ∧
      t = { s with regs := t.regs, host := t.host, link := t.link, rings := t.rings, reqs := t.reqs, out := t.out, sleep := t.sleep } ∧
      t.sleep = { s.sleep with idleSince := t.sleep.idleSince } ∧
      t.hostBytes (s.ringSlot (.cq q.cq)) 32 = s.recordBytes q false (s.ringPhase (.cq q.cq)) ∧
      SameHostOutside (s.ringSlot (.cq q.cq)) (s.ringSlot (.cq q.cq) + 32) s t ∧
      t.reg (Off.cq q.cq 0x10) = (s.reg (Off.cq q.cq 0x10) + 1) % 2 ^ 32 ∧
      t.reg (Off.sq q.ring 0x14) = (s.reg (Off.sq q.ring 0x14) + 1) % 2 ^ 32 ∧
      t.reg (Off.cq q.cq 0x1C) = (s.reg (Off.cq q.cq 0x1C) + 1) % 2 ^ 32 ∧
      t.reg (Off.sq q.ring 0x18) = (s.reg (Off.sq q.ring 0x18) + 4294967295) % 2 ^ 32 ∧
      t.reg (Off.cq q.cq 0x18) = (s.reg (Off.cq q.cq 0x18) + 4294967295) % 2 ^ 32 ∧
      t.reg Off.rqInuse = (s.reg Off.rqInuse + 4294967295) % 2 ^ 32 ∧
      t.req? i = none ∧
      (∀ k, k ≠ i → t.req? k = (s.req? k).map (fun e =>
        if e.opcode = Dop.fence ∧ e.phase ≠ .finished ∧ q.order < e.order ∧ e.fences q = true then { e with pos := e.pos + 1 } else e)) ∧
      (s.reg (Off.sq q.ring 0x18) = 1 → sqAborting (t.sqCtrl q.ring) = false) ∧
      (q.irq = false → t.out = s.out) ∧
      (q.irq = true → s.regBits (Off.cq q.cq 0xC) 16 8 ≤ 1 → s.link.funcMask = false →
        s.regBit (Off.msix (ctrlVector (s.reg (Off.cq q.cq 8))) 12) 0 = false →
        t.out = s.out ++ [.msix (ctrlVector (s.reg (Off.cq q.cq 8)))])) ∧
  (∀ (i : Nat) (q : Request) (s : State), s.stopped = false → s.req? i = some q → q.phase = .finished → s.link.up = true → s.parkState ≠ 2 →
    s.leafDue q = true → s.leafRoom (worldNum q.secure) = false →
    ∃ t, exec (.descriptorCompletion i) s = .next t ∧ t = { s with regs := t.regs } ∧
      t.reg (Off.dig (worldNum q.secure) 0x20) = (s.reg (Off.dig (worldNum q.secure) 0x20) + 1) % 2 ^ 32 ∧
      SameRegsBut [Off.dig (worldNum q.secure) 0x20] s t) ∧
  (∀ (i : Nat) (q : Request) (s : State), s.stopped = false → s.req? i = some q → q.phase = .finished → s.link.up = true → s.parkState ≠ 2 →
    q.ring < 4160 → q.cq < 4160 → (s.leafDue q = true → s.leafRoom (worldNum q.secure) = true) →
    (q.status.isOk = true ∨ ∀ st ∈ q.stream, s.framesBefore q st = false ∧ s.behindHold q = false) →
    ∃ t, exec (.descriptorCompletion i) s = .next t ∧ t.req? i = none ∧
      t.reg (Off.cq q.cq 0x10) = (s.reg (Off.cq q.cq 0x10) + 1) % 2 ^ 32 ∧
      t.reg (Off.sq q.ring 0x14) = (s.reg (Off.sq q.ring 0x14) + 1) % 2 ^ 32 ∧
      t.reg (Off.cq q.cq 0x1C) = (s.reg (Off.cq q.cq 0x1C) + 1) % 2 ^ 32 ∧
      t.reg (Off.sq q.ring 0x18) = (s.reg (Off.sq q.ring 0x18) + 4294967295) % 2 ^ 32 ∧
      t.reg (Off.cq q.cq 0x18) = (s.reg (Off.cq q.cq 0x18) + 4294967295) % 2 ^ 32 ∧
      t.reg Off.rqInuse = (s.reg Off.rqInuse + 4294967295) % 2 ^ 32 ∧
      (s.leafDue q = true → (t.auditWorld (worldNum q.secure)).seq = (s.auditWorld (worldNum q.secure)).seq + 1) ∧
      (∀ st, q.stream = some st → q.status.isOk = true → t.ctx st Cx.inflight 4 = (s.ctx st Cx.inflight 4 + 4294967295) % 2 ^ 32 ∧
        t.ctx st Cx.lastTime 8 = s.now % 2 ^ 64)) ∧
  (∀ (i st : Nat) (q : Request) (s : State), s.stopped = false → s.req? i = some q → q.phase = .finished → s.link.up = true →
    (s.leafDue q = true → s.leafRoom (worldNum q.secure) = true) → q.stream = some st → q.status.isOk = false →
    (s.framesBefore q st || s.behindHold q) = true → exec (.descriptorCompletion i) s = .next s)

/-! ### The movers (R284, R490), NOP and FENCE (R280) -/

/-- TIER 2. COPY, FILL and DIGEST (R284, R490). Where the toll check admits every line, COPY leaves at DST the bytes that stood at SRC (where DST
begins inside SRC, those before it repeated, as a copy in increasing address order leaves them), FILL the 8-byte VALUE repeated, DIGEST the
SHAKE256 digest of the range; the request is finished OK with POSITION its length, and every other byte of device memory stands, with MILEPOSTS
and without. A FILL that meets a refused line ends with FAULT_WORLD, POSITION the bytes below that line, which are stored. An aligned word of
BAR0 is copied as the ring's world sees it (R482). -/
def Obligations.MoversStoreExactlyTheirDestination : Prop :=
  (∀ (i src dst n : Nat) (q : Request) (s : State), s.stopped = false → s.regWrites = [] → s.req? i = some q → q.opcode = Dop.copy →
    (s.mayStart q || s.goesOn q) = true → q.fld 0x10 8 = src → q.fld 0x18 8 = dst → q.fld 0x20 4 = n →
    LinesOpen s q.secure false true src n → LinesOpen s q.secure true false dst n →
    ∃ t, exec (.copy i) s = .next t ∧
      t = { s with regs := t.regs, mem := t.mem, hbm := t.hbm, reqs := t.reqs, out := t.out, host := t.host, link := t.link, rings := t.rings } ∧
      (q.mileposts = false → t.host = s.host ∧ t.link = s.link ∧ t.rings = s.rings ∧
        (∀ o, o ≠ Off.hl 0x1C → (∀ c, o ≠ Off.cway c 8) → t.reg o = s.reg o)) ∧
      (∀ k, k < n → (t.memBytes dst n)[k]? = (s.memBytes src n)[if src < dst ∧ dst < src + n then k % (dst - src) else k]?) ∧
      SameMemOutside dst (dst + n) s t ∧ t.standing i = some (.finished, .ok, n) ∧ (∀ k, k ≠ i → t.req? k = s.req? k)) ∧
  (∀ (i dst n : Nat) (q : Request) (s : State), s.stopped = false → s.regWrites = [] → s.req? i = some q → q.opcode = Dop.fill →
    (s.mayStart q || s.goesOn q) = true → q.fld 0x10 8 = dst → q.fld 0x20 4 = n → LinesOpen s q.secure true false dst n →
    ∃ t, exec (.fill i) s = .next t ∧
      t = { s with regs := t.regs, mem := t.mem, hbm := t.hbm, reqs := t.reqs, out := t.out, host := t.host, link := t.link, rings := t.rings } ∧
      (q.mileposts = false → t.host = s.host ∧ t.link = s.link ∧ t.rings = s.rings ∧
        (∀ o, o ≠ Off.hl 0x1C → (∀ c, o ≠ Off.cway c 8) → t.reg o = s.reg o)) ∧
      (∀ k, k < n → (t.memBytes dst n)[k]? = (natLe 8 (q.fld 0x18 8))[k % 8]?) ∧ SameMemOutside dst (dst + n) s t ∧
      t.standing i = some (.finished, .ok, n) ∧ (∀ k, k ≠ i → t.req? k = s.req? k)) ∧
  (∀ (i src out n : Nat) (q : Request) (s : State), s.stopped = false → s.regWrites = [] → s.req? i = some q → q.opcode = Dop.digest →
    (s.mayStart q || s.goesOn q) = true → q.fld 0x10 8 = src → q.fld 0x18 8 = out → q.fld 0x20 4 = n →
    LinesOpen s q.secure false false src n → LinesOpen s q.secure true false out 32 →
    ∃ t, exec (.digest i) s = .next t ∧ t = { s with regs := t.regs, mem := t.mem, hbm := t.hbm, reqs := t.reqs, out := t.out } ∧
      (∀ o, o ≠ Off.hl 0x1C → (∀ c, o ≠ Off.cway c 8) → t.reg o = s.reg o) ∧
      t.memBytes out 32 = shake256 (s.memBytes src n) ∧ SameMemOutside out (out + 32) s t ∧ t.standing i = some (.finished, .ok, n)) ∧
  (∀ (i off dst : Nat) (q : Request) (s : State), s.stopped = false → s.regWrites = [] → s.req? i = some q → q.opcode = Dop.copy →
    (s.mayStart q || s.goesOn q) = true → q.mileposts = false → off % 4 = 0 → off < Off.limit → q.fld 0x10 8 = 0x030000000000 + off →
    q.fld 0x18 8 = dst → q.fld 0x20 4 = 4 → s.toll q.secure false false true (0x030000000000 + off) 4 = .bar0 →
    (q.secure = true ∨ s.secureReg off = false) → LinesOpen s q.secure true false dst 4 →
    ∃ t, exec (.copy i) s = .next t ∧ t = { s with regs := t.regs, mem := t.mem, hbm := t.hbm, reqs := t.reqs, out := t.out } ∧
      t.memBytes dst 4 = natLe 4 (s.visibleWord q.secure off) ∧ SameMemOutside dst (dst + 4) s t ∧ t.standing i = some (.finished, .ok, 4)) ∧
  (∀ (i dst n m : Nat) (q : Request) (s : State), s.stopped = false → s.regWrites = [] → s.req? i = some q → q.opcode = Dop.fill →
    (s.mayStart q || s.goesOn q) = true → q.mileposts = false → q.fld 0x10 8 = dst → q.fld 0x20 4 = n → m < n → (m = 0 ∨ (dst + m) % 64 = 0) →
    LinesOpen s q.secure true false dst m →
    (∀ p ∈ (linePieces dst n).filter (fun p => decide (p.1 = dst + m)), s.toll q.secure false true false p.1 p.2 ∈ [.world, .memRange]) →
    ∃ t, exec (.fill i) s = .next t ∧ t.standing i = some (.finished, .faultWorld, m) ∧
      (∀ k, k < m → (t.memBytes dst m)[k]? = (natLe 8 (q.fld 0x18 8))[k % 8]?) ∧ SameMemOutside dst (dst + n) s t)

/-- TIER 2. NOP and FENCE (R280, R284). A NOP that may start is finished at once with POSITION 0. A FENCE is finished once no earlier descriptor
of its scope (its ring, or its world) is left uncompleted, with POSITION the number it waited for, and before that goes on waiting. Nothing but
the request's own entry changes. -/
def Obligations.FencesWaitForEarlierDescriptors : Prop :=
  (∀ (i : Nat) (q : Request) (s : State), s.stopped = false → s.req? i = some q → q.opcode = Dop.nop → s.mayStart q = true →
    ∃ t, exec (.nop i) s = .next t ∧ t = { s with reqs := t.reqs } ∧ t.standing i = some (.finished, .ok, 0) ∧
      (∀ k, k ≠ i → t.req? k = s.req? k)) ∧
  (∀ (i : Nat) (q : Request) (s : State), s.stopped = false → s.req? i = some q → q.opcode = Dop.fence → (s.mayStart q || s.goesOn q) = true →
    (s.earlier q).any (fun e => if q.fld 8 1 = 0 then decide (e.2.ring = q.ring) else e.2.secure == q.secure) = false →
    ∃ t, exec (.fence i) s = .next t ∧ t = { s with reqs := t.reqs } ∧ t.standing i = some (.finished, .ok, q.total) ∧
      (∀ k, k ≠ i → t.req? k = s.req? k)) ∧
  (∀ (i : Nat) (q : Request) (s : State), s.stopped = false → s.req? i = some q → q.opcode = Dop.fence → (s.mayStart q || s.goesOn q) = true →
    (s.earlier q).any (fun e => if q.fld 8 1 = 0 then decide (e.2.ring = q.ring) else e.2.secure == q.secure) = true →
    ∃ t, exec (.fence i) s = .next t ∧ t = { s with reqs := t.reqs } ∧ t.req? i = some { q with phase := .running } ∧
      (∀ k, k ≠ i → t.req? k = s.req? k))

/-! ### Passes (R24, R27, R29, R30, R39, R233, R244) -/

/-- TIER 2. LOAD_PASS and STAGING_COMPLETE (R24, R244, R318). An image in host or device memory whose length passes is copied byte for byte to
the place the pass-image area has free, and its slot reads STATE 1; a LOAD_PASS from a staged generation takes over that generation's slot (the
model's choice, log entry 17). At the end of staging a refused image ends the request with the refusal's status and, where it was read, frees its
slot, and a poisoned one with FAULT_UNCORRECTED; an image that passes stands staged, and completes the request or, with ACTIVATE, makes its
activation pending in the order of acceptance. With WAIT set and no slot free it waits for one. -/
def Obligations.StagingPlacesChecksAndRefusesImages : Prop :=
  (∀ (i k base : Nat) (q : Request) (s : State), s.stopped = false → s.req? i = some q → q.opcode = Dop.loadPass → s.mayStart q = true →
    q.mileposts = false → q.fld 0x0C 4 = 0 → ptrSpace (q.fld 0x10 8) = 1 →
    lengthBad (leNat (s.hostBytes (ptrAddr (q.fld 0x10 8) + 0x10) 8)) (leNat (s.hostBytes (ptrAddr (q.fld 0x10 8) + 0x18) 4)) (q.fld 0x18 8) = false →
    s.hostStop (ptrAddr (q.fld 0x10 8)) (max 4096 (leNat (s.hostBytes (ptrAddr (q.fld 0x10 8) + 0x10) 8))) = none →
    s.slotFor i (leNat (s.hostBytes (ptrAddr (q.fld 0x10 8) + 0x10) 8)) = some (k, base) → k < 8 →
    ∃ t, exec (.loadPass i) s = .next t ∧ t = { s with regs := t.regs, mem := t.mem, hbm := t.hbm, reqs := t.reqs, passes := t.passes } ∧
      t.memBytes base (leNat (s.hostBytes (ptrAddr (q.fld 0x10 8) + 0x10) 8)) =
        s.hostBytes (ptrAddr (q.fld 0x10 8)) (leNat (s.hostBytes (ptrAddr (q.fld 0x10 8) + 0x10) 8)) ∧
      SameMemOutside base (base + leNat (s.hostBytes (ptrAddr (q.fld 0x10 8) + 0x10) 8)) s t ∧
      t.slot? k = some (stagingInfo (q.fld 8 4) base (leNat (s.hostBytes (ptrAddr (q.fld 0x10 8) + 0x10) 8)) q.secure) ∧
      (∀ j, j ≠ k → t.slot? j = s.slot? j) ∧ t.regBits (Off.slotState k) 0 2 = 1 ∧
      t.standing i = some (.running, q.status, unitsOf (leNat (s.hostBytes (ptrAddr (q.fld 0x10 8) + 0x10) 8)))) ∧
  (∀ (i k base src n : Nat) (q : Request) (s : State), s.stopped = false → s.req? i = some q → q.opcode = Dop.loadPass → s.mayStart q = true →
    q.fld 0x0C 4 = 0 → q.fld 0x10 8 = src → leNat (s.memBytes (src + 0x10) 8) = n →
    lengthBad n (leNat (s.memBytes (src + 0x18) 4)) (q.fld 0x18 8) = false → LinesOpen s q.secure false false src (max 4096 n) →
    s.slotFor i n = some (k, base) → k < 8 →
    ∃ t, exec (.loadPass i) s = .next t ∧ t.memBytes base n = s.memBytes src n ∧ SameMemOutside base (base + n) s t ∧
      t.slot? k = some (stagingInfo (q.fld 8 4) base n q.secure) ∧ (∀ j, j ≠ k → t.slot? j = s.slot? j) ∧
      t.standing i = some (.running, q.status, unitsOf n) ∧ (∀ j, j ≠ i → t.req? j = s.req? j)) ∧
  (∀ (i k : Nat) (p : PassInfo) (q : Request) (s : State), s.stopped = false → s.req? i = some q → q.opcode = Dop.loadPass → s.mayStart q = true →
    q.mileposts = false → q.fld 0x0C 4 ≠ 0 → s.slotOf (q.fld 0x0C 4) = some (k, p) → s.staged (q.fld 0x0C 4) = true →
    s.actPending (q.fld 0x0C 4) = false →
    ∃ t, exec (.loadPass i) s = .next t ∧ t = { s with regs := t.regs, reqs := t.reqs, passes := t.passes } ∧
      t.slot? k = some (stagingInfo (q.fld 8 4) p.base p.length q.secure) ∧ (∀ j, j ≠ k → t.slot? j = s.slot? j) ∧
      t.standing i = some (.running, q.status, unitsOf p.length)) ∧
  (∀ (i k : Nat) (p : PassInfo) (q : Request) (s : State), s.stopped = false → s.req? i = some q → q.opcode = Dop.loadPass → s.goesOn q = true →
    q.aux = k + 1 → s.slot? k = some p → p.staging = true → s.hbm.flips = [] → s.poisonIn p.base p.length = none →
    (s.imgSecs p.base).findSome? (fun x => s.sectionStop p.base x) = none →
    ∃ t, exec (.stagingComplete i) s = .next t ∧ t.mem = s.mem ∧
      (∀ r, s.stagingRefusal (s.img p.base) p.gen p.secure = some r →
        t.standing i = some (.finished, r.status, q.pos) ∧ (q.fld 0x0C 4 = 0 → s.passes.slotWait = [] → t.slot? k = none)) ∧
      (s.stagingRefusal (s.img p.base) p.gen p.secure = none →
        t = { s with regs := t.regs, reqs := t.reqs, passes := t.passes } ∧
        t.slot? k = some (s.passInfo (s.img p.base) p.gen p.secure) ∧ t.passes.lastGen = p.gen ∧
        ((q.fld 0x20 1).testBit 0 = false →
          t.standing i = some (.finished, .ok, 2 * unitsOf p.length) ∧ t.passes.pending = s.passes.pending) ∧
        ((q.fld 0x20 1).testBit 0 = true → t.req? i = some q ∧
          t.passes.pending = s.insertActivation { req := i, gen := p.gen, slot := k, phase := .waiting }))) ∧
  (∀ (i k b : Nat) (p : PassInfo) (q : Request) (s : State), s.stopped = false → s.req? i = some q → q.opcode = Dop.loadPass → s.goesOn q = true →
    q.aux = k + 1 → s.slot? k = some p → p.staging = true → s.hbm.flips = [] → s.poisonIn p.base p.length = some b →
    ∃ t, exec (.stagingComplete i) s = .next t ∧ t.mem = s.mem ∧ t.standing i = some (.finished, .faultUncorrected, q.pos) ∧
      (q.fld 0x0C 4 = 0 → s.passes.slotWait = [] → t.slot? k = none)) ∧
  (∀ (i : Nat) (q : Request) (s : State), s.stopped = false → s.req? i = some q → q.opcode = Dop.loadPass → s.mayStart q = true →
    q.fld 0x0C 4 = 0 → ptrSpace (q.fld 0x10 8) = 1 → q.wait = true → s.passes.slotWait.any (fun w => decide (w.req = i)) = false →
    lengthBad (leNat (s.hostBytes (ptrAddr (q.fld 0x10 8) + 0x10) 8)) (leNat (s.hostBytes (ptrAddr (q.fld 0x10 8) + 0x18) 4)) (q.fld 0x18 8) = false →
    s.hostStop (ptrAddr (q.fld 0x10 8)) 4096 = none →
    s.slotFor i (leNat (s.hostBytes (ptrAddr (q.fld 0x10 8) + 0x10) 8)) = none →
    ∃ t, exec (.loadPass i) s = .next t ∧ t = { s with regs := t.regs, reqs := t.reqs, passes := t.passes } ∧
      t.passes = { s.passes with slotWait := s.passes.slotWait ++ [{
        req := i, gen := q.fld 8 4, len := leNat (s.hostBytes (ptrAddr (q.fld 0x10 8) + 0x10) 8), secure := q.secure }] } ∧
      t.standing i = s.standing i)

/-- TIER 2. ACTIVATION_START, ACTIVATION_DRAINED and ACTIVATION_COMPLETE (R27, R39, R233). The head activation drains once every tile of its pass
is ready; once the old generation's requests have completed and its tiles are at seams, every tile of the pass holds its steps and its plan and
powers the banks the plan covers, and every other tile's list is empty, POSITION counting the units read and those written; then the generation
is active, the old one's slot free, a slot still being staged under either number kept, and the LOAD_PASS complete. A device fault that takes a
tile of the pass meanwhile ends it with FAULT_DEVICE and no generation active. -/
def Obligations.ActivationDrainsWritesAndSwitches : Prop :=
  (∀ (a : Activation) (rest : List Activation) (q : Request) (p : PassInfo) (s : State), s.stopped = false → s.passes.pending = a :: rest →
    s.req? a.req = some q → s.slot? a.slot = some p → a.phase = .waiting → s.parkState = 0 →
    (∀ n ∈ p.tileUse, s.tileReady n = 1) →
    ∃ t, exec .activationStart s = .next t ∧ t = { s with regs := t.regs, passes := t.passes } ∧
      t.passes = { s.passes with pending := { a with phase := .draining } :: rest }) ∧
  (∀ (a : Activation) (rest : List Activation) (p : PassInfo) (s : State), s.stopped = false → s.passes.pending = a :: rest →
    s.slot? a.slot = some p → a.phase = .draining → s.parkState = 0 → (s.genActive = 0 ∨ s.pinned s.genActive = []) →
    (∀ o, s.activePass = some o → ∀ n ∈ o.tileUse, s.atSeam n = true) → p.tileUse.Nodup → (∀ n ∈ p.tileUse, n < 1024) →
    (∀ x ∈ p.sections, p.base + x.offset + x.length ≤ 0x00C000000000) → (∀ q, s.req? a.req = some q → s.behindHold q = false) →
    s.hbm.flips = [] → (p.sections.filter (fun x => decide (x.typ ≤ 6))).findSome? (fun x => s.sectionStop p.base x) = none →
    p.tileUse.any (fun n => s.tileLost (s.writePass p) n) = false →
    ∃ t, exec (.activationDrained none) s = .next t ∧
      (s.stuck = [] → t = { s with
        regs := t.regs, mem := t.mem, tiles := t.tiles, macros := t.macros, errs := t.errs, passes := t.passes, reqs := t.reqs
        host := t.host, link := t.link, rings := t.rings, out := t.out }) ∧
      (∀ q, s.req? a.req = some q → (t.req? a.req).map (·.pos) = some (2 * unitsOf p.length)) ∧
      (∀ k, k ≠ a.req → t.req? k = s.req? k) ∧
      t.passes = { s.passes with pending := { a with phase := .written } :: rest } ∧ t.genActive = s.genActive ∧
      (∀ b, sget zeroByte t.mem b ≠ sget zeroByte s.mem b → 0x020000000000 ≤ b) ∧
      (∀ n ∈ p.tileUse, (t.tile n).steps = (wordsOf 32 (s.secOr p.base p.sections 4 n 0)).map (BitVec.ofNat 256) ∧
        (t.tile n).plan = (wordsOf 16 (s.secOr p.base p.sections 5 n 0)).map (BitVec.ofNat 128) ∧
        t.reg (Off.tile n 0x900) = ofSetBits (planBanks (wordsOf 16 (s.secOr p.base p.sections 5 n 0)))) ∧
      (∀ n, n ∉ p.tileUse → (t.tile n).steps = [])) ∧
  (∀ (n : Nat) (a : Activation) (rest : List Activation) (q : Request) (p : PassInfo) (s : State), s.stopped = false → s.passes.pending = a :: rest →
    s.slot? a.slot = some p → s.req? a.req = some q → q.phase = .running → n ∈ p.tileUse → s.hbm.flips = [] →
    (p.sections.filter (fun x => decide (x.typ ≤ 6))).findSome? (fun x => s.sectionStop p.base x) = none → a.phase = .draining → s.parkState = 0 →
    (s.genActive = 0 ∨ s.pinned s.genActive = []) → (∀ o, s.activePass = some o → ∀ n ∈ o.tileUse, s.atSeam n = true) →
    s.behindHold q = false →
    ∃ t, exec (.activationDrained (some n)) s = .next t ∧ t.genActive = 0 ∧ (∀ k, (t.tile k).steps = []) ∧
      t.standing a.req = some (.finished, .faultDevice, 2 * unitsOf p.length) ∧ (∀ b ∈ t.passes.pending, b.gen ≠ a.gen)) ∧
  (∀ (a : Activation) (rest : List Activation) (q : Request) (p : PassInfo) (s : State), s.stopped = false → s.passes.pending = a :: rest →
    s.slot? a.slot = some p → s.req? a.req = some q → q.phase = .running → a.phase = .written → a.gen < 2 ^ 32 → s.passes.slotWait = [] →
    ∃ t, exec .activationComplete s = .next t ∧
      t = { s with regs := t.regs, host := t.host, link := t.link, rings := t.rings, reqs := t.reqs, passes := t.passes, out := t.out } ∧
      t.genActive = a.gen ∧ t.passes.pending = rest ∧ t.passes.slots = s.passes.slots.filter (fun e => e.2.staging || decide (e.2.gen ≠ s.genActive)) ∧
      t.standing a.req = some (.finished, .ok, 2 * unitsOf p.length) ∧ (∀ k, k ≠ a.req → t.req? k = s.req? k))

/-- TIER 2. DROP_PASS and SPILL_ROTATION (R29, R30). A staged generation with no activation pending is dropped: its slot is free. The active one,
unpinned and at seams, is dropped with every tile's list emptied and no generation active. An unknown one, or one with its activation pending,
ends the request with FAULT_PASS_GENERATION. A rotating tile at its flagged step takes the next rotation's weights into its cells, and device
memory outside its weight window stands; a member of the batch that has not come to a flagged step, or has yet to issue the one this rotation
serves, runs first. -/
def Obligations.DroppedPassesFreeTheirSlotsAndRotationsWriteTheCells : Prop :=
  (∀ (i k : Nat) (p : PassInfo) (q : Request) (s : State), s.stopped = false → s.req? i = some q → q.opcode = Dop.dropPass →
    (s.mayStart q || s.goesOn q) = true → s.actPending (q.fld 8 4) = false → q.fld 8 4 ≠ s.genActive →
    s.slotOf (q.fld 8 4) = some (k, p) → p.staging = false → s.passes.slotWait = [] →
    ∃ t, exec (.dropPass i) s = .next t ∧ t = { s with regs := t.regs, reqs := t.reqs, passes := t.passes } ∧
      t.passes = { s.passes with slots := sdel s.passes.slots k, slotHeld := s.passes.slotHeld.filter (fun e => decide (e.2 ≠ k)) } ∧ t.standing i = some (.finished, .ok, 0)) ∧
  (∀ (i : Nat) (p : PassInfo) (q : Request) (s : State), s.stopped = false → s.req? i = some q → q.opcode = Dop.dropPass →
    (s.mayStart q || s.goesOn q) = true → s.actPending (q.fld 8 4) = false → q.fld 8 4 ≠ 0 → q.fld 8 4 = s.genActive →
    s.activePass = some p → s.pinned (q.fld 8 4) = [] → (∀ n ∈ p.tileUse, s.atSeam n = true) →
    ∃ t, exec (.dropPass i) s = .next t ∧
      (s.stuck = [] → t = { s with regs := t.regs, mem := t.mem, tiles := t.tiles, macros := t.macros, reqs := t.reqs, errs := t.errs, passes := t.passes }) ∧
      t.genActive = 0 ∧ (s.activationWritten = false → ∀ n, (t.tile n).steps = []) ∧
      (s.activationWritten = true → t.tiles = s.tiles ∧ t.mem = s.mem ∧ t.macros = s.macros) ∧
      (s.passes.slotWait = [] → t.passes.slots = s.passes.slots.filter (fun e => e.2.staging || decide (e.2.gen ≠ q.fld 8 4))) ∧ t.standing i = some (.finished, .ok, 0)) ∧
  (∀ (i : Nat) (q : Request) (s : State), s.stopped = false → s.req? i = some q → q.opcode = Dop.dropPass →
    (s.mayStart q || s.goesOn q) = true → (s.actPending (q.fld 8 4) = true ∨
      ((q.fld 8 4 = 0 ∨ q.fld 8 4 ≠ s.genActive) ∧ s.slotOf (q.fld 8 4) = none)) →
    ∃ t, exec (.dropPass i) s = .next t ∧ t.passes = s.passes ∧ t.standing i = some (.finished, .faultPassGeneration, q.pos)) ∧
  (∀ (n f r : Nat) (x : Section) (rest : List Nat) (p : PassInfo) (s : State), s.stopped = false → s.activePass = some p → (s.tile n).queue = f :: rest →
    p.rotating.contains n = true → (s.tile n).rotReady.contains f = false → s.atSeam n = true → s.parkState = 0 →
    (∀ q ∈ (s.tile n).queue.take (p.batch + 1), (s.tile n).atFlag q = true ∧ (s.tile n).rotReady.contains q = false) →
    (p.sections.filter (fun x => decide (x.typ = 7) && decide (x.tile = n))).length ≠ 0 →
    r = (s.tile n).rotation % (p.sections.filter (fun x => decide (x.typ = 7) && decide (x.tile = n))).length →
    findSec p.sections 7 n r = some x → x.length ≤ 0x100000 →
    s.stuck = [] → s.hbm.flips = [] → (s.rotationSections p n).findSome? (fun x => s.sectionStop p.base x) = none →
    ∃ t, exec (.spillRotation n) s = .next t ∧ t = { s with regs := t.regs, mem := t.mem, tiles := t.tiles, macros := t.macros, errs := t.errs } ∧
      t.memBytes (cimBase n) x.length = s.secBytes p.base x ∧ SameMemOutside (cimBase n) (cimBase n + 0x100000) s t ∧
      (t.tile n).rotation = r + 1 ∧ (t.tile n).rotReady = ((s.tile n).queue.take (p.batch + 1)).filter (fun q => decide ((s.tile n).flagNumber q %
        (p.sections.filter (fun x => decide (x.typ = 7) && decide (x.tile = n))).length = r)) ∧
      (∀ k, k ≠ n → t.tile k = s.tile k)) ∧
  (∀ (n f m : Nat) (rest : List Nat) (p : PassInfo) (s : State), s.stopped = false → s.activePass = some p → (s.tile n).queue = f :: rest →
    p.rotating.contains n = true → (s.tile n).atFlag f = true → (s.tile n).rotReady.contains f = false → s.atSeam n = true → s.parkState = 0 →
    ((s.tile n).queue.take (p.batch + 1)).find? (fun q => !(s.tile n).atFlag q || (s.tile n).rotReady.contains q) = some m →
    ∃ t, exec (.spillRotation n) s = .next t ∧ t = { s with tiles := t.tiles } ∧ t.tile n = (s.tile n).bringFront m ∧
      (t.tile n).queue.head? = some m ∧ (∀ k, k ≠ n → t.tile k = s.tile k))

/-! ### Streams (R149, R151, R152, R172 to R174) -/

/-- TIER 2. STREAM_OPEN, STREAM_CLOSE and KEYFRAME (R149, R172, R173, R174). A closed stream opened under a staged or active generation of its
world gets the free units its state needs and its context, and POSITION is the units; device memory outside its area, its context and its guard
entries stands. With nothing in flight a stream is closed: its state is 0, its units are given back and POSITION counts them. KEYFRAME sets
KEY_PENDING of an open stream; where the context must be read from HBM and is poisoned, it ends with FAULT_UNCORRECTED (R246). -/
def Obligations.StreamsOpenCloseAndTakeKeyframes : Prop :=
  (∀ (i base : Nat) (q : Request) (e : Nat × PassInfo) (s : State), s.stopped = false → s.req? i = some q → q.opcode = Dop.streamOpen →
    (s.mayStart q || s.goesOn q) = true → s.slotOf (q.fld 0x0C 4) = some e → e.2.secure = q.secure → e.2.staging = false → q.fld 0x0C 4 ≠ 0 →
    s.streamState q.streamNo = 0 → ptrSpace (q.fld 0x20 8) = 1 →
    s.hostStop (ptrAddr (q.fld 0x20 8)) (4 * q.fld 0x1A 2) = none →
    s.fitUnits q.secure (stateUnits (s.needFor (q.fld 0x0C 4)
      (if (s.genProg (q.fld 0x0C 4)).pixel then frameBytes (q.fld 0x13 1) (q.fld 0x14 2) (q.fld 0x16 2) else 0))) q.streamNo = some base →
    (s.guardAddr q.streamNo + 1024 ≤ s.ctxAddr q.streamNo ∨ s.ctxAddr q.streamNo + 128 ≤ s.guardAddr q.streamNo) →
    ∃ t, exec (.streamOpen i) s = .next t ∧ t = { s with regs := t.regs, mem := t.mem, hbm := t.hbm, reqs := t.reqs } ∧
      t.hbm = { s.hbm with poison := t.hbm.poison, flips := t.hbm.flips } ∧ (∀ o, (∀ c, o ≠ Off.cway c 8) → t.reg o = s.reg o) ∧
      t.memBytes (s.ctxAddr q.streamNo) 128 = openContext q base (stateUnits (s.needFor (q.fld 0x0C 4)
        (if (s.genProg (q.fld 0x0C 4)).pixel then frameBytes (q.fld 0x13 1) (q.fld 0x14 2) (q.fld 0x16 2) else 0)))
        ((s.genProg (q.fld 0x0C 4)).directory
          (if (s.genProg (q.fld 0x0C 4)).pixel then frameBytes (q.fld 0x13 1) (q.fld 0x14 2) (q.fld 0x16 2) else 0)).length ∧
      t.streamState q.streamNo = 1 ∧ t.keyPending q.streamNo = true ∧
      (∀ a, (a < base ∨ base + 0x200000 * stateUnits (s.needFor (q.fld 0x0C 4)
          (if (s.genProg (q.fld 0x0C 4)).pixel then frameBytes (q.fld 0x13 1) (q.fld 0x14 2) (q.fld 0x16 2) else 0)) ≤ a) →
        (a < s.ctxAddr q.streamNo ∨ s.ctxAddr q.streamNo + 128 ≤ a) → (a < s.guardAddr q.streamNo ∨ s.guardAddr q.streamNo + 1024 ≤ a) →
        sget zeroByte t.mem a = sget zeroByte s.mem a) ∧
      t.standing i = some (.finished, .ok, stateUnits (s.needFor (q.fld 0x0C 4)
        (if (s.genProg (q.fld 0x0C 4)).pixel then frameBytes (q.fld 0x13 1) (q.fld 0x14 2) (q.fld 0x16 2) else 0))) ∧
      (∀ k, k ≠ i → t.req? k = s.req? k)) ∧
  (∀ (i : Nat) (q : Request) (s : State), s.stopped = false → s.req? i = some q → q.opcode = Dop.streamClose →
    (s.mayStart q || s.goesOn q) = true → s.streamState q.streamNo = 1 → s.streamSecure q.streamNo = q.secure →
    s.ctx q.streamNo Cx.inflight 4 = 0 → (s.readContext q.streamNo).2 = none →
    ∃ t, exec (.streamClose i) s = .next t ∧ t = { s with mem := t.mem, reqs := t.reqs, hbm := t.hbm, regs := t.regs, errs := t.errs } ∧
      (s.hbm.flips = [] → t.regs = s.regs ∧ t.errs = s.errs) ∧
      t.streamState q.streamNo = 0 ∧ t.keyPending q.streamNo = false ∧ t.ctx q.streamNo Cx.units 4 = 0 ∧ t.ctx q.streamNo Cx.base 8 = 0 ∧
      SameMemOutside (s.ctxAddr q.streamNo) (s.ctxAddr q.streamNo + 0x14) s t ∧
      t.standing i = some (.finished, .ok, s.ctx q.streamNo Cx.units 4) ∧ (∀ k, k ≠ i → t.req? k = s.req? k)) ∧
  (∀ (i : Nat) (q : Request) (s : State), s.stopped = false → s.req? i = some q → q.opcode = Dop.keyframe →
    (s.mayStart q || s.goesOn q) = true → s.streamState q.streamNo = 1 → s.streamSecure q.streamNo = q.secure →
    (s.readContext q.streamNo).2 = none →
    ∃ t, exec (.keyframe i) s = .next t ∧ t = { s with mem := t.mem, reqs := t.reqs, hbm := t.hbm, regs := t.regs, errs := t.errs } ∧
      (s.hbm.flips = [] → t.regs = s.regs ∧ t.errs = s.errs) ∧
      t.keyPending q.streamNo = true ∧ t.streamState q.streamNo = 1 ∧
      SameMemOutside (s.ctxAddr q.streamNo) (s.ctxAddr q.streamNo + 4) s t ∧
      t.standing i = some (.finished, .ok, s.ctx q.streamNo Cx.frame 8 % 2 ^ 32)) ∧
  (∀ (i b : Nat) (q : Request) (s : State), s.stopped = false → s.req? i = some q → q.opcode = Dop.keyframe →
    (s.mayStart q || s.goesOn q) = true → s.streamState q.streamNo = 1 → s.streamSecure q.streamNo = q.secure →
    (s.readContext q.streamNo).2 = some b →
    ∃ t, exec (.keyframe i) s = .next t ∧ t.mem = s.mem ∧ t.standing i = some (.finished, .faultUncorrected, q.pos) ∧
      (s.hbm.flips = [] → t.reg (Off.cway (s.causewayOf b) 4) = (s.reg (Off.cway (s.causewayOf b) 4) + 1) % 2 ^ 32))

/-! ### SAVE, RESTORE and the hold (R302 to R309) -/

/-- TIER 2. OBJECT_HOLD, SAVE and RESTORE (R302, R303, R304, R306, R308). A SAVE or RESTORE takes its hold, and the time, once no earlier request
of its world uses its object, and waits until then. A stream saved to host memory stands there as header and body, its state read from its
context, guards and area, without the frames accepted after the SAVE; a tile as the bytes of its powered banks and zeros; a staged pass byte for
byte; no other byte of host memory changes. A stream image whose checks pass is applied, its context rebuilt for its new place, if its content
digest agrees; else it ends FAULT_UNCORRECTED. -/
def Obligations.SavedImagesAreWrittenWholeAndRestoredWhenTheyAgree : Prop :=
  (∀ (i : Nat) (q : Request) (s : State), s.stopped = false → s.req? i = some q → q.saves = true → s.mayStart q = true → s.holdFree q = true →
    ∃ t, exec (.objectHold i) s = .next t ∧ t = { s with reqs := t.reqs } ∧
      t.req? i = some { q with phase := .running, held := true, aux := s.now } ∧ (∀ k, k ≠ i → t.req? k = s.req? k)) ∧
  (∀ (i : Nat) (q : Request) (s : State), s.req? i = some q → s.holdFree q = false →
    ∃ t, exec (.objectHold i) s = .next t ∧ t = s) ∧
  (∀ (i a : Nat) (q : Request) (s : State), s.stopped = false → s.regWrites = [] → s.hbm.flips = [] → s.req? i = some q → q.opcode = Dop.save → q.held = true → s.goesOn q = true →
    q.mileposts = false → q.secureToHost = false → q.scope = 0 → s.streamState q.object = 1 → s.streamSecure q.object = q.secure →
    0x1000 + (s.streamBody q).length ≤ q.fld 0x18 8 → s.poisonIn (s.ctxAddr q.object) 128 = none →
    s.poisonIn (s.guardAddr q.object) 1024 = none →
    s.poisonIn (s.ctx q.object Cx.base 8) (s.needFor (s.savedGen q) (s.streamFrame q.object)) = none →
    q.fld 0x10 8 = 2 ^ 62 + a → a + 0x1000 < 2 ^ 52 →
    s.hostStop a (4096 + (s.streamBody q).length) = none →
    ∃ t, exec (.save i) s = .next t ∧ t = { s with regs := t.regs, host := t.host, reqs := t.reqs } ∧
      t.hostBytes a 4096 = saveHeader 0 (worldNum q.secure) q.object s.sec.feature (4096 + (s.streamBody q).length) q.aux
        (((s.slotOf (s.savedGen q)).map (·.2.passDigest)).getD (List.replicate 32 0))
        (contentDigest (s.streamBody q))
        (0x1000 + s.needFor (s.savedGen q) (s.streamFrame q.object)) ∧
      t.hostBytes (a + 4096) (s.streamBody q).length = s.streamBody q ∧
      SameHostOutside a (a + 4096 + (s.streamBody q).length) s t ∧
      t.standing i = some (.finished, .ok, 1 + (s.streamBody q).length / 4096) ∧
      t.reg (Off.park 0x20) = (s.reg (Off.park 0x20) + 1) % 2 ^ 32 ∧ SameRegsBut [Off.park 0x20] s t) ∧
  (∀ (i a : Nat) (q : Request) (s : State), s.stopped = false → s.regWrites = [] → s.hbm.flips = [] → s.req? i = some q → q.opcode = Dop.save → q.held = true → s.goesOn q = true →
    q.mileposts = false → q.secureToHost = false → q.scope = 1 → q.object < 1024 → s.present q.object = true → s.unbacked q.object = false →
    0x181000 ≤ q.fld 0x18 8 → (∀ b ∈ s.banksOn q.object, BankLinesOpen s q.secure false (spBase q.object + 0x10000 * b) 0x10000) →
    (∀ b ∈ s.banksOn q.object, (s.tile q.object).sleep = .awake) →
    q.fld 0x10 8 = 2 ^ 62 + a → a + 0x1000 < 2 ^ 52 → (∀ l ∈ s.hostBad, 64 * l + 64 ≤ a ∨ a + 0x181000 ≤ 64 * l) →
    ∃ t, exec (.save i) s = .next t ∧ t = { s with regs := t.regs, host := t.host, reqs := t.reqs } ∧
      (∀ b, b < 24 → t.hostBytes (a + 4096 + 0x10000 * b) 0x10000 =
        if b ∈ s.banksOn q.object then s.memBytes (spBase q.object + 0x10000 * b) 0x10000 else List.replicate 0x10000 0) ∧
      leNat (t.hostBytes a 4) = 0x45564153 ∧ t.hostBytes (a + 0x40) 32 = contentDigest (t.hostBytes (a + 4096) 0x180000) ∧
      SameHostOutside a (a + 0x181000) s t ∧ t.standing i = some (.finished, .ok, 385)) ∧
  (∀ (i a k : Nat) (p : PassInfo) (q : Request) (s : State), s.stopped = false → s.regWrites = [] → s.hbm.flips = [] → s.req? i = some q → q.opcode = Dop.save → q.held = true →
    s.goesOn q = true → q.mileposts = false → q.secureToHost = false → 1 < q.scope → s.slotOf q.object = some (k, p) → p.secure = q.secure →
    p.staging = false → q.object ≠ 0 → p.length ≤ q.fld 0x18 8 → s.poisonIn p.base p.length = none → q.fld 0x10 8 = 2 ^ 62 + a → a < 2 ^ 52 →
    s.hostStop a p.length = none →
    ∃ t, exec (.save i) s = .next t ∧ t = { s with regs := t.regs, host := t.host, reqs := t.reqs } ∧
      t.hostBytes a p.length = s.memBytes p.base p.length ∧ SameHostOutside a (a + p.length) s t ∧
      t.standing i = some (.finished, .ok, p.length / 4096)) ∧
  (∀ (i a g base : Nat) (q : Request) (s : State), s.stopped = false → s.req? i = some q → q.opcode = Dop.restore → q.held = true →
    s.goesOn q = true → q.mileposts = false → q.secureToHost = false → q.scope = 0 → q.fld 0x10 8 = 2 ^ 62 + a → a + 0x1000 < 2 ^ 52 → 4096 ≤ q.fld 0x18 8 →
    s.hostStop a (max 4096 (leNat (s.hostBytes (a + 0x10) 8))) = none → headerBad q (s.hostBytes a 4096) = false → leNat (s.hostBytes (a + 7) 1) = worldNum q.secure →
    leNat (s.hostBytes (a + 0xC) 4) ≤ s.sec.feature → s.bindImage q.secure (s.hostBytes (a + 0x20) 32) = some g →
    s.streamState q.object = 0 → s.fitUnits q.secure (leNat (s.hostBytes (a + 4096 + Cx.units) 4)) q.object = some base →
    ∃ t, exec (.restore i) s = .next t ∧
      (contentDigest (s.hostBytes (a + 4096) (leNat (s.hostBytes (a + 0x10) 8) - 4096)) = s.hostBytes (a + 0x40) 32 →
        t = { s with regs := t.regs, mem := t.mem, hbm := t.hbm, reqs := t.reqs } ∧
        t.memBytes (s.ctxAddr q.object) 128 =
          restoredContext (s.hostBytes (a + 4096) 128) q.secure g base (leNat (s.hostBytes (a + 4096 + Cx.units) 4)) ∧
        t.streamState q.object = 1 ∧ t.standing i = some (.finished, .ok, leNat (s.hostBytes (a + 0x10) 8) / 4096) ∧
        t.reg (Off.park 0x24) = (s.reg (Off.park 0x24) + 1) % 2 ^ 32) ∧
      (contentDigest (s.hostBytes (a + 4096) (leNat (s.hostBytes (a + 0x10) 8) - 4096)) ≠ s.hostBytes (a + 0x40) 32 →
        t.mem = s.mem ∧ t.standing i = some (.finished, .faultUncorrected, leNat (s.hostBytes (a + 0x10) 8) / 4096) ∧
        t.reg (Off.park 0x28) = (s.reg (Off.park 0x28) + 1) % 2 ^ 32))

/-! ### RUN (R285, R286, R188) -/

/-- TIER 2. RUN (R285, R286). A RUN of the active generation whose tiles are ready and whose stream does not move starts: with NO_INPUT at once,
else after its input stands in its region, byte for byte; it then stands behind the others in the queue of every tile of its pass. Once its
lists, digests and scale records have ended, it ends with its OK status and its last LAYER in POSITION (the highest: the model's reading, log
entry 69), and without NO_OUTPUT its output region's bytes stand at OUTPUT, every other byte of host memory unchanged. One aborted inside a step
ends ABORTED where its steps stand (log entry 18). -/
def Obligations.RunsCopyTheirInputEnterTheirTilesAndCopyTheirOutput : Prop :=
  (∀ (i : Nat) (q : Request) (s : State), s.stopped = false → s.regWrites = [] → s.req? i = some q → q.opcode = Dop.run → s.mayStart q = true → s.genActive = q.gen →
    s.frameWaiting q = false → (s.tilesOf q).Nodup → (∀ n ∈ s.tilesOf q, s.tileReady n = 1) → (q.stream = none ∨ q.moved = false) →
    q.noInput = true →
    ∃ t, exec (.run i) s = .next t ∧ t = { s with reqs := t.reqs, tiles := t.tiles } ∧
      (∀ n ∈ s.tilesOf q, t.tile n = { s.tile n with queue := (s.tile n).queue ++ [i] }) ∧ (∀ n, n ∉ s.tilesOf q → t.tile n = s.tile n) ∧
      t.standing i = some (.running, q.status, q.pos) ∧ (t.req? i).map (·.tilesLeft) = some (s.tilesOf q) ∧
      (∀ k, k ≠ i → t.req? k = s.req? k)) ∧
  (∀ (i a dst n : Nat) (q : Request) (s : State), s.stopped = false → s.regWrites = [] → s.req? i = some q → q.opcode = Dop.run → s.mayStart q = true →
    s.genActive = q.gen → s.frameWaiting q = false → (∀ n ∈ s.tilesOf q, s.tileReady n = 1) → (q.stream = none ∨ q.moved = false) →
    q.noInput = false → ptrSpace (q.fld 0x18 8) = 1 → ptrAddr (q.fld 0x18 8) = a → q.fld 0x20 4 = n →
    spBase (hTile (q.fld 0x24 2)) + Rg.lo (s.entryOf (q.fld 0x24 2)) = dst → ptrSpace dst = 0 → ptrAddr dst = dst →
    s.hostStop a n = none → BankLinesOpen s q.secure true dst n →
    ∃ t, exec (.run i) s = .next t ∧ t = { s with mem := t.mem, reqs := t.reqs, tiles := t.tiles, macros := t.macros, regs := t.regs } ∧ SameRegsBut [Off.ms 0x38] s t ∧
      t.memBytes dst n = s.hostBytes a n ∧ SameMemOutside dst (dst + n) s t ∧ t.standing i = some (.running, q.status, q.pos) ∧
      (∀ n ∈ s.tilesOf q, i ∈ (t.tile n).queue)) ∧
  (∀ (i : Nat) (q : Request) (s : State), s.stopped = false → s.regWrites = [] → s.req? i = some q → q.opcode = Dop.run → q.phase = .running → s.goesOn q = true →
    s.runDone i q = true → q.noOutput = true → q.fld 0x38 8 = 0 →
    ∃ t, exec (.run i) s = .next t ∧ t = { s with reqs := t.reqs } ∧ t.standing i = some (.finished, q.okStatus, s.prog.lastLayer)) ∧
  (∀ (i a src n : Nat) (q : Request) (s : State), s.stopped = false → s.regWrites = [] → s.req? i = some q → q.opcode = Dop.run → q.phase = .running →
    s.goesOn q = true → s.runDone i q = true → q.noOutput = false → q.fld 0x38 8 = 0 → ptrSpace (q.fld 0x28 8) = 1 → ptrAddr (q.fld 0x28 8) = a →
    q.fld 0x30 4 = n → spBase (hTile (q.fld 0x26 2)) + Rg.lo (s.entryOf (q.fld 0x26 2)) = src → ptrSpace src = 0 → ptrAddr src = src →
    s.hostStop a n = none → BankLinesOpen s q.secure false src n →
    ∃ t, exec (.run i) s = .next t ∧ t = { s with host := t.host, reqs := t.reqs, tiles := t.tiles, regs := t.regs } ∧ SameRegsBut [Off.ms 0x38] s t ∧
      (∀ k, t.tile k = { s.tile k with sleep := (t.tile k).sleep, sleepSince := (t.tile k).sleepSince, gapLast := (t.tile k).gapLast }) ∧
      t.hostBytes a n = s.memBytes src n ∧
      SameHostOutside a (a + n) s t ∧ t.standing i = some (.finished, q.okStatus, s.prog.lastLayer)) ∧
  (∀ (i : Nat) (q : Request) (s : State), s.stopped = false → s.regWrites = [] → s.req? i = some q → q.opcode = Dop.run → q.phase = .stopping →
    s.parkState < 2 →
    ∃ t, exec (.run i) s = .next t ∧ t.mem = s.mem ∧ t.host = s.host ∧ t.tiles = s.tiles ∧ t.standing i = some (.finished, .aborted, q.pos))

/-! ### The sequencer (R32, R85, R226, R228, R230) -/

/-- TIER 2. WAIT_RANGE, SEAM, END and STEP_COMPLETE (R32, R85, R226, R228). A WAIT_RANGE passes once its range is free, using its request's
markers; before that nothing changes. A SEAM gives the tile its tag. END takes the request off the tile once its steps have completed. A finished
step leaves the sequencer and the scoreboard and sends one marker for each region of another tile it wrote, which waits at its sender where R493
says so; where an aborted RUN then stands inside no step, the RUN ends ABORTED (R294). -/
def Obligations.ListsPassWaitsSeamsAndEnds : Prop :=
  (∀ (n i waits w : Nat) (q : Request) (s : State), s.stopped = false → s.ready n Op.waitRange i q w = true → q.opcode = Dop.run →
    s.rangeFree n i w = true →
    ∃ t, exec (.waitRange n waits) s = .next t ∧ t = { s with regs := t.regs, tiles := t.tiles, reqs := t.reqs } ∧
      (t.tile n).pc = (s.tile n).pc + 1 ∧
      (t.tile n).arrivals = (s.tile n).arrivals.filter (fun a => !(decide (a.region = hIdx (Step.src w)) && decide (a.req = i))) ∧
      (t.req? i).map (·.stepsDone) = some (q.stepsDone + 1) ∧ (∀ k, k ≠ n → t.tile k = s.tile k) ∧ (∀ k, k ≠ i → t.req? k = s.req? k)) ∧
  (∀ (n i waits w : Nat) (q : Request) (s : State), s.ready n Op.waitRange i q w = true → s.rangeFree n i w = false →
    ∃ t, exec (.waitRange n waits) s = .next t ∧ t = s) ∧
  (∀ (n i waits w : Nat) (q : Request) (s : State), s.stopped = false → s.ready n Op.seam i q w = true → q.opcode = Dop.run →
    ∃ t, exec (.seam n waits) s = .next t ∧ t = { s with regs := t.regs, tiles := t.tiles, reqs := t.reqs } ∧
      (t.tile n).curTag = Step.tag w ∧ (t.tile n).pc = (s.tile n).pc + 1 ∧ (t.tile n).running = (s.tile n).running ∧
      (t.req? i).map (·.stepsDone) = some (q.stepsDone + 1)) ∧
  (∀ (n i w : Nat) (q : Request) (s : State), s.stopped = false → s.ready n Op.end_ i q w = true → q.opcode = Dop.run →
    (s.tile n).running.any (fun r => decide (r.req = i)) = false →
    ∃ t, exec (.endList n) s = .next t ∧ t = { s with tiles := t.tiles, reqs := t.reqs } ∧
      (t.tile n).queue = (s.tile n).queue.drop 1 ∧ (t.req? i).map (·.tilesLeft) = some (q.tilesLeft.filter (fun x => decide (x ≠ n))) ∧
      (∀ k, k ≠ n → t.tile k = s.tile k) ∧ (∀ k, k ≠ i → t.req? k = s.req? k)) ∧
  (∀ (n idx : Nat) (r : RStep) (q : Request) (s : State), s.stopped = false →
    (s.tile n).running.find? (fun r => decide (r.idx = idx) && r.finished) = some r → s.parkState < 2 → s.req? r.req = some q →
    q.opcode = Dop.run → q.phase ≠ .stopping →
    ∃ t, exec (.stepComplete n idx) s = .next t ∧
      t = { s with regs := t.regs, tiles := t.tiles, macros := t.macros, mesh := t.mesh, reqs := t.reqs } ∧
      (t.tile n).running = (s.tile n).running.filter (fun x => decide (x ≠ r)) ∧
      (t.tile n).sb = (s.tile n).sb.filter (fun x => !(decide (x.step = r.idx) && decide (x.req = r.req))) ∧
      t.mesh = { s.mesh with markers := t.mesh.markers, held := t.mesh.held } ∧
      t.mesh.markers = s.mesh.markers ++ (regionMarkers s n r q.order).filter (fun m => !s.markerHeld m) ∧
      t.mesh.held = s.mesh.held ++ ((regionMarkers s n r q.order).filter s.markerHeld).map (fun m => (n, m)) ∧
      (t.req? r.req).map (fun q => (q.stepsDone, q.pos)) = some (q.stepsDone + 1, Step.layer r.w)) ∧
  (∀ (n idx : Nat) (r : RStep) (q : Request) (s : State), s.stopped = false →
    (s.tile n).running.find? (fun r => decide (r.idx = idx) && r.finished) = some r → s.parkState < 2 → s.req? r.req = some q →
    q.phase = .stopping → (s.updTile n (fun t => { t with running := t.running.filter (fun x => decide (x ≠ r)) })).midStep r.req = false →
    ∃ t, exec (.stepComplete n idx) s = .next t ∧ (t.req? r.req).map (fun q => (q.phase, q.status)) = some (.finished, .aborted))

/-- TIER 2. MARKER_ARRIVAL, REMOTE_DRAIN_ARRIVAL, SCATTER_CONTRIBUTION and CIRCULAR_RECORD_LANDED (R77, R162, R163, R228, R230, R235). What the
mesh carries arrives one by one: a marker raises its arrival count by 1; a drain adds its values to the entries of its open slot, modulo 2^80,
and to its terms; a contribution adds its sums to its entry; one whose request has ended is discarded. A marker that waited at its sender for a
SEAM step of the tile (R493) is sent, and counted there, once it need wait no longer, and not before. A drain wakes a sleeping tile. A record
landed in front of its region moves TAIL over every complete record behind it. -/
def Obligations.MeshTrafficIsTakenOneByOne : Prop :=
  (∀ (n : Nat) (m : Marker) (s : State), s.stopped = false → s.mesh.held.any (fun h => decide (h.2.dst = n) && !s.markerHeld h.2) = false →
    s.mesh.markers.find? (fun m => decide (m.dst = n) && s.takesMarker m) = some m → s.liveAs m.req m.ord = true →
    ∃ t, exec (.markerArrival n) s = .next t ∧ t = { s with regs := t.regs, tiles := t.tiles, mesh := t.mesh } ∧
      t.mesh = { s.mesh with markers := s.mesh.markers.erase m } ∧
      (t.tile n).arrivals = (if (s.tile n).arrivals.any (fun a => decide (a.region = m.region) && decide (a.req = m.req)) then
        (s.tile n).arrivals.map (fun a => if a.region = m.region ∧ a.req = m.req then { a with count := a.count + 1 } else a)
        else (s.tile n).arrivals ++ [{ region := m.region, req := m.req, count := 1 }])) ∧
  (∀ (n : Nat) (m : Marker) (s : State), s.stopped = false → s.mesh.held.any (fun h => decide (h.2.dst = n) && !s.markerHeld h.2) = false →
    s.mesh.markers.find? (fun m => decide (m.dst = n) && s.takesMarker m) = some m → s.liveAs m.req m.ord = false →
    ∃ t, exec (.markerArrival n) s = .next t ∧
      t = { s with regs := t.regs, mesh := { s.mesh with markers := s.mesh.markers.erase m } } ∧
      t.reg (Off.tile n 0x928) = (s.reg (Off.tile n 0x928) + 1) % 2 ^ 32 ∧ SameRegsBut [Off.tile n 0x928] s t) ∧
  (∀ (n k : Nat) (m : Marker) (s : State), s.stopped = false → s.mesh.markers = [] → s.mesh.held = [(k, m)] → m.dst = n →
    ∃ t, exec (.markerArrival n) s = .next t ∧
      (s.markerHeld m = true → t = s) ∧
      (s.markerHeld m = false → k ≠ n → k < 1024 → t.mesh.held = [] ∧ t.reg (Off.tile k 0x920) = (s.reg (Off.tile k 0x920) + 1) % 2 ^ 32 ∧
        (s.takesMarker m = true → t.mesh.markers = []) ∧ (s.takesMarker m = false → t.mesh.markers = [m]))) ∧
  (∀ (n stalls : Nat) (d : Drain) (x : Slot) (s : State), s.stopped = false →
    s.mesh.drains.find? (fun d => decide (d.dst = n) && (s.arriveDrain d).isSome) = some d → s.liveAs d.req d.ord = true → d.region < 64 →
    (s.tile n).slot? d.region d.req d.position = some x → s.prog.floatRange (64 * n + d.region) = false → x.terms + d.terms < 2 ^ 40 →
    tagClash (s.tile n).ledger d.tag ((macroPlaces d.block d.values).map (fun v => x.first + v.1)) = none →
    ∃ t, exec (.remoteDrainArrival n stalls) s = .next t ∧ t = { s with regs := t.regs, tiles := t.tiles, mesh := t.mesh } ∧
      t.mesh = { s.mesh with drains := s.mesh.drains.erase d } ∧ t.reg (Off.tile n 0x31C) = (s.reg (Off.tile n 0x31C) + stalls) % 2 ^ 32 ∧
      t.reg (Off.tile n 0x32C) = (s.reg (Off.tile n 0x32C) + 1) % 2 ^ 32 ∧ (t.tile n).sleep = .awake ∧
      (∀ k, (hk : k < d.values.length) → tget (t.tile n).ledger (x.first + (d.block * d.values.length + k)) =
        some (match tget (s.tile n).ledger (x.first + (d.block * d.values.length + k)) with
          | some e => { e with value := e.value + BitVec.ofInt 80 d.values[k] }
          | none => { value := BitVec.ofInt 80 d.values[k], tag := d.tag })) ∧
      (∀ k, (k < x.first + d.block * d.values.length ∨ x.first + d.block * d.values.length + d.values.length ≤ k) →
        tget (t.tile n).ledger k = tget (s.tile n).ledger k) ∧ (∀ k, k ≠ n → t.tile k = s.tile k)) ∧
  (∀ (n stalls : Nat) (d : Drain) (s : State), s.stopped = false →
    s.mesh.drains.find? (fun d => decide (d.dst = n) && (s.arriveDrain d).isSome) = some d → s.liveAs d.req d.ord = false →
    ∃ t, exec (.remoteDrainArrival n stalls) s = .next t ∧
      t = { s with regs := t.regs, tiles := t.tiles, mesh := { s.mesh with drains := s.mesh.drains.erase d } } ∧
      t.reg (Off.tile n 0x318) = (s.reg (Off.tile n 0x318) + 1) % 2 ^ 32 ∧
      SameRegsBut [Off.tile n 0x318, Off.tile n 0x31C, Off.ms 0x38] s t ∧ (t.tile n).ledger = (s.tile n).ledger ∧ (t.tile n).slots = (s.tile n).slots ∧
      ((s.tile n).sleep = .awake → t.tiles = s.tiles)) ∧
  (∀ (n stalls : Nat) (c : Contribution) (e : ScatEntry) (s : State), s.stopped = false →
    s.mesh.contribs.find? (fun c => decide (c.dst = n) && s.takesContribution c) = some c → s.liveAs c.req c.ord = true →
    (s.tile n).scat.find? (fun e => decide (e.position = c.position) && decide (e.group = c.group)) = some e → e.tag = c.tag →
    e.count + 1 < c.limit →
    ∃ t, exec (.scatterContribution n stalls) s = .next t ∧ t = { s with regs := t.regs, tiles := t.tiles, mesh := t.mesh } ∧
      t.reg (Off.tile n 0x618) = (s.reg (Off.tile n 0x618) + stalls) % 2 ^ 32 ∧ SameRegsBut [Off.tile n 0x618] s t ∧
      t.mesh = { s.mesh with contribs := s.mesh.contribs.erase c } ∧
      (∃ f ∈ (t.tile n).scat, f.position = c.position ∧ f.group = c.group ∧ f.count = e.count + 1 ∧ f.sums.length = c.sums.length ∧
        ∀ k, k < c.sums.length → f.sums.getD k 0 = e.sums.getD k 0 + c.sums.getD k 0) ∧
      (t.tile n).scatOwner = some (c.req, c.layer) ∧ (∀ k, k ≠ n → t.tile k = s.tile k)) ∧
  (∀ (n stalls : Nat) (c : Contribution) (s : State), s.stopped = false →
    s.mesh.contribs.find? (fun c => decide (c.dst = n) && s.takesContribution c) = some c → s.liveAs c.req c.ord = false →
    ∃ t, exec (.scatterContribution n stalls) s = .next t ∧ t = { s with regs := t.regs, mesh := { s.mesh with contribs := s.mesh.contribs.erase c } } ∧
      SameRegsBut [Off.tile n 0x618] s t) ∧
  (∀ (n cq k : Nat) (x : CircRec) (rest : List CircRec) (s : State), s.stopped = false →
    (s.tile n).circ = x :: rest → x.cq = cq → x.num = k → x.landed = false → (∀ y ∈ rest, y.cq = cq ∧ y ≠ x) → s.reg (circOcc n cq) = 0 → cq < 16 →
    ∃ t, exec (.circularRecordLanded n cq k) s = .next t ∧ t = { s with regs := t.regs, tiles := t.tiles } ∧
      (t.tile n).circ = { x with landed := true } :: rest ∧
      t.reg (circTail n cq) = (s.reg (circTail n cq) + (1 + (rest.takeWhile (·.landed)).length)) % 2 ^ 32 ∧
      t.reg (circOcc n cq) = (1 + (rest.takeWhile (·.landed)).length) % 2 ^ 32 ∧
      SameRegsBut [circTail n cq, circOcc n cq] s t)

/-! ### Vector work of a tile: SHANK, REDUCE, REQUANT, COMPRESS, COLLECT (R81, R89, R100, R102, R123 to R128, R211, R212) -/

/-- TIER 2. SHANK, REDUCE and REQUANT (R89, R100, R102, R211, R212). A running step whose reads are good and whose destination is open leaves
there, whole, what its function gives of its source: SHANK its elements in the output format, REDUCE of integers the sums, squares or moments of
each group, REQUANT of a frame without a stream one code for each 32-bit word under its fixed scale. Every other byte of device memory stands and
the step is finished. -/
def Obligations.VectorStepsWriteTheirResultsWhole : Prop :=
  (∀ (n waits cycles : Nat) (r : RStep) (q : Request) (s : State), s.stopped = false → s.runsOnly n Op.shank r q = true → s.shkRefusal q r.w = none →
    Rg.kind (s.entryOf (Step.dst r.w)) ≠ Kind.ledger → Shk.func r.w ≠ 9 → Shk.func r.w ≠ 0xC → Step.vary r.w = false →
    s.dstOpen q.secure (Step.dst r.w) 0 (elemBytes (s.shkResult r.w).1 (s.shkResult r.w).2).length = true →
    ∃ t, exec (.shank n waits cycles) s = .next t ∧ t = { s with regs := t.regs, mem := t.mem, tiles := t.tiles, macros := t.macros } ∧
      t.memBytes (s.dstAt (Step.dst r.w) 0) (elemBytes (s.shkResult r.w).1 (s.shkResult r.w).2).length =
        elemBytes (s.shkResult r.w).1 (s.shkResult r.w).2 ∧
      SameMemOutside (s.dstAt (Step.dst r.w) 0) (s.dstAt (Step.dst r.w) 0 + (elemBytes (s.shkResult r.w).1 (s.shkResult r.w).2).length) s t ∧
      (t.tile n).running = s.runningWith n r { r with next := Step.count0 r.w, finished := true }) ∧
  (∀ (n waits cycles : Nat) (r : RStep) (q : Request) (out : List Byte) (s : State), s.stopped = false → s.runsOnly n Op.reduce r q = true →
    s.redRefusal q r.w = none → Red.kind r.w ≤ 2 → Red.inf r.w ≠ 3 → Red.float r.w = false → Step.vary r.w = false →
    out = (groupsOf (Red.group r.w) ((s.redElems r.w).2.map (elemInt (s.redElems r.w).1))).flatMap (groupInt (Red.kind r.w)) →
    s.dstOpen q.secure (Step.dst r.w) 0 out.length = true →
    ∃ t, exec (.reduce n waits cycles) s = .next t ∧ t = { s with regs := t.regs, mem := t.mem, tiles := t.tiles, macros := t.macros } ∧
      t.memBytes (s.dstAt (Step.dst r.w) 0) out.length = out ∧
      SameMemOutside (s.dstAt (Step.dst r.w) 0) (s.dstAt (Step.dst r.w) 0 + out.length) s t ∧
      (t.tile n).running = s.runningWith n r { r with next := Step.count0 r.w, finished := true }) ∧
  (∀ (n waits : Nat) (r : RStep) (q : Request) (out : List Byte) (s : State), s.stopped = false → s.runsOnly n Op.requant r q = true →
    q.stream = none → Step.delta r.w = false → Sc.smode ((s.tile n).scaleOf r.w) ≠ 1 → Rg.kind (s.entryOf (Step.src r.w)) ≠ Kind.ledger →
    s.stepReadBad q.secure (Step.src r.w) 0 (4 * Step.count0 r.w) = none →
    out = (s.reqWords r.w).map (fun x => BitVec.ofNat 8
      (requantOne (s.tile n).pat (Step.ptab r.w) ((s.tile n).scaleOf r.w) (Sc.fixed ((s.tile n).scaleOf r.w)) x).1) →
    s.dstOpen q.secure (Step.dst r.w) 0 out.length = true →
    ∃ t, exec (.requant n waits) s = .next t ∧ t = { s with regs := t.regs, mem := t.mem, tiles := t.tiles, macros := t.macros } ∧
      t.memBytes (s.dstAt (Step.dst r.w) 0) out.length = out ∧
      SameMemOutside (s.dstAt (Step.dst r.w) 0) (s.dstAt (Step.dst r.w) 0 + out.length) s t ∧
      (t.tile n).running = s.runningWith n r { r with next := Step.count0 r.w, finished := true })

/-- TIER 2. COMPRESS, COLLECT and SCATTER_MERGE (R81, R82, R123 to R128, R167). A plain COMPRESS of codes that fit leaves the segment of its
lines. A COLLECT whose last slot is complete leaves one record of 16 bytes for each of its entries and consumes the slot. A SCATTER_MERGE with no
record of its pair left writes the end record and is finished; at its last key it adds the key's records to the pre-activations first, on a
keyframe to 0, when the sums fit in 32 bits; sums that do not end the request with FAULT_SEAM, and the pre-activations stand. -/
def Obligations.SegmentsCollectionsAndMergesAreWritten : Prop :=
  (∀ (n waits : Nat) (r : RStep) (q : Request) (out : List Byte) (s : State), s.stopped = false → s.runsOnly n Op.compress r q = true →
    Step.delta r.w = false →
    s.stepReadBad q.secure (Step.src r.w) 0 ((s.segOut n r.w).rows * Rg.width (s.segOut n r.w).e * Rg.channels (s.segOut n r.w).e) = none →
    (s.viewBytes (Step.src r.w) 0 ((s.segOut n r.w).rows * Rg.width (s.segOut n r.w).e * Rg.channels (s.segOut n r.w).e)).any
      (fun c => decide (2 ^ (s.segOut n r.w).b ≤ c.toNat)) = false →
    out = (s.segOut n r.w).bytes ((s.segOut n r.w).plainLines
      ((s.viewBytes (Step.src r.w) 0 ((s.segOut n r.w).rows * Rg.width (s.segOut n r.w).e * Rg.channels (s.segOut n r.w).e)).map (·.toNat))) →
    s.dstOpen q.secure (Step.dst r.w) 0 out.length = true →
    ∃ t, exec (.compress n waits) s = .next t ∧
      t = { s with regs := t.regs, mem := t.mem, tiles := t.tiles, macros := t.macros, audit := t.audit, free := t.free } ∧
      t.memBytes (s.dstAt (Step.dst r.w) 0) out.length = out ∧
      SameMemOutside (s.dstAt (Step.dst r.w) 0) (s.dstAt (Step.dst r.w) 0 + out.length) s t ∧
      (t.reg (Off.tile n 0x50C) = (s.reg (Off.tile n 0x50C) + out.length) % 2 ^ 32) ∧
      (∃ r2 ∈ (t.tile n).running, r2.idx = r.idx ∧ r2.req = r.req ∧ r2.finished = true)) ∧
  (∀ (n waits : Nat) (r : RStep) (q : Request) (x : Slot) (out : List Byte) (s : State), s.stopped = false → s.runsOnly n Op.collect r q = true →
    r.next + 1 = Step.count0 r.w → s.readySlot (Step.src r.w) r.req = some x → Rg.kind (s.entryOf (Step.dst r.w)) ≠ Kind.ledger →
    out = ((s.tile (hTile (Step.src r.w))).slotEntries x 0).flatMap (fun e => recordOf e.value e.tag x.terms) →
    s.dstOpen q.secure (Step.dst r.w) (16 * x.size * r.next) out.length = true →
    ∃ t, exec (.collect n waits) s = .next t ∧ t = { s with regs := t.regs, mem := t.mem, tiles := t.tiles, macros := t.macros } ∧
      t.memBytes (s.dstAt (Step.dst r.w) (16 * x.size * r.next)) out.length = out ∧
      SameMemOutside (s.dstAt (Step.dst r.w) (16 * x.size * r.next)) (s.dstAt (Step.dst r.w) (16 * x.size * r.next) + out.length) s t ∧
      x ∉ (t.tile (hTile (Step.src r.w))).slots ∧
      (∀ k, x.first ≤ k → k < x.first + x.size → ∀ e ∈ (t.tile (hTile (Step.src r.w))).ledger, e.1 ≠ k) ∧
      (t.tile n).running = s.runningWith n r { r with next := r.next + 1, finished := true }) ∧
  (∀ (n waits st pre : Nat) (r : RStep) (q : Request) (s : State), s.stopped = false → s.runsOnly n Op.scatterMerge r q = true →
    q.stream = some st → q.key = false → s.preactAt st (Step.layer r.w) = some pre → (s.tile n).scatOwner ≠ some (r.req, Step.layer r.w) →
    (s.tile n).vergeOf r.req (Step.layer r.w) = [] → s.mayPut n r.req (Step.dst r.w) = true → recordOpen s q.secure (Step.dst r.w) 0 264 = true →
    ∃ t, exec (.scatterMerge n waits) s = .next t ∧ t = { s with mem := t.mem, tiles := t.tiles, macros := t.macros } ∧
      ((t.tile (hTile (Step.dst r.w))).circOf (Rg.cq (s.entryOf (Step.dst r.w)))).map (fun x => (x.req, x.landed)) =
        ((s.tile (hTile (Step.dst r.w))).circOf (Rg.cq (s.entryOf (Step.dst r.w)))).map (fun x => (x.req, x.landed)) ++ [(r.req, false)] ∧
      (t.tile n).running = s.runningWith n r { r with finished := true }) ∧
  (∀ (n waits st pre next : Nat) (k : Nat × Nat) (recs : List VergeRec) (r : RStep) (q : Request) (s : State), s.stopped = false →
    s.runsOnly n Op.scatterMerge r q = true → q.stream = some st → s.preactAt st (Step.layer r.w) = some pre →
    (s.tile n).scatOwner ≠ some (r.req, Step.layer r.w) → s.mergeKey n r q = some (k, next) →
    recs = ((s.tile n).vergeOf r.req (Step.layer r.w)).filter (fun v => decide (v.position = k.1) && decide (v.group = k.2)) →
    recs.all (fun v => decide (v.tag = s.prog.layerTag (Step.layer r.w))) = true →
    (s.updTile n (fun t => { t with verge := t.verge.filter (fun v => !recs.contains v) })).mergeKey n { r with next := next } q = none →
    s.mayPut n r.req (Step.dst r.w) = true → 1 < Rg.cap (s.entryOf (Step.dst r.w)) →
    (∀ x, ((s.tile (hTile (Step.dst r.w))).circOf (Rg.cq (s.entryOf (Step.dst r.w)))).head? = some x → x.num < 2 ^ 32 ∧
      (s.circNext (hTile (Step.dst r.w)) (Rg.cq (s.entryOf (Step.dst r.w))) + 2 ^ 32 - x.num) % 2 ^ 32 + 1 < Rg.cap (s.entryOf (Step.dst r.w))) →
    recordOpen s q.secure (Step.dst r.w) 0 264 = true → recordOpen s q.secure (Step.dst r.w) 1 264 = true →
    pre + 4 * (k.1 * s.prog.cout (Step.layer r.w) + 64 * k.2) + 256 ≤ 0x00C000000000 →
    (∀ j, j < min 64 (s.prog.cout (Step.layer r.w) - 64 * k.2) → -(2 ^ 31) ≤ mergedSum s q pre k recs (Step.layer r.w) j ∧
      mergedSum s q pre k recs (Step.layer r.w) j ≤ 2 ^ 31 - 1) →
    ∃ t, exec (.scatterMerge n waits) s = .next t ∧ t = { s with regs := t.regs, mem := t.mem, tiles := t.tiles, macros := t.macros } ∧
      (∀ j, j < min 64 (s.prog.cout (Step.layer r.w) - 64 * k.2) →
        signedOf 32 (t.memNat (pre + 4 * (k.1 * s.prog.cout (Step.layer r.w) + 64 * k.2) + 4 * j) 4) =
        mergedSum s q pre k recs (Step.layer r.w) j) ∧
      (t.tile n).verge = (s.tile n).verge.filter (fun v => !recs.contains v) ∧
      (∃ r2 ∈ (t.tile n).running, r2.idx = r.idx ∧ r2.req = r.req ∧ r2.finished = true)) ∧
  (∀ (n waits st pre next j : Nat) (k : Nat × Nat) (recs : List VergeRec) (r : RStep) (q : Request) (s : State), s.stopped = false →
    s.runsOnly n Op.scatterMerge r q = true → q.stream = some st → s.preactAt st (Step.layer r.w) = some pre →
    (s.tile n).scatOwner ≠ some (r.req, Step.layer r.w) → s.mergeKey n r q = some (k, next) →
    recs = ((s.tile n).vergeOf r.req (Step.layer r.w)).filter (fun v => decide (v.position = k.1) && decide (v.group = k.2)) →
    recs.all (fun v => decide (v.tag = s.prog.layerTag (Step.layer r.w))) = true → s.mayPut n r.req (Step.dst r.w) = true →
    j < min 64 (s.prog.cout (Step.layer r.w) - 64 * k.2) →
    (mergedSum s q pre k recs (Step.layer r.w) j < -(2 ^ 31) ∨ 2 ^ 31 - 1 < mergedSum s q pre k recs (Step.layer r.w) j) →
    ∃ t, exec (.scatterMerge n waits) s = .next t ∧ t.mem = s.mem ∧ (t.req? r.req).map (·.status) = some .faultSeam)

/-! ### Compute in memory (R43, R47, R77, R133, R179, R227) -/

/-- TIER 3. CIM_DENSE, CIM_MATCH and CIM_SCATTER (R131, R133, R137, R226, R227). A step that may issue, whose source is good and whose positions
are all present, takes its place among the running steps, its scoreboard entries and its macros, and walks to its last position; a running one
walks on. No memory but its stream's tallies changes. -/
def Obligations.CimStepsIssueHoldTheirMacrosAndWalk : Prop :=
  (∀ (n waits i w op : Nat) (c : Instr) (q : Request) (j : CimJob) (s : State),
    (c, op) ∈ [(Instr.cimDense n waits, Op.cimDense), (Instr.cimMatch n waits, Op.cimMatch), (Instr.cimScatter n waits, Op.cimScatter)] →
    s.stopped = false → s.ready n op i q w = true →
    (s.tile n).running.filter (fun x => decide (Step.opcode x.w = op) && !x.finished) = [] → s.balanced w = false →
    s.cimReadBad q w (s.slicesOf w) (Step.aux w) (decide (Step.opcode w = Op.cimMatch)) = none → (s.cimJob n (s.tile n).pc i q w).toOption = some j → Step.predict w ≠ 2 →
    (op = Op.cimMatch → (List.range (Step.m w)).all (fun k => s.tagsHeld n (Step.mfirst w + k) (Step.aux w) k) = true) →
    (∀ k, k < Step.count0 w → s.posPresent j k = true) →
    ∃ t, exec c s = .next t ∧ t = { s with regs := t.regs, mem := t.mem, tiles := t.tiles, macros := t.macros } ∧
      (t.tile n).pc = (s.tile n).pc + 1 ∧ (t.tile n).sb = (s.tile n).sb ++ s.sbNeeds n i (s.tile n).pc w ∧
      (∃ b, (t.tile n).running = (s.tile n).running ++
        [{ idx := (s.tile n).pc, req := i, word := BitVec.ofNat 256 w, next := Step.count0 w, aux := 0, finished := b }]) ∧
      (0 < Step.count0 w → ∀ m ∈ Step.macros w, (t.mac n m).step = some (s.tile n).pc ∧ (t.mac n m).workReq = i)) ∧
  (∀ (n waits op : Nat) (c : Instr) (r : RStep) (q : Request) (j : CimJob) (s : State),
    (c, op) ∈ [(Instr.cimDense n waits, Op.cimDense), (Instr.cimMatch n waits, Op.cimMatch), (Instr.cimScatter n waits, Op.cimScatter)] →
    s.stopped = false → s.runsOnly n op r q = true → s.balanced r.w = false → (s.cimJob n r.idx r.req q r.w).toOption = some j → Step.predict r.w ≠ 2 →
    r.next ≤ Step.count0 r.w → (∀ k, k < Step.count0 r.w → s.posPresent j k = true) →
    ∃ t, exec c s = .next t ∧ t = { s with regs := t.regs, mem := t.mem, tiles := t.tiles, macros := t.macros } ∧
      (∀ k m, (t.mac k m).work = (s.mac k m).work ∧ (t.mac k m).shadow = (s.mac k m).shadow) ∧
      ∃ b, (t.tile n).running = s.runningWith n r { r with next := Step.count0 r.w, finished := b })

/-- TIER 3. INVOCATION, WORKING_SET_SWAP and AWL_SCAN (R43, R44, R47, R73, R77, R86, R179, R182). A macro that takes a vector adds to every
output of its working set the exact sum of level times weight over the rows it drives, and counts the invocation; where a plane's check meets a
mismatch, the replay that passes it adds the same sums and is counted (R51, R53). A due working set goes whole to the ledger range of another
tile, or stays in the shadow set while R493 holds it there, or is added to its own tile's open slot, modulo 2^80; the macro starts empty. A scan
whose last position is next writes that position's class entry and is finished. -/
def Obligations.InvocationsAccumulateExactlyAndSetsDrainWhole : Prop :=
  (∀ (n m k v : Nat) (o : InvOutcome) (r : RStep) (q : Request) (j : CimJob) (s : State), s.stopped = false → s.holder n m = some r →
    s.req? r.req = some q → s.parkState < 2 → (s.mac n m).swapDue = false → (s.jobOf n r q).toOption = some (some j) → j.n = n →
    s.nextWork j r m = some (k, v) → o.upsets = [] →
    s.mismatch j m k v 1 o.transients = false → Step.opcode j.w ≠ Op.cimMatch → Step.predict j.w = 0 → Step.transpose j.w = false →
    ∃ t, exec (.invocation n m o) s = .next t ∧ t = { s with macros := t.macros } ∧
      (t.mac n m).work.length = 512 / wBits (Step.wcode j.w) ∧
      (∀ x, x < 512 / wBits (Step.wcode j.w) → (t.mac n m).work.getD x 0 = (s.mac n m).work.getD x 0 +
        sumInt ((s.driven j (m - Step.mfirst j.w) (s.presented j m k v)).map
          (fun d => d.2 * weightOf (s.rowWord n m d.1) (wBits (Step.wcode j.w)) (Step.wsigned j.w) x))) ∧
      (t.mac n m).count = (s.mac n m).count + 1 ∧ (t.mac n m).position = k ∧ (t.mac n m).inv = v + 1 ∧
      (∀ n2 m2, 64 * n2 + m2 ≠ 64 * n + m → t.mac n2 m2 = s.mac n2 m2)) ∧
  (∀ (n m k v : Nat) (o : InvOutcome) (r : RStep) (q : Request) (j : CimJob) (s : State), s.stopped = false → s.holder n m = some r →
    s.req? r.req = some q → s.parkState < 2 → (s.mac n m).swapDue = false → (s.jobOf n r q).toOption = some (some j) → j.n = n →
    s.nextWork j r m = some (k, v) → o.upsets = [] → (s.mac n m).corr = [] →
    s.mismatch j m k v 1 o.transients = true → s.mismatch j m k v 2 o.transients = false →
    Step.opcode j.w ≠ Op.cimMatch → Step.predict j.w = 0 → Step.transpose j.w = false →
    ∃ t, exec (.invocation n m o) s = .next t ∧ t = { s with regs := t.regs, macros := t.macros, errs := t.errs } ∧
      t.reg (Off.tile n 0x200) = (s.reg (Off.tile n 0x200) + 1) % 2 ^ 32 ∧
      (∀ x, x < 512 / wBits (Step.wcode j.w) → (t.mac n m).work.getD x 0 = (s.mac n m).work.getD x 0 +
        sumInt ((s.driven j (m - Step.mfirst j.w) (s.presented j m k v)).map
          (fun d => d.2 * weightOf (s.rowWord n m d.1) (wBits (Step.wcode j.w)) (Step.wsigned j.w) x))) ∧
      (t.mac n m).count = (s.mac n m).count + 1 ∧ (∀ n2 m2, 64 * n2 + m2 ≠ 64 * n + m → t.mac n2 m2 = s.mac n2 m2)) ∧
  (∀ (n m stalls : Nat) (r : RStep) (q : Request) (j : CimJob) (s : State), s.stopped = false → s.holder n m = some r →
    s.req? r.req = some q → q.phase = .running → s.parkState < 2 → (s.mac n m).swapDue = true → (s.mac n m).shadow = [] → (s.mac n m).work ≠ [] →
    (s.jobOf n r q).toOption = some (some j) → j.n = n → j.i = r.req → j.q = q → Step.scatters j.w = false → hTile (Step.dst j.w) ≠ n →
    ∃ t, exec (.workingSetSwap n m stalls) s = .next t ∧ t = { s with regs := t.regs, tiles := t.tiles, macros := t.macros, mesh := t.mesh } ∧
      (s.balanced j.w = false → t.tiles = s.tiles) ∧ (∀ k, k ≠ n → t.tile k = s.tile k) ∧
      (t.mac n m).work = [] ∧ (t.mac n m).swapDue = false ∧ (t.mac n m).count = 0 ∧
      (s.drainHeld (setDrain s n m j) = false → (t.mac n m).shadow = [] ∧ t.mesh = { s.mesh with drains := s.mesh.drains ++ [setDrain s n m j] } ∧
        (n < 1024 → t.reg (Off.tile n 0x328) = (s.reg (Off.tile n 0x328) + 1) % 2 ^ 32)) ∧
      (s.drainHeld (setDrain s n m j) = true → (t.mac n m).shadow = (s.mac n m).work ∧ t.mesh = s.mesh ∧
        t.reg (Off.tile n 0x328) = s.reg (Off.tile n 0x328))) ∧
  (∀ (n m stalls : Nat) (r : RStep) (q : Request) (j : CimJob) (x : Slot) (s : State), s.stopped = false → s.holder n m = some r →
    s.req? r.req = some q → q.phase = .running → s.parkState < 2 → (s.mac n m).swapDue = true → (s.mac n m).shadow = [] → (s.mac n m).work ≠ [] →
    (s.jobOf n r q).toOption = some (some j) → j.n = n → j.i = r.req → j.q = q → Step.scatters j.w = false → hTile (Step.dst j.w) = n →
    hIdx (Step.dst j.w) < 64 → s.balanced j.w = false → (s.mac n m).finalDue = false →
    (s.tile n).slot? (hIdx (Step.dst j.w)) r.req (j.ledgerPos (s.mac n m).position) = some x →
    s.prog.floatRange (64 * n + hIdx (Step.dst j.w)) = false → x.terms + (setDrain s n m j).terms < 2 ^ 40 →
    tagClash (s.tile n).ledger (Step.tag j.w) ((macroPlaces (setDrain s n m j).block (s.mac n m).work).map (fun v => x.first + v.1)) = none →
    ∃ t, exec (.workingSetSwap n m stalls) s = .next t ∧ t = { s with regs := t.regs, tiles := t.tiles, macros := t.macros } ∧
      (t.mac n m).work = [] ∧ (t.mac n m).shadow = [] ∧ (t.mac n m).swapDue = false ∧ (t.mac n m).count = 0 ∧
      (∀ k, (hk : k < (s.mac n m).work.length) → tget (t.tile n).ledger (x.first + ((setDrain s n m j).block * (s.mac n m).work.length + k)) =
        some (match tget (s.tile n).ledger (x.first + ((setDrain s n m j).block * (s.mac n m).work.length + k)) with
          | some e => { e with value := e.value + BitVec.ofInt 80 (s.mac n m).work[k] }
          | none => { value := BitVec.ofInt 80 (s.mac n m).work[k], tag := Step.tag j.w })) ∧
      (∀ k, (k < x.first + (setDrain s n m j).block * (s.mac n m).work.length ∨
          x.first + (setDrain s n m j).block * (s.mac n m).work.length + (s.mac n m).work.length ≤ k) →
        tget (t.tile n).ledger k = tget (s.tile n).ledger k) ∧ (∀ k, k ≠ n → t.tile k = s.tile k)) ∧
  (∀ (n waits cycles : Nat) (r : RStep) (q : Request) (c : Scan) (s : State), s.stopped = false → s.runsOnly n Op.awlScan r q = true →
    (s.scanOf n r q).bind (·.toOption) = some c → Rg.kind (s.entryOf (Step.dst r.w)) ≠ Kind.circular → r.next + 1 = Step.count0 r.w →
    s.dstOpen q.secure (Step.dst r.w) (32 * r.next) 32 = true →
    ∃ t, exec (.awlScan n waits cycles []) s = .next t ∧
      t = { s with regs := t.regs, mem := t.mem, tiles := t.tiles, macros := t.macros, reqs := t.reqs } ∧
      t.memBytes (s.dstAt (Step.dst r.w) (32 * r.next)) 32 = natLe 32 (match s.cimVec c.j r.next with
        | some v => (s.classBlocks c (r.aux % 2 ^ 32) v (r.aux / 2 ^ 32)).entry
        | none => 0) ∧
      SameMemOutside (s.dstAt (Step.dst r.w) (32 * r.next)) (s.dstAt (Step.dst r.w) (32 * r.next) + 32) s t ∧
      (∃ r2 ∈ (t.tile n).running, r2.idx = r.idx ∧ r2.req = r.req ∧ r2.finished = true))

/-! ### Toe-heel units, chunks, layer digests and scale records (R109, R145, R202, R203, R327, R328) -/

/-- TIER 2. TOEHEEL, TOEHEEL_ENTRY_START, TOEHEEL_ENTRY_DONE and CHUNK_DEAL (R145, R201, R202, R203). A TOEHEEL step puts its entry behind the
others of its unit. An idle unit takes its first entry, is busy, and a vector kernel without VARY or DIGEST leaves its output in its region. An
entry done leaves the unit ready and its step finished, or is discarded with its request. A dealt chunk stands behind the others of the member
with the fewest. -/
def Obligations.ToeHeelUnitsAndMembersTakeTheirWorkInOrder : Prop :=
  (∀ (n waits i w u : Nat) (q : Request) (s : State), s.stopped = false → s.ready n Op.toeheel i q w = true → s.frameLost i w = false → s.unitFor i q w = some u →
    s.thQueued u < 64 →
    ∃ t, exec (.toeheel n waits) s = .next t ∧ t = { s with regs := t.regs, tiles := t.tiles, th := t.th } ∧
      (t.thUnit u).queue = (s.thUnit u).queue ++ [{ tile := n, idx := (s.tile n).pc, req := i, word := BitVec.ofNat 256 w }] ∧
      (∀ x, x ≠ u → (t.thUnit x).queue = (s.thUnit x).queue) ∧
      (Step.isPixel w = false ∨ s.frameUnit i = none → ∀ x, x ≠ u → t.thUnit x = s.thUnit x) ∧ (t.tile n).pc = (s.tile n).pc + 1 ∧ (∀ k, k ≠ n → t.tile k = s.tile k)) ∧
  (∀ (u : Nat) (e : ThEntry) (rest : List ThEntry) (q : Request) (out : List Byte) (s : State), s.stopped = false →
    (s.thUnit u).running = none → (s.thUnit u).queue = e :: rest → s.parkState = 0 → s.errs.thRetired.contains u = false →
    s.errs.underTest.any (fun x => decide (x.1 = 2) && decide (x.2.1 = u)) = false → s.req? e.req = some q →
    Th.kernel e.word.toNat ≠ 1 → Th.kernel e.word.toNat ≠ 2 → Step.isPixel e.word.toNat = false → Step.vary e.word.toNat = false →
    Step.digest e.word.toNat = false →
    s.stepReadBad q.secure (Step.src e.word.toNat) 0 (if Th.pblk e.word.toNat = 0 then Rg.bytes (s.entryOf (Step.src e.word.toNat))
      else s.kernelReads (s.blockAt q e.word.toNat) e.word.toNat * fmtBytes (s.pIfmt (s.blockAt q e.word.toNat))) = none →
    out = ((s.kernelOut q e.word.toNat).2.flatMap (elemBytes (s.kernelOut q e.word.toNat).1)).take
      (Rg.bytes (s.entryOf (Step.dst e.word.toNat))) →
    s.dstOpen q.secure (Step.dst e.word.toNat) 0 out.length = true →
    ∃ t, exec (.toeheelEntryStart u) s = .next t ∧
      t = { s with regs := t.regs, mem := t.mem, tiles := t.tiles, macros := t.macros, th := t.th } ∧
      t.thUnit u = { s.thUnit u with queue := rest, running := some e } ∧ t.regBits (Off.th u 0) 0 2 = 2 ∧
      t.memBytes (s.dstAt (Step.dst e.word.toNat) 0) out.length = out ∧
      SameMemOutside (s.dstAt (Step.dst e.word.toNat) 0) (s.dstAt (Step.dst e.word.toNat) 0 + out.length) s t) ∧
  (∀ (u cycles : Nat) (e : ThEntry) (s : State), s.stopped = false → (s.thUnit u).running = some e → s.parkState < 2 → s.live e.req = true →
    ∃ t, exec (.toeheelEntryDone u cycles) s = .next t ∧ t = { s with regs := t.regs, tiles := t.tiles, th := t.th } ∧
      (t.thUnit u).running = none ∧ (t.thUnit u).queue = (s.thUnit u).queue ∧ t.regBits (Off.th u 0) 0 2 = 1 ∧
      (t.tile e.tile).running = (s.tile e.tile).running.map (fun r =>
        if r.req = e.req ∧ r.idx = e.idx then { r with finished := true } else r)) ∧
  (∀ (u cycles : Nat) (e : ThEntry) (s : State), s.stopped = false → (s.thUnit u).running = some e → s.parkState < 2 → s.live e.req = false →
    ∃ t, exec (.toeheelEntryDone u cycles) s = .next t ∧ t = { s with regs := t.regs, th := t.th } ∧
      (t.thUnit u).running = none ∧ t.reg (Off.th u 0xC) = (s.reg (Off.th u 0xC) + 1) % 2 ^ 32) ∧
  (∀ (c i l n h first blocks values : Nat) (q : Request) (g : EyeSeg) (s : State), s.stopped = false → s.nextDeal = some (i, l, n) →
    s.balanceSrc l = some h → (s.segmentOf (s.tile (hTile h)).pat h).toOption = some g → s.req? i = some q →
    s.segmentBad q.secure h = none → g.chunks[layerGet q.dealt l]? = some (first, blocks, values) →
    ∃ t, exec (.chunkDeal c) s = .next t ∧ t = { s with regs := t.regs, tiles := t.tiles, reqs := t.reqs } ∧
      (t.tile n).chunks = (s.tile n).chunks ++
        [{ req := i, layer := l, num := layerGet q.dealt l, firstBlock := first, blocks := blocks, values := values }] ∧
      (t.req? i).map (fun r => layerGet r.dealt l) = some (layerGet q.dealt l + 1) ∧ (∀ k, k ≠ n → t.tile k = s.tile k))

/-- TIER 2. DIGEST_CHUNK and SCALE_RECORD_COMPLETE (R109, R110, R327, R328). The engine takes the chunk that is next in index order: the message
grows by its index and its bytes, and with the last chunk the digest of the message is the LAYER's, counted in the log's tally. A complete scale
record puts the frame's magnitude into HISTORY and advances HEAD, once, when every REQUANT of the LAYER has completed. -/
def Obligations.DigestsAndScaleRecordsCompleteInOrder : Prop :=
  (∀ (i l k : Nat) (d : DigestRun) (c : Nat × List Byte) (q : Request) (s : State), s.stopped = false →
    s.audit.digests.find? (fun d => decide (d.req = i) && decide (d.layer = l)) = some d → s.req? i = some q →
    d.chunks.find? (fun c => decide (c.1 = k)) = some c → d.waiting = [] → (s.prog.digestIndexes l)[d.next]? = some k → d.next + 1 ≠ d.total →
    ∃ t, exec (.digestChunk i l k) s = .next t ∧ t = { s with audit := t.audit } ∧
      t.audit.digests = s.audit.digests.filter (fun x => decide (x ≠ d)) ++
        [{ d with chunks := d.chunks.erase c, next := d.next + 1, message := d.message ++ natLe 4 k ++ c.2 }]) ∧
  (∀ (i l k : Nat) (d : DigestRun) (c : Nat × List Byte) (q : Request) (s : State), s.stopped = false →
    s.audit.digests.find? (fun d => decide (d.req = i) && decide (d.layer = l)) = some d → s.req? i = some q →
    d.chunks.find? (fun c => decide (c.1 = k)) = some c → d.waiting = [] → (s.prog.digestIndexes l)[d.next]? = some k → d.next + 1 = d.total →
    ∃ t, exec (.digestChunk i l k) s = .next t ∧ t.audit.digests = s.audit.digests.filter (fun x => decide (x ≠ d)) ∧
      (t.req? i).map (·.layers) = some (q.layers ++ [(l, shake256 (d.message ++ natLe 4 k ++ c.2))]) ∧
      t.reg (Off.dig (worldNum q.secure) 0x54) = (s.reg (Off.dig (worldNum q.secure) 0x54) + 1) % 2 ^ 32) ∧
  (∀ (i l st a : Nat) (q : Request) (s : State), s.stopped = false → s.req? i = some q → q.stream = some st → q.phase = .running →
    (s.genProg q.gen).requantCount l ≠ 0 → (s.genProg q.gen).requantCount l ≤ (q.requantsDone l).1 → q.scaleDone.contains l = false →
    s.scaleRec st l = some a → (a + 0x240 ≤ s.guardAddr st ∨ s.guardAddr st + 1024 ≤ a) →
    ∃ t, exec (.scaleRecordComplete i l) s = .next t ∧
      t = { s with regs := t.regs, mem := t.mem, host := t.host, link := t.link, rings := t.rings, reqs := t.reqs, out := t.out } ∧
      t.memNat (a + Srec.history + 8 * (s.memNat (a + Srec.head) 1 % 64)) 8 = min (layerGet q.mags l) (2 ^ 63 - 1) ∧
      t.memNat (a + Srec.head) 1 = (s.memNat (a + Srec.head) 1 % 64 + 1) % 64 ∧
      (t.req? i).map (fun r => { r with guards := [] }) = some { q with scaleDone := q.scaleDone ++ [l], guards := [] } ∧
      (t.req? i).map (fun r => r.guards.take q.guards.length) = some q.guards ∧ (∀ k, k ≠ i → t.req? k = s.req? k))

/-! ### Groups, barriers and collectives (R354 to R358) -/

/-- TIER 2. BARRIER, BARRIER_ARRIVAL and BARRIER_COMPLETE_NOTICE (R354, R357, R358). A member joins the group's next instance and tells the
manager, which records its own arrival at once; the last arrival ends the barrier OK with POSITION the number of members, and so does the
manager's notice on the other members. The manager keeps the pace statistic of each worker's arrival; members that disagree on BARRIER_ID end
with reason MISMATCH. A BARRIER or COLLECTIVE of a device that is no member, of a DEGRADED group, or without a route of its world ends at its
start. -/
def Obligations.BarriersCompleteWhenEveryMemberHasArrived : Prop :=
  (∀ (i p : Nat) (q : Request) (s : State), s.stopped = false → s.req? i = some q → q.opcode = Dop.barrier → s.mayStart q = true →
    s.joinRefused i q (q.fld 0xC 2) 0x0C = none → s.isManager = false → (s.dataPorts 0 q.secure).head? = some p →
    ∃ t, exec (.barrier i) s = .next t ∧ t = { s with regs := t.regs, reqs := t.reqs, ix := t.ix, out := t.out } ∧
      t.inst? (q.fld 0xC 2) true (s.instNext (q.fld 0xC 2) true) = some
        { group := q.fld 0xC 2, number := s.instNext (q.fld 0xC 2) true, isBarrier := true, kind := q.fld 8 4, len := 0, joined := [s.devNum],
          firstAt := s.now, req := some i, done := 0, acc := [], got := [] } ∧
      t.instNext (q.fld 0xC 2) true = s.instNext (q.fld 0xC 2) true + 1 ∧
      t.out = s.out ++ [.barrierArrive (q.fld 0xC 2) (s.instNext (q.fld 0xC 2) true) (q.fld 8 4)] ∧
      t.standing i = some (.running, q.status, 1) ∧ SameRegsBut [Off.cred p 2 4, Off.cred p 2 8] s t ∧
      (∀ k, k ≠ i → t.req? k = s.req? k)) ∧
  (∀ (i : Nat) (q : Request) (x : GroupInst) (s : State), s.stopped = false → s.req? i = some q → q.opcode = Dop.barrier → s.mayStart q = true →
    s.joinRefused i q (q.fld 0xC 2) 0x0C = none → s.isManager = true →
    s.inst? (q.fld 0xC 2) true (s.instNext (q.fld 0xC 2) true) = some x → x.kind = q.fld 8 4 → x.done ≠ 1 →
    (s.groupMembers (q.fld 0xC 2)).all (fun d => (x.joined ++ [0]).contains d) = true →
    ∃ t, exec (.barrier i) s = .next t ∧ t = { s with regs := t.regs, reqs := t.reqs, ix := t.ix, out := t.out } ∧ SameRegsBut laneRegs s t ∧
      t.standing i = some (.finished, .ok, (s.groupMembers (q.fld 0xC 2)).length) ∧
      t.out = s.out ++ [.barrierDone (q.fld 0xC 2) (s.instNext (q.fld 0xC 2) true)] ∧
      t.inst? (q.fld 0xC 2) true (s.instNext (q.fld 0xC 2) true) = none ∧ (∀ k, k ≠ i → t.req? k = s.req? k)) ∧
  (∀ (g n d b : Nat) (secure : Bool) (x : GroupInst) (s : State), s.stopped = false → s.isManager = true → (s.groupMembers g).contains d = true → d ≠ 0 →
    s.inst? g true n = some x → x.kind = b → x.done ≠ 1 → d < 1024 →
    (s.groupMembers g).all (fun k => (x.joined ++ [d]).contains k) = false →
    ∃ t, exec (.barrierArrival g n d b secure) s = .next t ∧ t = { s with regs := t.regs, reqs := t.reqs, ix := t.ix } ∧
      t.inst? g true n = some { x with joined := (x.joined ++ [d]).eraseDups } ∧
      (∀ k, x.req ≠ some k → t.req? k = s.req? k) ∧
      (∀ k, x.req = some k → t.req? k = (s.req? k).map (fun q => { q with pos := (x.joined ++ [d]).eraseDups.length })) ∧
      t.reg (Off.map d 0x18) = (s.reg (Off.map d 0x18) + 1) % 2 ^ 32 ∧
      t.reg (Off.map d 0x10) = (sumNat (keepLast 1024 ((s.ix.pace.filter (fun e => decide (e.1 = d))).map (·.2) ++ [s.now - x.firstAt])) /
        (keepLast 1024 ((s.ix.pace.filter (fun e => decide (e.1 = d))).map (·.2) ++ [s.now - x.firstAt])).length) % 2 ^ 32 ∧
      t.reg (Off.map d 0x14) = ((keepLast 1024 ((s.ix.pace.filter (fun e => decide (e.1 = d))).map (·.2) ++ [s.now - x.firstAt])).foldl max 0) %
        2 ^ 32 ∧
      SameRegsBut [Off.map d 0x10, Off.map d 0x14, Off.map d 0x18] s t) ∧
  (∀ (g n d b i : Nat) (secure : Bool) (q : Request) (x : GroupInst) (s : State), s.stopped = false → s.isManager = true → (s.groupMembers g).contains d = true →
    s.inst? g true n = some x → x.kind = b → x.done ≠ 1 → x.req = some i → s.req? i = some q → q.phase ≠ .finished →
    (s.groupMembers g).all (fun k => (x.joined ++ [d]).contains k) = true →
    ∃ t, exec (.barrierArrival g n d b secure) s = .next t ∧ t = { s with regs := t.regs, reqs := t.reqs, ix := t.ix, out := t.out } ∧
      t.inst? g true n = none ∧ t.standing i = some (.finished, .ok, (s.groupMembers g).length) ∧ t.out = s.out ++ [.barrierDone g n]) ∧
  (∀ (g n d b i : Nat) (secure : Bool) (q : Request) (x : GroupInst) (s : State), s.stopped = false → s.isManager = true → (s.groupMembers g).contains d = true →
    s.inst? g true n = some x → x.kind ≠ b → x.req = some i → s.req? i = some q → q.phase ≠ .finished →
    ∃ t, exec (.barrierArrival g n d b secure) s = .next t ∧ t.standing i = some (.finished, .faultDescriptor, (x.joined ++ [d]).eraseDups.length) ∧
      t.out = s.out ++ [.mismatch g n]) ∧
  (∀ (g n i : Nat) (q : Request) (x : GroupInst) (s : State), s.stopped = false → s.inst? g true n = some x → x.req = some i →
    s.req? i = some q → q.phase ≠ .finished →
    ∃ t, exec (.barrierCompleteNotice g n false) s = .next t ∧ t = { s with reqs := t.reqs, ix := t.ix } ∧
      t.standing i = some (.finished, .ok, (s.groupMembers g).length) ∧ t.inst? g true n = none ∧ (∀ k, k ≠ i → t.req? k = s.req? k)) ∧
  (∀ (g n i : Nat) (q : Request) (x : GroupInst) (s : State), s.stopped = false → s.inst? g true n = some x → x.req = some i →
    s.req? i = some q → q.phase ≠ .finished →
    ∃ t, exec (.barrierCompleteNotice g n true) s = .next t ∧ t.standing i = some (.finished, .faultDescriptor, q.pos) ∧ t.inst? g true n = none) ∧
  (∀ (i g : Nat) (c : Instr) (q : Request) (s : State),
    (c, q.opcode, g) ∈ [(.barrier i, Dop.barrier, q.fld 0xC 2), (.collective i, Dop.collective, q.fld 0xA 2)] →
    s.stopped = false → s.regWrites = [] → s.req? i = some q → s.mayStart q = true → (s.groupMembers g).contains s.devNum = false →
    ∃ t, exec c s = .next t ∧ t.standing i = some (.finished, .faultDescriptor, q.pos) ∧ t.ix = s.ix) ∧
  (∀ (i g : Nat) (c : Instr) (q : Request) (s : State),
    (c, q.opcode, g) ∈ [(.barrier i, Dop.barrier, q.fld 0xC 2), (.collective i, Dop.collective, q.fld 0xA 2)] →
    s.stopped = false → s.regWrites = [] → s.req? i = some q → s.mayStart q = true → (s.groupMembers g).contains s.devNum = true →
    s.degraded g = true → ∃ t, exec c s = .next t ∧ t.standing i = some (.finished, .faultPartnerLost, q.pos) ∧ t.ix = s.ix) ∧
  (∀ (i g : Nat) (c : Instr) (q : Request) (s : State),
    (c, q.opcode, g) ∈ [(.barrier i, Dop.barrier, q.fld 0xC 2), (.collective i, Dop.collective, q.fld 0xA 2)] →
    s.stopped = false → s.regWrites = [] → s.req? i = some q → s.mayStart q = true → (s.groupMembers g).contains s.devNum = true →
    s.degraded g = false → (s.groupMembers g).any (fun d => decide (d ≠ s.devNum) && (s.dataPorts d q.secure).isEmpty) = true →
    ∃ t, exec c s = .next t ∧ t.standing i = some (.finished, .faultWorld, q.pos) ∧ t.ix = s.ix ∧
      t.reg (Off.ix 0x3C) = (s.reg (Off.ix 0x3C) + 1) % 2 ^ 32)

/-- TIER 2. COLLECTIVE and COLLECTIVE_CHUNK (R354, R355, R356). A member that gives data copies its SRC to its place in DST and sends it on in
chunks of 16 or 64 KiB, a member of a BROADCAST that is not the root only joins; with nothing to receive it ends at once, OK, with POSITION the
final bytes of DST. A chunk of the element-wise kinds is joined with what stands at its place; of SUM_BF16 in FP32; of ALLGATHER and BROADCAST it
is stored. It goes on by the schedule, up and down the group's tree or round the ring (the model's choice of schedule, log entry 36). A chunk
that disagrees on KIND or LENGTH ends the instance with MISMATCH, records that do not add with FAULT_SEAM, and so does a packet that tells of
such an end; a chunk that comes before its member has joined waits for it. -/
def Obligations.CollectivesJoinTheMembersContributions : Prop :=
  (∀ (i src dst len rank : Nat) (q : Request) (s : State), s.stopped = false → s.regWrites = [] → s.req? i = some q → q.opcode = Dop.collective →
    s.mayStart q = true → s.joinRefused i q (q.fld 0xA 2) 0x0A = none → q.fld 8 1 ≠ 7 → 2 ≤ (s.groupMembers (q.fld 0xA 2)).length →
    q.fld 0x10 8 = src → q.fld 0x20 4 = len → 0 < len → (s.groupMembers (q.fld 0xA 2)).idxOf s.devNum = rank →
    q.fld 0x18 8 + (if q.fld 8 1 = 6 then rank * len else 0) = dst → LinesOpen s q.secure false false src len →
    LinesOpen s q.secure true false dst len → noneEarly s (q.fld 0xA 2) (s.instNext (q.fld 0xA 2) false) = true →
    ∃ t, exec (.collective i) s = .next t ∧
      t = { s with regs := t.regs, mem := t.mem, hbm := t.hbm, reqs := t.reqs, ix := t.ix, out := t.out } ∧
      t.memBytes dst len = s.memBytes src len ∧ SameMemOutside dst (dst + len) s t ∧
      t.inst? (q.fld 0xA 2) false (s.instNext (q.fld 0xA 2) false) = some
        { group := q.fld 0xA 2, number := s.instNext (q.fld 0xA 2) false, isBarrier := false, kind := q.fld 8 1, len := len,
          joined := [s.devNum], firstAt := s.now, req := some i, done := 0,
          acc := if q.fld 8 1 = 5 then (wordsOf 2 (s.memBytes src len)).zipIdx.map (fun e => (e.2, e.1 * 65536)) else [], got := [] } ∧
      t.instNext (q.fld 0xA 2) false = s.instNext (q.fld 0xA 2) false + 1 ∧
      t.standing i = some (.running, q.status, if q.fld 8 1 = 6 then len else 0) ∧
      (∀ c, c < (chunksOf (collChunk len) (s.memBytes src len)).length → s.collTargets (s.groupMembers (q.fld 0xA 2)) len (c * collChunk len) s.devNum ≠ [] →
        Out.collectiveChunk (q.fld 0xA 2) (s.instNext (q.fld 0xA 2) false) c ((chunksOf (collChunk len) (s.memBytes src len)).getD c []) ∈ t.out) ∧
      (∀ k, k ≠ i → t.req? k = s.req? k)) ∧
  (∀ (i : Nat) (q : Request) (s : State), s.stopped = false → s.regWrites = [] → s.req? i = some q → q.opcode = Dop.collective → s.mayStart q = true →
    s.joinRefused i q (q.fld 0xA 2) 0x0A = none → q.fld 8 1 = 7 → (s.groupMembers (q.fld 0xA 2)).headD 0 ≠ s.devNum → 0 < q.fld 0x20 4 →
    noneEarly s (q.fld 0xA 2) (s.instNext (q.fld 0xA 2) false) = true →
    ∃ t, exec (.collective i) s = .next t ∧ t = { s with reqs := t.reqs, ix := t.ix } ∧
      (t.inst? (q.fld 0xA 2) false (s.instNext (q.fld 0xA 2) false)).map (fun x => (x.kind, x.len, x.req, x.done)) =
        some (7, q.fld 0x20 4, some i, 0) ∧ t.standing i = some (.running, q.status, 0)) ∧
  (∀ (i src dst len : Nat) (q : Request) (s : State), s.stopped = false → s.regWrites = [] → s.req? i = some q → q.opcode = Dop.collective →
    s.mayStart q = true → s.joinRefused i q (q.fld 0xA 2) 0x0A = none →
    (s.groupMembers (q.fld 0xA 2) = [s.devNum] ∨ q.fld 8 1 = 7 ∧ (s.groupMembers (q.fld 0xA 2)).headD 0 = s.devNum) →
    q.fld 0x10 8 = src → q.fld 0x18 8 = dst → q.fld 0x20 4 = len → LinesOpen s q.secure false false src len →
    LinesOpen s q.secure true false dst len → noneEarly s (q.fld 0xA 2) (s.instNext (q.fld 0xA 2) false) = true →
    ∃ t, exec (.collective i) s = .next t ∧
      t = { s with regs := t.regs, mem := t.mem, hbm := t.hbm, reqs := t.reqs, ix := t.ix, out := t.out } ∧
      t.memBytes dst len = s.memBytes src len ∧ SameMemOutside dst (dst + len) s t ∧
      t.inst? (q.fld 0xA 2) false (s.instNext (q.fld 0xA 2) false) = none ∧ t.standing i = some (.finished, .ok, len)) ∧
  (∀ (g n rank c i off : Nat) (data : List Byte) (x : GroupInst) (q : Request) (s : State), s.stopped = false → s.regWrites = [] → s.inst? g false n = some x →
    x.req = some i → s.req? i = some q → q.phase = .running → (x.kind < 5 ∨ x.kind = 8) → (s.groupMembers g).idxOf s.devNum ≠ rank →
    0 < data.length → data.length % collElem x.kind = 0 → q.fld 0x18 8 + c * collChunk x.len = off →
    LinesOpen s q.secure false false off data.length → LinesOpen s q.secure true false off data.length →
    (x.kind = 8 → ((wordsOf 16 (s.memBytes off data.length)).zip (wordsOf 16 data)).all (fun e => (recordClash e.1 e.2).isNone) = true) →
    ∃ t, exec (.collectiveChunk g n rank c x.kind x.len data .none) s = .next t ∧
      t = { s with
        regs := t.regs, mem := t.mem, hbm := t.hbm, host := t.host, link := t.link, rings := t.rings, reqs := t.reqs, ix := t.ix, out := t.out } ∧
      t.memBytes off data.length = (((wordsOf (collElem x.kind) (s.memBytes off data.length)).zip (wordsOf (collElem x.kind) data)).map
        (fun e => (joinElem x.kind e.1 e.2).1)).flatten ∧ SameMemOutside off (off + data.length) s t ∧
      t.reg (Off.ix 0x38) = (s.reg (Off.ix 0x38) + (((wordsOf (collElem x.kind) (s.memBytes off data.length)).zip
        (wordsOf (collElem x.kind) data)).filter (fun e => (joinElem x.kind e.1 e.2).2)).length) % 2 ^ 32 ∧
      (t.inst? g false n).map (·.done) = (if x.done + data.length = collExpect x.kind x.len (s.groupMembers g).length false then none
        else some (x.done + data.length)) ∧
      t.standing i = (if x.done + data.length = collExpect x.kind x.len (s.groupMembers g).length false then some (.finished, .ok, x.len)
        else some (.running, q.status, q.pos + { x with got := sput (fun _ => 0) x.got c (sget (fun _ => 0) x.got c + 1) }.finalBytes
          (s.groupMembers g).length c data.length))) ∧
  (∀ (g n rank c i off : Nat) (data : List Byte) (x : GroupInst) (q : Request) (s : State), s.stopped = false → s.regWrites = [] → s.inst? g false n = some x →
    x.req = some i → s.req? i = some q → q.phase = .running → x.kind = 5 → (s.groupMembers g).idxOf s.devNum ≠ rank →
    0 < data.length → data.length % 2 = 0 → q.fld 0x18 8 + c * collChunk x.len = off →
    LinesOpen s q.secure false false off data.length → LinesOpen s q.secure true false off data.length →
    ∃ t, exec (.collectiveChunk g n rank c x.kind x.len data .none) s = .next t ∧
      t = { s with
        regs := t.regs, mem := t.mem, hbm := t.hbm, host := t.host, link := t.link, rings := t.rings, reqs := t.reqs, ix := t.ix, out := t.out } ∧
      t.memBytes off data.length = ((wordsOf 2 data).zipIdx.map (fun e =>
        natLe 2 (bf16Bits (fadd (sget (fun _ => 0) x.acc (c * collChunk x.len / 2 + e.2)) (e.1 * 65536))))).flatten ∧
      SameMemOutside off (off + data.length) s t) ∧
  (∀ (g n rank c i off : Nat) (data : List Byte) (x : GroupInst) (q : Request) (s : State), s.stopped = false → s.regWrites = [] → s.inst? g false n = some x →
    x.req = some i → s.req? i = some q → q.phase = .running → (x.kind = 6 ∨ x.kind = 7 ∧ rank = 0) →
    (s.groupMembers g).idxOf s.devNum ≠ rank → 0 < data.length →
    q.fld 0x18 8 + c * collChunk x.len + (if x.kind = 6 then rank * x.len else 0) = off → LinesOpen s q.secure true false off data.length →
    ∃ t, exec (.collectiveChunk g n rank c x.kind x.len data .none) s = .next t ∧
      t = { s with
        regs := t.regs, mem := t.mem, hbm := t.hbm, host := t.host, link := t.link, rings := t.rings, reqs := t.reqs, ix := t.ix, out := t.out } ∧
      t.memBytes off data.length = data ∧ SameMemOutside off (off + data.length) s t) ∧
  (∀ (g n rank c i kind len : Nat) (data : List Byte) (x : GroupInst) (q : Request) (s : State), s.stopped = false → s.regWrites = [] →
    s.inst? g false n = some x → x.req = some i → s.req? i = some q → q.phase = .running → (kind ≠ x.kind ∨ len ≠ x.len) →
    ∃ t, exec (.collectiveChunk g n rank c kind len data .none) s = .next t ∧ t.standing i = some (.finished, .faultDescriptor, q.pos) ∧
      t.inst? g false n = none ∧ t.out = s.out ++ [.mismatch g n] ∧ t.mem = s.mem) ∧
  (∀ (g n rank c i off : Nat) (r : Reason) (data : List Byte) (x : GroupInst) (q : Request) (s : State), s.stopped = false → s.regWrites = [] →
    s.inst? g false n = some x → x.req = some i → s.req? i = some q → q.phase = .running → x.kind = 8 → (s.groupMembers g).idxOf s.devNum ≠ rank →
    0 < data.length → q.fld 0x18 8 + c * collChunk x.len = off → LinesOpen s q.secure false false off data.length →
    ((wordsOf 16 (s.memBytes off data.length)).zip (wordsOf 16 data)).findSome? (fun e => recordClash e.1 e.2) = some r →
    ∃ t, exec (.collectiveChunk g n rank c x.kind x.len data .none) s = .next t ∧ t.standing i = some (.finished, .faultSeam, q.pos) ∧
      t.inst? g false n = none ∧ t.out = s.out ++ [.collStop g n (collStopOf r)] ∧ t.mem = s.mem) ∧
  (∀ (g n rank c i kind len : Nat) (data : List Byte) (st : Status) (r : Reason) (stop : CollStop) (x : GroupInst) (q : Request) (s : State),
    s.stopped = false → s.regWrites = [] → s.inst? g false n = some x → x.req = some i → s.req? i = some q → q.phase = .running →
    collEnd stop = some (st, r) →
    ∃ t, exec (.collectiveChunk g n rank c kind len data stop) s = .next t ∧ t.standing i = some (.finished, st, q.pos) ∧
      t.inst? g false n = none ∧ t.mem = s.mem ∧ t.out = s.out) ∧
  (∀ (g n rank c kind len : Nat) (data : List Byte) (stop : CollStop) (s : State), s.stopped = false → s.regWrites = [] → s.inst? g false n = none →
    s.instNext g false ≤ n → (s.groupMembers g).contains s.devNum = true →
    ∃ t, exec (.collectiveChunk g n rank c kind len data stop) s = .next t ∧ t = { s with ix := { s.ix with early := s.ix.early ++
      [{ group := g, inst := n, rank := rank, chunk := c, kind := kind, len := len, data := data, stop := stop }] } })

/-- TIER 2. GROUP_WRITE, MAP_PARTITION_WRITE, PARTITION_DELIVERY, IX_ROLE_CONFIRM, MAP_UPDATE and LOSS_NOTICE (R340, R347, R354, R358, R359). A
word of a group's bitmap is written, its unfinished instances end with ABORTED, its count restarts and DEGRADED clears. A partition value is
delivered to the device it names. A role equal to the strap is confirmed, and a manager is device 0; another leaves the role unconfirmed and
files ROLE. A device that learns of a loss closes every window to the lost device as CLOSED_BY_PEER with its unanswered bytes counted as lost,
closes what it held for it, and marks its groups DEGRADED; the manager marks every device lost that no link reaches any more and sends the
update, which a sub-manager hands on. An update from a parent cut off from the manager sets the time free. -/
def Obligations.GroupsRolesPartitionsAndLossesAreKept : Prop :=
  (∀ (g w : Nat) (v : Word) (s : State), s.stopped = false → s.sleep.pkg = .awake → g < 256 → w < 32 → s.ix.insts.all (fun x => decide (x.group ≠ g) || x.req.isNone) = true →
    ∃ t, exec (.groupWrite g w v) s = .next t ∧ t.reg (Off.grp g (4 * w)) = v.toNat ∧
      t = { s with regs := t.regs, ix := t.ix, sleep := t.sleep, out := t.out } ∧
      t.ix.insts = s.ix.insts.filter (fun x => decide (x.group ≠ g)) ∧ t.ix.early = s.ix.early.filter (fun x => decide (x.group ≠ g)) ∧
      t.instNext g true = 0 ∧ t.instNext g false = 0 ∧
      t.degraded g = false ∧ t.regBits (Off.grpStatus g) 16 11 = (t.groupMembers g).length ∧
      ((s.isManager || s.isSub) = false → t.sleep = s.sleep) ∧
      ((s.isManager || s.isSub) = true → t.sleep = { s.sleep with idleSince := s.now }) ∧
      (s.isManager = false → t.out = s.out ∧ SameRegsBut [Off.grp g (4 * w), Off.grpStatus g] s t) ∧
      (s.isManager = true → t.out = s.out ++ [.groupWrite g w v.toNat] ∧ SameRegsBut ([Off.grp g (4 * w), Off.grpStatus g] ++ laneRegs) s t)) ∧
  (∀ (g w i : Nat) (v : Word) (q : Request) (x : GroupInst) (s : State), s.stopped = false → s.sleep.pkg = .awake → x ∈ s.ix.insts → x.group = g → x.req = some i →
    s.req? i = some q → q.phase ≠ .finished →
    ∃ t, exec (.groupWrite g w v) s = .next t ∧ t.standing i = some (.finished, .aborted, q.pos) ∧
      t.ix.insts = s.ix.insts.filter (fun x => decide (x.group ≠ g))) ∧
  (∀ (d p : Nat) (v : DWord) (s : State), s.stopped = false → s.sleep.pkg = .awake → (s.isManager || s.isSub) = true → d < 1024 → d ≠ s.devNum →
    s.foremanTo d = some p →
    ∃ t, exec (.mapPartitionWrite d v) s = .next t ∧
      t = { s with regs := t.regs, ix := t.ix, sleep := { s.sleep with idleSince := s.now }, holds := sdel s.holds (Off.map d 8), out := t.out } ∧
      t.reg64 (Off.map d 8) = v.toNat ∧ t.out = s.out ++ [.partition d v] ∧
      SameRegsBut [Off.map d 8, Off.map d 0xC, Off.cred p 3 4, Off.cred p 3 8] s t) ∧
  (∀ (v : DWord) (s : State), s.stopped = false → s.mapped = true → s.isManager = false →
    ∃ t, exec (.partitionDelivery v) s = .next t ∧ t = { s with regs := t.regs } ∧ t.reg64 (Off.ix 0x18) = v.toNat ∧
      SameRegsBut [Off.ix 0x18, Off.ix 0x1C] s t) ∧
  (∀ (v : Word) (s : State), s.stopped = false → s.sleep.pkg = .awake → v.getLsbD 2 = true → (v.getLsbD 1 == s.regBit (Off.ix 0) 0) = true →
    ∃ t, exec (.ixRoleConfirm v true) s = .next t ∧ t = { s with regs := t.regs, sleep := t.sleep, holds := t.holds } ∧ t.confirmed = true ∧
      t.isManager = v.getLsbD 1 ∧ t.isSub = (v.getLsbD 3 && !v.getLsbD 1) ∧ (v.getLsbD 1 = true → t.devNum = 0 ∧ t.mapped = true) ∧
      SameRegsBut [Off.ix 0, Off.ix 4] s t) ∧
  (∀ (v : Word) (s : State), s.stopped = false → s.sleep.pkg = .awake → v.getLsbD 2 = true → (v.getLsbD 1 == s.regBit (Off.ix 0) 0) = false →
    ∃ t, exec (.ixRoleConfirm v true) s = .next t ∧ t.confirmed = false ∧
      (∃ e ∈ t.errs.onDieNs, e.reason = .role ∧ e.world = 0 ∧ e.time = s.now) ∧ (∃ e ∈ t.errs.onDieS, e.reason = .role ∧ e.world = 1)) ∧
  (∀ (port : Nat) (news : MapNews) (s : State), s.stopped = false → s.confirmed = true → news.cut = false →
    ∃ t, exec (.mapUpdate port news) s = .next t ∧ t.ix.lost = news.lost ∧ t.ix.links = news.links ∧ t.ix.devices = news.devices.map (·.1) ∧
      (∀ d w, d ∈ news.lost → d ∉ s.ix.lost → w < 256 → s.winState w ≠ 0 → s.winPeer w = d →
        t.winState w = 0 ∧ t.regBit (Off.win w 0) 2 = true ∧ t.reg (Off.win w 0x28) = 0 ∧
        t.reg (Off.win w 0x24) = (s.reg (Off.win w 0x24) + s.reg (Off.win w 0x28)) % 2 ^ 32 ∧ t.reg (Off.win w 0x3C) = 0 ∧
        t.reg (Off.win w 0x38) = (s.reg (Off.win w 0x38) + s.reg (Off.win w 0x3C)) % 2 ^ 32) ∧
      (∀ d g, d ∈ news.lost → d < 1024 → d ∉ s.ix.lost → g < 256 → s.regBit (Off.grp g (4 * (d / 32))) (d % 32) = true → t.degraded g = true) ∧
      (∀ e ∈ t.ix.inbound, e ∈ s.ix.inbound ∧ (e.src ∈ news.lost → e.src ∈ s.ix.lost)) ∧
      (∀ d ∈ news.devices, d.2 ≤ sget (fun _ => 0) t.ix.incarnations d.1) ∧
      (s.isSub = true → Out.mapUpdate news ∈ t.out ∧ ∀ d ∈ news.lost, d < 1024 → s.mapState d = 1 → t.mapState d = 2)) ∧
  (∀ (port : Nat) (news : MapNews) (s : State), s.stopped = false → s.confirmed = true → news.cut = true →
    ∃ t, exec (.mapUpdate port news) s = .next t ∧ t.ix.lost = s.ix.lost ∧ t.ix.links = s.ix.links ∧
      (s.ix.uplink = some port → t.ix.cut = true ∧ t.clock = { s.clock with rate := nominalRate } ∧ t.regBits (Off.ms 0x10) 0 3 = 0) ∧
      (s.ix.uplink ≠ some port → t.ix.cut = s.ix.cut ∧ t.clock = s.clock)) ∧
  (∀ (lost : List Nat) (s : State), s.stopped = false → s.isManager = true →
    ∃ t, exec (.lossNotice lost) s = .next t ∧ Out.mapUpdate t.mapNews ∈ t.out ∧ t.ix.lost = t.mapNews.lost ∧
      (∀ d ∈ lost, 0 < d → d < 1024 → s.mapState d = 1 → t.mapState d = 2 ∧ d ∈ t.ix.lost) ∧
      (∀ c ∈ s.attachedDevs, c ∉ reached (s.ix.links.filter (fun l => !(lost.filter (fun d => decide (s.mapState d = 1))).contains l.near &&
          !(lost.filter (fun d => decide (s.mapState d = 1))).contains l.far)) (s.ix.links.filter (fun l =>
          !(lost.filter (fun d => decide (s.mapState d = 1))).contains l.near && !(lost.filter (fun d => decide (s.mapState d = 1))).contains l.far)).length
          [s.devNum] → t.mapState c = 2 ∧ c ∈ t.ix.lost) ∧
      (∀ c ∈ s.attachedDevs, s.unreachable (lost.filter (fun d => decide (s.mapState d = 1))) = [] → t.mapState c = s.mapState c))

/-! ### Remote windows (R350 to R353) -/

/-- TIER 2. WINDOW_OPEN, WINDOW_NOTICE_ANSWER and WINDOW_CLOSE (R350, R353). A closed slot takes its next epoch, never 0, its peer, rights, base
and size, and asks the target; the target's good answer opens it and completes the request with POSITION the epoch, a refusal closes it and ends
the request FAULT_WORLD. A close turns the slot closing, stops the copies pinned to its epoch and sends the notice; it completes with the epoch
once the notice and every packet are answered. A slot not open has nothing to close (the model's choice, log entry 35). -/
def Obligations.WindowsOpenWithAFreshEpochAndClose : Prop :=
  (∀ (i w p : Nat) (q : Request) (s : State), s.stopped = false → s.req? i = some q → q.opcode = Dop.windowOpen → s.mayStart q = true →
    q.fld 8 1 = w → s.winState w = 0 → s.peerAttached (q.fld 0xA 2) = true → s.routeTo (q.fld 0xA 2) q.secure = some p →
    s.dataPorts (q.fld 0xA 2) q.secure ≠ [] →
    ∃ t, exec (.windowOpen i) s = .next t ∧ t = { s with regs := t.regs, reqs := t.reqs, ix := t.ix, out := t.out } ∧
      t.winState w = 1 ∧ t.winEpoch w = nextEpoch (s.winEpoch w) ∧ t.winEpoch w ≠ 0 ∧ t.winPeer w = q.fld 0xA 2 % 1024 ∧
      t.winSecure w = q.secure ∧ t.regBit (Off.win w 0) 2 = false ∧ t.reg64 (Off.win w 8) = q.fld 0x10 8 ∧
      t.reg64 (Off.win w 0x10) = q.fld 0x18 8 ∧ t.req? i = some { q with phase := .running, epoch := nextEpoch (s.winEpoch w) } ∧
      t.out = s.out ++ [.openRequest (q.fld 0xA 2) w (nextEpoch (s.winEpoch w)) (q.fld 0x10 8) (q.fld 0x18 8) (q.fld 9 1) q.secure] ∧
      SameRegsBut [Off.win w 0, Off.win w 4, Off.win w 8, Off.win w 0xC, Off.win w 0x10, Off.win w 0x14, Off.cred p 0 4, Off.cred p 0 8] s t) ∧
  (∀ (i w e : Nat) (q : Request) (s : State), s.stopped = false → s.winState w = 1 → s.winEpoch w = e → s.slotReqs Dop.windowOpen w = [i] →
    s.req? i = some q → q.phase = .running →
    ∃ t, exec (.windowNoticeAnswer w e true 0) s = .next t ∧ t = { s with regs := t.regs, reqs := t.reqs } ∧ t.winState w = 2 ∧
      t.standing i = some (.finished, .ok, e) ∧ SameRegsBut [Off.win w 0] s t) ∧
  (∀ (i w e : Nat) (q : Request) (s : State), s.stopped = false → s.winState w = 1 → s.winEpoch w = e → s.slotReqs Dop.windowOpen w = [i] →
    s.req? i = some q → q.phase = .running →
    ∃ t, exec (.windowNoticeAnswer w e false Status.faultWorld.code) s = .next t ∧ t.winState w = 0 ∧
      t.standing i = some (.finished, .faultWorld, q.pos)) ∧
  (∀ (i w e : Nat) (q : Request) (s : State), s.stopped = false → s.winState w = 1 → s.winEpoch w = e → s.slotReqs Dop.windowOpen w = [i] →
    s.req? i = some q → q.phase = .running →
    ∃ t, exec (.windowNoticeAnswer w e false Status.faultNotReady.code) s = .next t ∧ t.winState w = 0 ∧
      t.standing i = (if q.wait then some (.accepted, q.status, q.pos) else some (.finished, .faultNotReady, q.pos))) ∧
  (∀ (w e st : Nat) (ok : Bool) (s : State), s.winEpoch w ≠ e →
    ∃ t, exec (.windowNoticeAnswer w e ok st) s = .next t ∧ t = s) ∧
  (∀ (i w p : Nat) (q : Request) (s : State), s.stopped = false → s.req? i = some q → q.opcode = Dop.windowClose → s.mayStart q = true →
    q.fld 8 1 = w → s.winState w = 2 → s.routeTo (s.winPeer w) q.secure = some p →
    ∃ t, exec (.windowClose i) s = .next t ∧ t.winState w = 3 ∧ t.winEpoch w = s.winEpoch w ∧ t.mem = s.mem ∧ t.host = s.host ∧
      t.req? i = some { q with phase := .running, epoch := s.winEpoch w } ∧
      t.out = s.out ++ [.closeNotice (s.winPeer w) w (s.winEpoch w)] ∧
      (∀ k c, s.req? k = some c → c.opcode = Dop.remoteCopy → (c.phase = .accepted ∨ c.phase = .running) → c.epoch = s.winEpoch w →
        ptrWindow (if ptrSpace (c.fld 0x18 8) = 2 then c.fld 0x18 8 else c.fld 0x10 8) = w →
        (s.unanswered k = true → t.req? k = some { c with wrote := true, phase := .running }) ∧
        (s.unanswered k = false → t.standing k = some (.finished, copyStop c)))) ∧
  (∀ (i w : Nat) (q : Request) (s : State), s.stopped = false → s.req? i = some q → q.opcode = Dop.windowClose → s.mayStart q = true →
    q.fld 8 1 = w → (s.winState w = 0 ∨ s.winState w = 3) →
    ∃ t, exec (.windowClose i) s = .next t ∧ t.standing i = some (.finished, .faultWindowClosed, q.pos) ∧ t.ix = s.ix ∧ t.out = s.out) ∧
  (∀ (i w e st : Nat) (ok : Bool) (q : Request) (s : State), s.stopped = false → s.winState w = 3 → s.winEpoch w = e →
    s.ix.txns.any (fun x => decide (x.window = w) && decide (x.epoch = e)) = false → s.slotReqs Dop.windowClose w = [i] →
    s.req? i = some q → q.phase = .running →
    ∃ t, exec (.windowNoticeAnswer w e ok st) s = .next t ∧ t = { s with regs := t.regs, reqs := t.reqs, ix := t.ix } ∧
      t.winState w = 0 ∧ t.standing i = some (.finished, .ok, e) ∧ SameRegsBut [Off.win w 0] s t)

/-- TIER 2. REMOTE_COPY, WINDOW_ANSWER and READ_DATA (R351, R352, R353). A copy whose window is open sends its bytes in packets of up to 4,096 as
its credits allow, each with the epoch it is pinned to; the bytes are counted as issued and in flight until an answer moves them to acknowledged,
refused or returned. The last answer completes the copy; one refused ends it FAULT_WINDOW_CLOSED, as does a slot that has closed, and a copy that
met a refused byte of its own ends at it. Returned data is stored exactly at the copy's destination. A packet of another world than its port's
has no effect beside the refusal's counts (the model's reading, log entry 35). -/
def Obligations.CopiesSendPacketsAndEndWhenAnswered : Prop :=
  (∀ (i w p len c src : Nat) (q : Request) (s : State), s.stopped = false → s.req? i = some q → q.opcode = Dop.remoteCopy →
    (s.mayStart q || s.goesOn q) = true → q.wrote = false → q.stop = none → q.aux = 0 → ptrSpace (q.fld 0x18 8) = 2 → ptrWindow (q.fld 0x18 8) = w →
    s.winState w = 2 → s.winEpoch w = q.epoch → s.dataPorts (s.winPeer w) q.secure = [p] → q.fld 0x20 4 = len → 0 < len →
    (len + 4095) / 4096 = c → 18 * c ≤ s.reg (Off.cred p 1 4) → (s.port p).waiting 1 = [] → q.fld 0x10 8 = src →
    (ptrSpace src = 1 ∧ ptrAddr src + len < 2 ^ 52 ∧ s.hostStop (ptrAddr src) len = none ∨
      ∀ j, j < c → LinesOpen s q.secure false false (src + 4096 * j) (min 4096 (len - 4096 * j))) →
    ∃ t, exec (.remoteCopy i) s = .next t ∧ t = { s with regs := t.regs, reqs := t.reqs, ix := t.ix, out := t.out } ∧
      t.ix.txns = s.ix.txns ++ (List.range c).map (fun j =>
        { txn := (s.ix.txnNext + j) % 65536, window := w, epoch := q.epoch, write := true, len := min 4096 (len - 4096 * j), req := i,
          order := q.order, local_ := src + 4096 * j }) ∧
      (∀ j, j < c → Out.packet 0x21 (.mk q.secure s.devNum (s.winPeer w) w q.epoch s.clock.incarnation
        (ptrOffset (q.fld 0x18 8) + 4096 * j) (min 4096 (len - 4096 * j)) ((s.ix.txnNext + j) % 65536)) (if ptrSpace src = 1 then s.hostBytes (ptrAddr src + 4096 * j) (min 4096 (len - 4096 * j))
          else s.memBytes (src + 4096 * j) (min 4096 (len - 4096 * j))) ∈ t.out) ∧
      t.reg (Off.win w 0x18) = (s.reg (Off.win w 0x18) + len) % 2 ^ 32 ∧ t.reg (Off.win w 0x28) = (s.reg (Off.win w 0x28) + len) % 2 ^ 32 ∧
      t.req? i = some { q with phase := .running, aux := len } ∧
      SameRegsBut [Off.win w 0x18, Off.win w 0x28, Off.cred p 1 4, Off.cred p 1 8, Off.hl 0x1C] s t) ∧
  (∀ (i w p len c dst : Nat) (q : Request) (s : State), s.stopped = false → s.req? i = some q → q.opcode = Dop.remoteCopy →
    (s.mayStart q || s.goesOn q) = true → q.wrote = false → q.stop = none → q.aux = 0 → q.fld 0x18 8 = dst → ptrSpace dst ≠ 2 → ptrWindow (q.fld 0x10 8) = w →
    s.winState w = 2 → s.winEpoch w = q.epoch → s.dataPorts (s.winPeer w) q.secure = [p] → q.fld 0x20 4 = len → 0 < len →
    (len + 4095) / 4096 = c → c ≤ s.reg (Off.cred p 1 4) → (s.port p).waiting 1 = [] →
    ∃ t, exec (.remoteCopy i) s = .next t ∧ t = { s with regs := t.regs, reqs := t.reqs, ix := t.ix, out := t.out } ∧
      t.ix.txns = s.ix.txns ++ (List.range c).map (fun j =>
        { txn := (s.ix.txnNext + j) % 65536, window := w, epoch := q.epoch, write := false, len := min 4096 (len - 4096 * j), req := i,
          order := q.order, local_ := dst + 4096 * j }) ∧
      (∀ j, j < c → Out.packet 0x22 (.mk q.secure s.devNum (s.winPeer w) w q.epoch s.clock.incarnation
        (ptrOffset (q.fld 0x10 8) + 4096 * j) (min 4096 (len - 4096 * j)) ((s.ix.txnNext + j) % 65536)) [] ∈ t.out) ∧
      t.reg (Off.win w 0x2C) = (s.reg (Off.win w 0x2C) + len) % 2 ^ 32 ∧ t.reg (Off.win w 0x3C) = (s.reg (Off.win w 0x3C) + len) % 2 ^ 32 ∧
      t.req? i = some { q with phase := .running, aux := len } ∧
      SameRegsBut [Off.win w 0x2C, Off.win w 0x3C, Off.cred p 1 4, Off.cred p 1 8] s t) ∧
  (∀ (i w : Nat) (q : Request) (s : State), s.stopped = false → s.req? i = some q → q.opcode = Dop.remoteCopy →
    (s.mayStart q || s.goesOn q) = true → q.wrote = false → q.stop = none → q.aux ≠ q.fld 0x20 4 →
    ptrWindow (if ptrSpace (q.fld 0x18 8) = 2 then q.fld 0x18 8 else q.fld 0x10 8) = w →
    (s.winState w = 0 ∨ s.winState w = 3 ∨ s.winEpoch w ≠ q.epoch) → s.unanswered i = false →
    ∃ t, exec (.remoteCopy i) s = .next t ∧ t.standing i = some (.finished, .faultWindowClosed, q.pos) ∧ t.ix = s.ix ∧ t.mem = s.mem) ∧
  (∀ (h : WinHdr) (x : Txn) (q : Request) (s : State), s.stopped = false → s.txnOf h = some x → x.write = true → s.req? x.req = some q →
    q.order = x.order → q.opcode = Dop.remoteCopy → q.phase = .running → q.wrote = false → q.stop = none → s.winState x.window ≠ 3 →
    ∃ t, exec (.windowAnswer h true h.secure) s = .next t ∧
      t = { s with regs := t.regs, host := t.host, link := t.link, rings := t.rings, reqs := t.reqs, out := t.out,
                   ix := { s.ix with txns := s.ix.txns.erase x } } ∧
      (q.mileposts = false → t.host = s.host ∧ t.out = s.out ∧ SameRegsBut [Off.win x.window 0x1C, Off.win x.window 0x28] s t) ∧
      t.reg (Off.win x.window 0x1C) = (s.reg (Off.win x.window 0x1C) + x.len) % 2 ^ 32 ∧
      t.reg (Off.win x.window 0x28) = (s.reg (Off.win x.window 0x28) + (2 ^ 32 - x.len % 2 ^ 32)) % 2 ^ 32 ∧
      t.standing x.req = (if othersWait s x q = false ∧ q.aux = q.fld 0x20 4 then
        some (.finished, .ok, q.fld 0x20 4) else some (.running, q.status, q.pos + x.len))) ∧
  (∀ (h : WinHdr) (x : Txn) (q : Request) (s : State), s.stopped = false → s.txnOf h = some x → x.write = true → s.req? x.req = some q →
    q.order = x.order → q.opcode = Dop.remoteCopy → q.phase = .running → (q.wrote = true ∨ q.stop ≠ none) → s.winState x.window ≠ 3 →
    ∃ t, exec (.windowAnswer h true h.secure) s = .next t ∧ t.ix = { s.ix with txns := s.ix.txns.erase x } ∧ t.mem = s.mem ∧
      t.standing x.req = (if othersWait s x q = false then some (.finished, copyStop { q with pos := q.pos + x.len })
        else some (.running, q.status, q.pos + x.len))) ∧
  (∀ (h : WinHdr) (x : Txn) (q : Request) (s : State), s.stopped = false → h.window < 256 → s.txnOf h = some x → s.req? x.req = some q →
    q.order = x.order → q.opcode = Dop.remoteCopy → q.phase = .running → s.winState x.window ≠ 3 →
    ∃ t, exec (.windowAnswer h false h.secure) s = .next t ∧ t.ix = { s.ix with txns := s.ix.txns.erase x } ∧ t.mem = s.mem ∧
      t.reg (Off.win x.window (if x.write then 0x20 else 0x34)) =
        (s.reg (Off.win x.window (if x.write then 0x20 else 0x34)) + x.len) % 2 ^ 32 ∧
      t.reg (Off.win x.window (if x.write then 0x28 else 0x3C)) =
        (s.reg (Off.win x.window (if x.write then 0x28 else 0x3C)) + (2 ^ 32 - x.len % 2 ^ 32)) % 2 ^ 32 ∧
      t.standing x.req = (if othersWait s x q = false then some (.finished, copyStop q) else some (.running, q.status, q.pos))) ∧
  (∀ (h : WinHdr) (data : List Byte) (x : Txn) (q : Request) (s : State), s.stopped = false → s.regWrites = [] → s.txnOf h = some x → x.write = false →
    s.req? x.req = some q → q.order = x.order → q.opcode = Dop.remoteCopy → q.phase = .running → q.wrote = false → q.stop = none →
    s.winState x.window ≠ 3 → data.length = x.len → LinesOpen s q.secure true false x.local_ x.len →
    ∃ t, exec (.readData h data h.secure) s = .next t ∧
      t = { s with regs := t.regs, mem := t.mem, hbm := t.hbm, host := t.host, link := t.link, rings := t.rings, reqs := t.reqs, out := t.out,
                   ix := { s.ix with txns := s.ix.txns.erase x } } ∧
      t.memBytes x.local_ x.len = data ∧ SameMemOutside x.local_ (x.local_ + x.len) s t ∧
      t.reg (Off.win x.window 0x30) = (s.reg (Off.win x.window 0x30) + x.len) % 2 ^ 32 ∧
      t.standing x.req = (if othersWait s x q = false ∧ q.aux = q.fld 0x20 4 then
        some (.finished, .ok, q.fld 0x20 4) else some (.running, q.status, q.pos + x.len))) ∧
  (∀ (h : WinHdr) (ack : Bool) (s : State), s.stopped = false →
    ∃ t, exec (.windowAnswer h ack (!h.secure)) s = .next t ∧ t = { s with regs := t.regs } ∧
      (∀ w, w < 256 → t.winState w = s.winState w ∧ t.reg (Off.win w 0x28) = s.reg (Off.win w 0x28))) ∧
  (∀ (h : WinHdr) (data : List Byte) (s : State), s.stopped = false →
    ∃ t, exec (.readData h data (!h.secure)) s = .next t ∧ t = { s with regs := t.regs })

/-- TIER 2. WINDOW_OPEN_REQUEST, WINDOW_WRITE_PACKET, READ_REQ and CLOSE_NOTICE (R350, R352, R353). A target admits an open request of its port's
world whose range its region table admits, into a free inbound entry, and answers; it refuses another with FAULT_WORLD. A write packet that an
entry admits as it stands is stored whole and answered ACK; any other touches no memory, adds its bytes to IX_LATE_DISCARDED and is answered
NACK_CLOSED. A read is answered with the bytes, or refused with none. A packet whose range is closed for a change of its region waits; one that
the toll check refuses is discarded. A close notice closes the entry and is answered, or marks the issuer's slot. -/
def Obligations.TargetsAdmitStoreAndDiscard : Prop :=
  (∀ (o : OpenReq) (s : State), s.stopped = false → s.staleSource o.src o.incarnation = false → s.peerAdmits o.secure o.base o.size = true →
    (s.ix.inbound.filter (fun e => !(decide (e.src = o.src) && decide (e.window = o.window)))).length < 4096 →
    ∃ t, exec (.windowOpenRequest o o.secure) s = .next t ∧ t = { s with regs := t.regs, ix := t.ix, out := t.out } ∧
      t.ix.inbound = s.ix.inbound.filter (fun e => !(decide (e.src = o.src) && decide (e.window = o.window))) ++
        [{ src := o.src, window := o.window, epoch := o.epoch, incarnation := o.incarnation, base := o.base, size := o.size,
           access := o.access, secure := o.secure, opened := true }] ∧
      t.reg (Off.ix 0x30) = t.ix.inbound.length % 2 ^ 32 ∧ t.out = s.out ++ [.openAnswer o.src o.window o.epoch 0]) ∧
  (∀ (o : OpenReq) (portSecure : Bool) (s : State), s.stopped = false → s.staleSource o.src o.incarnation = false →
    (o.secure ≠ portSecure ∨ s.peerAdmits o.secure o.base o.size = false) →
    ∃ t, exec (.windowOpenRequest o portSecure) s = .next t ∧ t = { s with regs := t.regs, ix := t.ix, out := t.out } ∧
      t.ix.inbound = s.ix.inbound ∧ t.out = s.out ++ [.openAnswer o.src o.window o.epoch Status.faultWorld.code]) ∧
  (∀ (o : OpenReq) (portSecure : Bool) (s : State), s.staleSource o.src o.incarnation = true →
    ∃ t, exec (.windowOpenRequest o portSecure) s = .next t ∧ t = s) ∧
  (∀ (h : WinHdr) (data : List Byte) (portSecure : Bool) (e : Inbound) (v : Verdict) (a : Nat) (s : State), s.stopped = false →
    s.entryFor h portSecure 1 = some e → s.firstRefused h.secure true (e.base + h.offset) h.len = some (v, a) →
    ∃ t, exec (.windowWritePacket h data portSecure) s = .next t ∧ t.mem = s.mem ∧
      (v = .wait → t = { s with ix := { s.ix with held := s.ix.held ++ [.write h data portSecure] } }) ∧
      (v ≠ .wait → t.reg (Off.ix 0x34) = (s.reg (Off.ix 0x34) + h.len) % 2 ^ 32 ∧
        t.out = s.out ++ [.packet 0x25 { h with src := s.devNum, dst := h.src } []])) ∧
  (∀ (h : WinHdr) (portSecure : Bool) (e : Inbound) (v : Verdict) (a : Nat) (s : State), s.stopped = false →
    s.entryFor h portSecure 0 = some e → s.firstRefused h.secure false (e.base + h.offset) h.len = some (v, a) →
    ∃ t, exec (.readReq h portSecure) s = .next t ∧ t.mem = s.mem ∧
      (v = .wait → t = { s with ix := { s.ix with held := s.ix.held ++ [.readReq h portSecure] } }) ∧
      (v ≠ .wait → t.out = s.out ++ [.packet 0x25 { h with src := s.devNum, dst := h.src } []])) ∧
  (∀ (h : WinHdr) (data : List Byte) (e : Inbound) (s : State), s.stopped = false → s.entryFor h h.secure 1 = some e → data.length = h.len →
    LinesOpen s h.secure true false (e.base + h.offset) h.len →
    ∃ t, exec (.windowWritePacket h data h.secure) s = .next t ∧
      t = { s with regs := t.regs, mem := t.mem, hbm := t.hbm, ix := t.ix, out := t.out } ∧
      t.memBytes (e.base + h.offset) h.len = data ∧ SameMemOutside (e.base + h.offset) (e.base + h.offset + h.len) s t ∧
      t.reg (Off.ix 0x34) = s.reg (Off.ix 0x34) ∧ Out.packet 0x24 { h with src := s.devNum, dst := h.src } [] ∈ t.out) ∧
  (∀ (h : WinHdr) (data : List Byte) (portSecure : Bool) (s : State), s.stopped = false → s.entryFor h portSecure 1 = none →
    ∃ t, exec (.windowWritePacket h data portSecure) s = .next t ∧ t = { s with regs := t.regs, ix := t.ix, out := t.out } ∧
      t.reg (Off.ix 0x34) = (s.reg (Off.ix 0x34) + h.len) % 2 ^ 32 ∧
      t.out = s.out ++ [.packet 0x25 { h with src := s.devNum, dst := h.src } []]) ∧
  (∀ (h : WinHdr) (e : Inbound) (s : State), s.stopped = false → s.entryFor h h.secure 0 = some e →
    LinesOpen s h.secure false false (e.base + h.offset) h.len →
    ∃ t, exec (.readReq h h.secure) s = .next t ∧ t = { s with regs := t.regs, ix := t.ix, out := t.out } ∧
      Out.packet 0x23 { h with src := s.devNum, dst := h.src } (s.memBytes (e.base + h.offset) h.len) ∈ t.out) ∧
  (∀ (h : WinHdr) (portSecure : Bool) (s : State), s.stopped = false → s.entryFor h portSecure 0 = none →
    ∃ t, exec (.readReq h portSecure) s = .next t ∧ t = { s with regs := t.regs, ix := t.ix, out := t.out } ∧
      t.out = s.out ++ [.packet 0x25 { h with src := s.devNum, dst := h.src } []]) ∧
  (∀ (peer w e : Nat) (s : State), s.stopped = false →
    ∃ t, exec (.closeNotice peer w e true) s = .next t ∧ t = { s with regs := t.regs, ix := t.ix, out := t.out } ∧
      t.ix.inbound = s.ix.inbound.filter (fun x => !(decide (x.src = peer) && decide (x.window = w) && decide (x.epoch = e))) ∧
      t.reg (Off.ix 0x30) = t.ix.inbound.length % 2 ^ 32 ∧ t.out = s.out ++ [.closeAnswer peer w e]) ∧
  (∀ (peer w e : Nat) (s : State), s.stopped = false → s.winState w = 2 → s.winEpoch w = e → s.winPeer w = peer →
    ∃ t, exec (.closeNotice peer w e false) s = .next t ∧ t = { s with regs := t.regs } ∧ t.winState w = 0 ∧
      t.regBit (Off.win w 0) 2 = true ∧ t.winEpoch w = e ∧ SameRegsBut [Off.win w 0] s t)

/-! ### Irxia links (R337 to R349) -/

/-- TIER 2. SIGNAL_DETECT, PORT_TRAINED, HELLO, MAP_ADMIT and PARTNER_LOST (R340, R341, R344, R345, R347). After secure boot a port trains, then
exchanges hellos (its own carries part, grade, feature mask, key digest, role, ports, latencies and loss), which give its partner's items and,
from 64 echoes, the round trip and the cable estimate (the model's reading of the median, log entry 33); two confirmed managers stay REFUSED.
Once the hellos are complete, the manager gives an admitted device its number, refuses one at depth 4, and the port attaches with its lanes'
credits granted; every device is told. A worker takes its number and its port towards the manager; its other partners attach beside it. A port
that loses its signal before it attaches goes down. A lost partner's credits are reclaimed lane by lane, its buffers flushed, and the manager is
told; behind a lost uplink the system time runs free at the nominal rate. -/
def Obligations.PortsTrainAttachAndLoseTheirPartner : Prop :=
  (∀ (p : Nat) (s : State), s.stopped = false → s.sec.stage = .booted → (s.ixState p = 0 ∨ s.ixState p = 4) →
    ∃ t, exec (.signalDetect p) s = .next t ∧ t = { s with regs := t.regs } ∧ t.ixState p = 1 ∧ SameRegsBut [Off.ixp p 0] s t) ∧
  (∀ (p : Nat) (s : State), (s.sec.stage ≠ .booted ∨ s.ixState p ≠ 0 ∧ s.ixState p ≠ 4) → ∃ t, exec (.signalDetect p) s = .next t ∧ t = s) ∧
  (∀ (p iface loss : Nat) (lanes : List Nat) (s : State), (s.ixState p ≠ 1 ∨ lanes ≠ [0, 1, 2, 3] ∧ lanes ≠ [3, 2, 1, 0]) →
    ∃ t, exec (.portTrained p iface loss lanes) s = .next t ∧ t = s) ∧
  (∀ (p iface loss : Nat) (lanes : List Nat) (s : State), s.stopped = false → s.ixState p = 1 → (lanes = [0, 1, 2, 3] ∨ lanes = [3, 2, 1, 0]) →
    ∃ t, exec (.portTrained p iface loss lanes) s = .next t ∧ t = { s with regs := t.regs, ix := t.ix, out := s.out ++ [.hello (t.ownHello p)] } ∧
      t.ixState p = 2 ∧ t.regBits (Off.ixp p 0) 4 2 = iface % 4 ∧ t.regBits (Off.ixp p 0x18) 0 16 = loss % 2 ^ 16 ∧
      t.port p = { IxPort.empty with trainedAt := s.now, lastFlit := s.now, partner := (s.port p).partner } ∧
      SameRegsBut [Off.ixp p 0, Off.ixp p 0x18] s t) ∧
  (∀ (p : Nat) (h : Hello) (s : State), s.stopped = false → 2 ≤ s.ixState p → s.ixState p ≠ 4 →
    ∃ t, exec (.hello p h) s = .next t ∧ t = { s with regs := t.regs, ix := t.ix } ∧ (t.port p).partner = some h ∧ (t.port p).lastFlit = s.now ∧
      t.reg64 (Off.ixp p 8) = h.device % 1024 + 2 ^ 10 * (h.port % 16) + 2 ^ 14 * h.gradeB.toNat + 2 ^ 15 * h.manager.toNat +
        2 ^ 16 * (h.feature % 2 ^ 32) ∧
      t.regBits (Off.ixp p 0x18) 16 16 = h.loss % 2 ^ 16 ∧
      t.ixState p = (if s.isManager ∧ h.manager = true ∧ h.confirmed = true ∧ s.ixState p = 2 then 5 else s.ixState p) ∧
      (if (keepLast 64 ((s.port p).rtts ++ [h.echo])).length < 64 then SameRegsBut ([Off.ixp p 8, Off.ixp p 0xC, Off.ixp p 0x18] ++ (List.range 16).map (Off.ixp · 0)) s t
       else t.reg (Off.ixp p 0x10) = median (keepLast 64 ((s.port p).rtts ++ [h.echo])) % 2 ^ 32 ∧
        t.reg (Off.ixp p 0x14) = cableCm (median (keepLast 64 ((s.port p).rtts ++ [h.echo]))) (fixedLocal p + helloFixed h)
          (s.regBits (Off.ixp p 4) 0 12) % 2 ^ 32)) ∧
  (∀ (p : Nat) (a : Admit) (s : State), s.stopped = false → p < 16 → s.confirmed = true → s.isManager = true → s.ixState p = 2 → a.depth = 1 →
    s.helloDone p = true → s.attachedDevs.length < 1023 → a.number < 1024 → (a.number = 0 ∨ s.mapState a.number ≠ 1) →
    ∃ t, exec (.mapAdmit p a) s = .next t ∧ t.ixState p = 3 ∧ t.partnerNo p = s.nextNumber a.number ∧ t.mapState (s.nextNumber a.number) = 1 ∧
      t.mapParent (s.nextNumber a.number) = s.devNum % 1024 ∧ t.regBit (Off.ix 0xC) p = true ∧ t.readyCode 5 p = 1 ∧
      (∀ v, v < 4 → t.reg (Off.cred p v 0) = (s.reg (Off.cred p v 0) + laneBuffer.getD v 0) % 2 ^ 32) ∧ t.mem = s.mem ∧ t.reqs = s.reqs ∧
      Out.attachAnswer (s.nextNumber a.number) false ∈ t.out ∧ Out.mapUpdate t.mapNews ∈ t.out) ∧
  (∀ (p : Nat) (a : Admit) (s : State), s.stopped = false → p < 16 → s.confirmed = true → s.isManager = true → s.ixState p = 2 → a.depth = 1 →
    s.helloDone p = true → a.number < 1024 → 0 < a.number → s.mapState a.number = 1 →
    ∃ t, exec (.mapAdmit p a) s = .next t ∧ t.ixState p = 3 ∧ t.partnerNo p = a.number ∧ t.mapState a.number = 1 ∧ t.mem = s.mem ∧ t.reqs = s.reqs ∧
      (∃ l ∈ t.ix.links, l.near = s.devNum ∧ l.nearPort = p ∧ l.far = a.number) ∧ Out.mapUpdate t.mapNews ∈ t.out) ∧
  (∀ (p : Nat) (a : Admit) (s : State), s.stopped = false → s.confirmed = true → s.isManager = true → 4 ≤ a.depth →
    s.attachedDevs.length < 1023 → a.number < 1024 → (a.number = 0 ∨ s.mapState a.number ≠ 1) →
    ∃ t, exec (.mapAdmit p a) s = .next t ∧ t = { s with regs := t.regs, ix := t.ix, out := s.out ++ [.attachAnswer a.number true] } ∧
      t.mapState (s.nextNumber a.number) = 3 ∧ t.ix.lastNumber = s.ix.lastNumber ∧
      SameRegsBut ([Off.map (s.nextNumber a.number) 0, Off.map (s.nextNumber a.number) 4] ++ laneRegs) s t) ∧
  (∀ (p : Nat) (a : Admit) (s : State), s.stopped = false → p < 16 → s.confirmed = true → s.isManager = false →
    (!s.mapped || s.ix.uplink.isNone || decide (s.ix.uplink = some p)) = true → s.ixState p = 2 → s.helloDone p = true → a.refused = false →
    ∃ t, exec (.mapAdmit p a) s = .next t ∧ t.devNum = a.number % 1024 ∧ t.mapped = true ∧ t.regBits (Off.ix 4) 10 2 = a.depth % 4 ∧
      t.ix.uplink = some p ∧ t.ix.cut = false ∧ t.ixState p = 3 ∧ t.partnerNo p = s.partnerNo p ∧ t.regBit (Off.ix 0xC) p = true ∧ t.readyCode 5 p = 1 ∧
      (∀ v, v < 4 → t.reg (Off.cred p v 0) = (s.reg (Off.cred p v 0) + laneBuffer.getD v 0) % 2 ^ 32) ∧ t.mem = s.mem ∧ t.reqs = s.reqs) ∧
  (∀ (p : Nat) (a : Admit) (s : State), s.stopped = false → p < 16 → s.confirmed = true → s.isManager = false →
    (!s.mapped || s.ix.uplink.isNone || decide (s.ix.uplink = some p)) = false → s.ixState p = 2 → s.helloDone p = true → a.refused = false →
    a.number < 1024 →
    ∃ t, exec (.mapAdmit p a) s = .next t ∧ t.devNum = s.devNum ∧ t.ix.uplink = s.ix.uplink ∧ t.ixState p = 3 ∧ t.partnerNo p = a.number ∧
      t.regBit (Off.ix 0xC) p = true ∧ t.readyCode 5 p = 1 ∧
      (∀ v, v < 4 → t.reg (Off.cred p v 0) = (s.reg (Off.cred p v 0) + laneBuffer.getD v 0) % 2 ^ 32) ∧
      (s.isSub = true → a.parent = s.devNum → t.mapState a.number = 1 ∧ t.mapParent a.number = s.devNum) ∧ t.mem = s.mem ∧ t.reqs = s.reqs) ∧
  (∀ (p : Nat) (a : Admit) (s : State), s.stopped = false → s.confirmed = true → s.isManager = false → s.ixState p = 2 → a.refused = true →
    ∃ t, exec (.mapAdmit p a) s = .next t ∧ t = { s with regs := t.regs } ∧ t.ixState p = 5 ∧ SameRegsBut [Off.ixp p 0] s t) ∧
  (∀ (p : Nat) (a : Admit) (s : State), (s.confirmed = false ∨ s.helloDone p = false ∧ (s.isManager = true ∧ a.depth = 1 ∨
      s.isManager = false ∧ a.refused = false ∧ (!s.mapped || s.ix.uplink.isNone || decide (s.ix.uplink = some p)) = true)) →
    ∃ t, exec (.mapAdmit p a) s = .next t ∧ t = s) ∧
  (∀ (p : Nat) (s : State), s.stopped = false → (s.ixState p = 1 ∨ s.ixState p = 2 ∨ s.ixState p = 5) →
    ∃ t, exec (.partnerLost p) s = .next t ∧ t = { s with regs := t.regs, ix := t.ix } ∧ t.ixState p = 0 ∧ t.port p = IxPort.empty ∧
      SameRegsBut [Off.ixp p 0] s t) ∧
  (∀ (p : Nat) (s : State), s.stopped = false → p < 16 → s.ixState p = 3 →
    ∃ t, exec (.partnerLost p) s = .next t ∧ t = { s with regs := t.regs, ix := t.ix, clock := t.clock, out := s.out ++ [.lossNotice [s.partnerNo p]] ++
        (if s.ix.uplink = some p ∧ s.isSub = true then [.mapUpdate { lost := s.ix.lost, devices := [], links := s.ix.links, cut := true }] else []) } ∧
      t.clock = { s.clock with rate := if s.ix.uplink = some p then nominalRate else s.clock.rate } ∧
      (s.ix.uplink = some p → t.reg (Off.ix 0x10) = 0 ∧ t.regBits (Off.ms 0x10) 0 3 = 0) ∧
      (s.ix.uplink ≠ some p → t.reg (Off.ix 0x10) = s.reg (Off.ix 0x10) ∧ t.reg (Off.ms 0x10) = s.reg (Off.ms 0x10)) ∧
      t.ixState p = 4 ∧ (t.port p).replay = [] ∧ (t.port p).txWait = [] ∧ t.regBit (Off.ix 0xC) p = false ∧ t.readyCode 5 p = 0 ∧
      t.reg (Off.ixp p 0x2C) = (s.reg (Off.ixp p 0x2C) + 1) % 2 ^ 32 ∧
      (∀ v, v < 4 → t.reg (Off.cred p v 0xC) = (s.reg (Off.cred p v 0xC) + s.reg (Off.cred p v 8)) % 2 ^ 32 ∧
        t.reg (Off.cred p v 0x10) = (s.reg (Off.cred p v 0x10) + s.reg (Off.cred p v 4)) % 2 ^ 32 ∧ t.reg (Off.cred p v 8) = 0 ∧
        t.reg (Off.cred p v 4) = 0 ∧ t.reg (Off.cred p v 0x18) = (s.reg (Off.cred p v 0x18) + s.reg (Off.cred p v 0x1C)) % 2 ^ 32 ∧
        t.reg (Off.cred p v 0x1C) = 0))

/-- TIER 2. FLIT_RECEIVED, REPLAY_REQ, HEARTBEAT_SEND, TIME_SEND and TIME_PACKET (R337, R338, R339, R342, R347, R349). The corrected codewords
are counted. A flit that fails FEC or CRC is dropped, counted, and asked for again; a good payload flit in order is counted, delivered and its
credit returned, one out of order is dropped; credits that arrive move from OUT to AVAIL, none is lost. A packet for another device is forwarded
by a port of its world on a route, held while there is none, or discarded when its source is stale, and counted. A replay sends every flit held
from the number asked for. Time from the parent steps an error above 1 µs and slews a smaller one by at most 50 ppm, locked from the third packet
in a row within 5 ns. -/
def Obligations.FlitsCreditsAndTimePassOverTheLinks : Prop :=
  (∀ (p k : Nat) (bs : List Byte) (fwd : List FwdPacket) (s : State), s.stopped = false → 2 ≤ s.ixState p → s.ixState p ≠ 4 →
    ∃ t, exec (.flitReceived p bs k false fwd) s = .next t ∧
      t = { s with regs := t.regs, out := s.out ++ [.replayRequest p (s.port p).rxSeq] } ∧
      t.reg (Off.ixp p 0x24) = (s.reg (Off.ixp p 0x24) + 1) % 2 ^ 32 ∧ t.reg (Off.ixp p 0x1C) = (s.reg (Off.ixp p 0x1C) + 1) % 2 ^ 32 ∧
      t.reg (Off.ixp p 0x20) = (s.reg (Off.ixp p 0x20) + k) % 2 ^ 32 ∧ SameRegsBut [Off.ixp p 0x20, Off.ixp p 0x24, Off.ixp p 0x1C] s t) ∧
  (∀ (p k : Nat) (bs : List Byte) (fwd : List FwdPacket) (s : State), s.stopped = false → 2 ≤ s.ixState p → s.ixState p ≠ 4 →
    crc64 (bs.take 0xF8) ≠ BitVec.ofNat 64 (fieldAt bs 0xF8 8) →
    ∃ t, exec (.flitReceived p bs k true fwd) s = .next t ∧
      t = { s with regs := t.regs, out := s.out ++ [.replayRequest p (s.port p).rxSeq] } ∧
      t.reg (Off.ixp p 0x28) = (s.reg (Off.ixp p 0x28) + 1) % 2 ^ 32 ∧ t.reg (Off.ixp p 0x1C) = (s.reg (Off.ixp p 0x1C) + 1) % 2 ^ 32 ∧
      t.reg (Off.ixp p 0x20) = (s.reg (Off.ixp p 0x20) + k) % 2 ^ 32 ∧ SameRegsBut [Off.ixp p 0x20, Off.ixp p 0x28, Off.ixp p 0x1C] s t) ∧
  (∀ (p k : Nat) (bs : List Byte) (s : State), s.stopped = false → s.sleep.pkg = .awake → 2 ≤ s.ixState p → s.ixState p ≠ 4 →
    crc64 (bs.take 0xF8) = BitVec.ofNat 64 (fieldAt bs 0xF8 8) →
    ∃ t, exec (.flitReceived p bs k true []) s = .next t ∧ t = { s with regs := t.regs, ix := t.ix, out := t.out } ∧ (t.port p).lastFlit = s.now ∧
      t.reg (Off.ixp p 0x20) = (s.reg (Off.ixp p 0x20) + k) % 2 ^ 32 ∧
      (t.port p).rxSeq = (if Flit.kind bs = 1 ∧ Flit.seq bs = (s.port p).rxSeq then ((s.port p).rxSeq + 1) % 4096 else (s.port p).rxSeq) ∧
      (Flit.kind bs = 1 → Flit.seq bs ≠ (s.port p).rxSeq → t.out = s.out ∧ SameRegsBut [Off.ixp p 0x20] s t) ∧
      (Flit.kind bs = 1 → Flit.seq bs = (s.port p).rxSeq → t.out = s.out ++ [.delivered p (Flit.vl bs) (Flit.payload bs)] ++
        (if s.ixState p = 3 then [.idleFlit p (flitBytes 0 0 (t.port p).txSeq (t.port p).lastSeq
          ((List.range 4).map (fun l => if l = Flit.vl bs then 1 else 0)) [])] else [])) ∧
      (∀ v, v < 4 → (t.reg (Off.cred p v 4) + t.reg (Off.cred p v 8)) % 2 ^ 32 = (s.reg (Off.cred p v 4) + s.reg (Off.cred p v 8)) % 2 ^ 32 ∧
        t.reg (Off.cred p v 0x14) = (s.reg (Off.cred p v 0x14) +
          (if v = Flit.vl bs ∧ Flit.kind bs = 1 ∧ Flit.seq bs = (s.port p).rxSeq then 1 else 0)) % 2 ^ 32 ∧
        t.reg (Off.cred p v 0x18) = (s.reg (Off.cred p v 0x18) +
          (if v = Flit.vl bs ∧ Flit.kind bs = 1 ∧ Flit.seq bs = (s.port p).rxSeq then 1 else 0)) % 2 ^ 32)) ∧
  (∀ (p k : Nat) (bs : List Byte) (f : FwdPacket) (s : State), s.stopped = false → s.sleep.pkg = .awake → p < 16 → 2 ≤ s.ixState p → s.ixState p ≠ 4 →
    crc64 (bs.take 0xF8) = BitVec.ofNat 64 (fieldAt bs 0xF8 8) → Flit.kind bs = 1 → Flit.seq bs = (s.port p).rxSeq →
    ∃ t, exec (.flitReceived p bs k true [f]) s = .next t ∧ t = { s with regs := t.regs, ix := t.ix, out := t.out } ∧
      t.reg (Off.ix 0x20) = (s.reg (Off.ix 0x20) + 1) % 2 ^ 32 ∧
      (s.staleSource f.src f.incarnation = true → t.reg (Off.ix 0x28) = (s.reg (Off.ix 0x28) + 1) % 2 ^ 32 ∧
        t.reg (Off.ix 0x24) = s.reg (Off.ix 0x24) ∧ t.ix.fwdHeld = s.ix.fwdHeld) ∧
      (s.staleSource f.src f.incarnation = false → forwardPorts s f = [] → t.reg (Off.ix 0x2C) = (s.reg (Off.ix 0x2C) + 1) % 2 ^ 32 ∧
        t.reg (Off.ix 0x24) = s.reg (Off.ix 0x24) ∧ t.ix.fwdHeld = s.ix.fwdHeld ++ [f]) ∧
      (s.staleSource f.src f.incarnation = false → forwardPorts s f ≠ [] → t.reg (Off.ix 0x24) = (s.reg (Off.ix 0x24) + 1) % 2 ^ 32 ∧
        t.ix.fwdHeld = s.ix.fwdHeld ∧ ∃ d ∈ forwardPorts s f, Out.forwarded d f.src ∈ t.out)) ∧
  (∀ (p seq : Nat) (s : State), s.stopped = false → (s.port p).replay.any (fun q => decide (q.1 = seq % 4096)) = true →
    ∃ t, exec (.replayReq p seq) s = .next t ∧
      t = { s with regs := t.regs,
                   out := s.out ++ ((s.port p).replay.dropWhile (fun q => decide (q.1 ≠ seq % 4096))).map (fun q => Out.replayed p q.1) } ∧
      t.reg (Off.ixp p 0x1C) = (s.reg (Off.ixp p 0x1C) + 1) % 2 ^ 32 ∧ SameRegsBut [Off.ixp p 0x1C] s t) ∧
  (∀ (p : Nat) (s : State), s.stopped = false → s.ixState p = 3 → s.laneFree p 0 = true →
    ∃ t, exec (.heartbeatSend p) s = .next t ∧ t = { s with regs := t.regs, ix := t.ix, out := s.out ++ [.heartbeat p s.now] } ∧
      (t.port p).lastBeat = s.now ∧ SameRegsBut [Off.cred p 0 4, Off.cred p 0 8] s t) ∧
  (∀ (p : Nat) (s : State), (s.ixState p ≠ 3 ∨ s.laneFree p 0 = false) →
    ∃ t, exec (.heartbeatSend p) s = .next t ∧ t = s) ∧
  (∀ (p : Nat) (s : State), s.stopped = false → s.ixState p = 3 → (s.childPort p && !s.parentPort p) = true → s.laneFree p 0 = true →
    (s.isSub && s.ix.cut) = false →
    ∃ t, exec (.timeSend p) s = .next t ∧ t = { s with regs := t.regs, ix := t.ix, out := s.out ++ [.time p s.now] } ∧
      SameRegsBut [Off.cred p 0 4, Off.cred p 0 8] s t) ∧
  (∀ (p stamp : Nat) (s : State), s.stopped = false → s.ixState p = 3 → s.ix.uplink = some p →
    s.clock.rate ≤ nominalRate + nominalRate / 20000 → nominalRate - nominalRate / 20000 ≤ s.clock.rate →
    ∃ t, exec (.timePacket p stamp) s = .next t ∧ t = { s with regs := t.regs, clock := t.clock, ix := t.ix, free := t.free } ∧
      t.reg (Off.ix 0x14) = twos 32 (s.timeError p stamp / 10) ∧
      (10000 < (s.timeError p stamp).natAbs → t.clock.ns = (((s.clock.ns : Int) + s.timeError p stamp / 10) % 2 ^ 64).toNat ∧
        t.clock.rate = s.clock.rate ∧ t.reg (Off.ms 0x18) = (s.reg (Off.ms 0x18) + 1) % 2 ^ 32) ∧
      ((s.timeError p stamp).natAbs ≤ 10000 → t.clock.ns = s.clock.ns ∧ nominalRate - nominalRate / 20000 ≤ t.clock.rate ∧
        t.clock.rate ≤ nominalRate + nominalRate / 20000 ∧ t.reg (Off.ms 0x18) = s.reg (Off.ms 0x18)) ∧
      (t.regBit (Off.ms 0x10) 2 = true ↔ (s.timeError p stamp).natAbs ≤ 50 ∧ 2 ≤ s.ix.timeGood) ∧
      SameRegsBut [Off.ix 0x10, Off.ix 0x14, Off.ms 0x10, Off.ms 0x18, Off.ms 0x20, Off.ms 0x24] s t)

/-! ### Scrub, the weight window and the scratchpad (R37, R38, R57 to R59, R218, R232) -/

/-- TIER 2. SCRUB_ROW_READ, SCRUB_CORRECTION and MACRO_RELOAD (R56, R57, R58, R59, R67). Scrub reads the next row of a macro with the cells' own
changes in it; its correctable words wait for their correction, which rewrites them, is counted word by word, filed as a corrected error of the
tile's world and ends the wait; a cell that is stuck takes a spare column. Words it cannot correct are counted and mark the macro for reload, or,
outside the active pass, invalid. The last row of the last macro sets MAC_SCRUB_LAST. A reload at a seam writes the macro's 16 KiB anew from the
active image with its checksum and check words, makes it valid (invalid, if the image meets poison) and files MAC_UNVERIFIED with the time of the
last complete pass. The code gives back a word with any one data bit wrong (its matrix is the model's choice, log entry 64). -/
def Obligations.ScrubReadsCorrectsAndReloadsMacros : Prop :=
  (∀ (n m k : Nat) (l : List CellUpset) (s u : State), s.stopped = false → s.upsets n m l = u → u.unbacked n = false → u.macRetired n m = false → (u.tile n).sleep ≠ .nap →
    k ∈ u.scrubbed n → k ≠ m → (u.mac n k).scrubRow < 256 → (u.cellRow n m ((u.mac n m).scrubRow % 256)).badWords = 0 →
    (u.cellRow n m ((u.mac n m).scrubRow % 256)).fixes = [] →
    ∃ t, exec (.scrubRowRead n m l) s = .next t ∧ t = { u with macros := t.macros } ∧ t.mac n m = (u.mac n m).rowRead u.now ∧
      (t.mac n m).scrubRow = (u.mac n m).scrubRow + 1 ∧ (∀ j, j ≠ m → t.mac n j = u.mac n j)) ∧
  (∀ (n m k : Nat) (l : List CellUpset) (s u : State), s.stopped = false → s.upsets n m l = u → u.unbacked n = false → u.macRetired n m = false → (u.tile n).sleep ≠ .nap →
    k ∈ u.scrubbed n → k ≠ m → (u.mac n k).scrubRow < 256 → (u.cellRow n m ((u.mac n m).scrubRow % 256)).badWords = 0 →
    (u.cellRow n m ((u.mac n m).scrubRow % 256)).fixes ≠ [] → (u.mac n m).corr.contains ((u.mac n m).scrubRow % 256) = false →
    ∃ t, exec (.scrubRowRead n m l) s = .next t ∧ t = { u with macros := t.macros } ∧
      t.mac n m = { (u.mac n m).rowRead u.now with corr := (u.mac n m).corr ++ [(u.mac n m).scrubRow % 256] } ∧
      (∀ j, j ≠ m → t.mac n j = u.mac n j)) ∧
  (∀ (n m k : Nat) (l : List CellUpset) (s u : State), s.stopped = false → s.upsets n m l = u → u.unbacked n = false → u.macRetired n m = false → (u.tile n).sleep ≠ .nap →
    k ∈ u.scrubbed n → k ≠ m → (u.mac n k).scrubRow < 256 → m < 64 → (u.cellRow n m ((u.mac n m).scrubRow % 256)).badWords ≠ 0 →
    ∃ t, exec (.scrubRowRead n m l) s = .next t ∧ t = { u with regs := t.regs, macros := t.macros } ∧
      t.reg (Off.tile n 0x210) = (u.reg (Off.tile n 0x210) + (u.cellRow n m ((u.mac n m).scrubRow % 256)).badWords) % 2 ^ 32 ∧
      (t.mac n m).scrubRow = (u.mac n m).scrubRow + 1 ∧
      (u.inActiveUse n = true → (t.mac n m).reload = true ∧ (t.mac n m).scrubStart = (u.mac n m).scrubStart ∧
        SameRegsBut [Off.tile n 0x210] u t) ∧
      (u.inActiveUse n = false → t.macInvalid n m = true ∧ SameRegsBut [Off.tile n 0x210, Off.tile n (0x230 + 4 * (m / 32))] u t)) ∧
  (∀ (n m : Nat) (l : List CellUpset) (s u : State), s.stopped = false → s.upsets n m l = u → u.unbacked n = false → u.macRetired n m = false → m < 64 → (u.tile n).sleep ≠ .nap →
    (u.mac n m).scrubRow = 255 → (∀ k ∈ u.scrubbed n, k ≠ m → 256 ≤ (u.mac n k).scrubRow) → (∀ k ∈ u.scrubbed n, (u.mac n k).passCorr = 0) →
    (u.cellRow n m 255).badWords = 0 →
    ∃ t, exec (.scrubRowRead n m l) s = .next t ∧ t = { u with regs := t.regs, tiles := t.tiles, macros := t.macros } ∧
      t.reg64 (Off.tile n 0x228) = u.now % 2 ^ 64 ∧ (t.mac n m).scrubRow = 0 ∧
      (∀ k ∈ u.scrubbed n, k ≠ m → (t.mac n k).scrubRow = (u.mac n k).scrubRow % 256) ∧
      SameRegsBut [Off.tile n 0x228, Off.tile n 0x22C] u t) ∧
  (∀ (n m : Nat) (s : State), s.stopped = false →
    ∃ t, exec (.scrubCorrection n m) s = .next t ∧ t = { s with regs := t.regs, mem := t.mem, macros := t.macros, errs := t.errs } ∧
      (t.mac n m).corr = [] ∧ (∀ j, j ≠ m → t.mac n j = s.mac n j) ∧ ((s.mac n m).corr = [] → t = s)) ∧
  (∀ (n m r : Nat) (s : State), s.stopped = false → (s.mac n m).corr = [r] → s.stuckIn n m = [] → (s.cellRow n m r).fixes ≠ [] →
    ∃ t, exec (.scrubCorrection n m) s = .next t ∧ t.cellRow n m r = (s.cellRow n m r).corrected ∧
      SameMemOutside (cimBase n + 0x4000 * m + 64 * r) (cimBase n + 0x4000 * m + 64 * r + 64) s t ∧
      (t.mac n m).passCorr = (s.mac n m).passCorr + (s.cellRow n m r).fixes.length ∧ (t.mac n m).spares = (s.mac n m).spares ∧
      t.reg (Off.tile n 0x20C) = (s.reg (Off.tile n 0x20C) + (s.cellRow n m r).fixes.length) % 2 ^ 32 ∧
      (∃ e ∈ (if s.tileSecure n then t.errs.onDieS else t.errs.onDieNs),
        e.reason = .macCorrected ∧ e.kind = 1 ∧ e.index = n ∧ e.detail0 = m ∧ e.time = s.now)) ∧
  (∀ (n m r c : Nat) (u : StuckCell) (s : State), s.stopped = false → (s.mac n m).corr = [r] → s.stuckIn n m = [u] → u.row = r →
    columnOf (s.mac n m).spares u.col = some c → c < 528 → (s.cellRow n m r).fixes ≠ [] → (s.cellRow n m r).corrected.cell c ≠ u.value →
    (s.mac n m).spares.length < 8 → m < 64 →
    ∃ t, exec (.scrubCorrection n m) s = .next t ∧ t.cellRow n m r = (s.cellRow n m r).corrected ∧
      (t.mac n m).spares = (s.mac n m).spares ++ [c] ∧ t.reg (Off.tile n 0x208) = (s.reg (Off.tile n 0x208) + 1) % 2 ^ 32 ∧
      t.regBits (Off.tile n (0x240 + 4 * (m / 8))) (4 * (m % 8)) 4 = (s.mac n m).spares.length + 1 ∧ t.stuck = s.stuck) ∧
  (∀ (n m : Nat) (p : PassInfo) (x : Section) (s : State), s.stopped = false → m < 64 → (s.mac n m).reload = true → s.inActiveUse n = true →
    s.atSeam n = true → s.parkState = 0 → s.activePass = some p → s.weightSection p n = some x →
    (x.host = true ∨ s.noFlips (p.base + x.offset + 0x4000 * m) (min x.length (0x4000 * (m + 1)) - 0x4000 * m) = true) →
    s.imagePoisoned p.base x m = true →
    ∃ t, exec (.macroReload n m) s = .next t ∧ t = { s with regs := t.regs, macros := t.macros, errs := t.errs } ∧
      t.macInvalid n m = true ∧ (t.mac n m).reload = false ∧ (∃ e ∈ (if s.tileSecure n then t.errs.onDieS else t.errs.onDieNs),
        e.reason = .macUnverified ∧ e.kind = 1 ∧ e.index = n ∧ e.detail0 = m ∧ e.detail1 = (s.mac n m).scrubStart)) ∧
  (∀ (n m : Nat) (p : PassInfo) (s : State), s.stopped = false → m < 64 → (s.mac n m).reload = true → s.inActiveUse n = true →
    s.atSeam n = true → s.parkState = 0 → s.activePass = some p → s.weightSection p n = none → s.stuckIn n m = [] →
    ∃ t, exec (.macroReload n m) s = .next t ∧ t.memBytes (cimBase n + 0x4000 * m) 0x4000 = List.replicate 0x4000 0 ∧
      SameMemOutside (cimBase n + 0x4000 * m) (cimBase n + 0x4000 * (m + 1)) s t ∧ (t.mac n m).reload = false ∧ t.macInvalid n m = false) ∧
  (∀ (n m : Nat) (s : State), ((s.mac n m).reload = false ∨ s.inActiveUse n = false ∨ s.atSeam n = false ∨ s.parkState ≠ 0) →
    ∃ t, exec (.macroReload n m) s = .next t ∧ t = s) ∧
  (∀ (n m : Nat) (p : PassInfo) (x : Section) (s : State), s.stopped = false → m < 64 → (s.mac n m).reload = true → s.inActiveUse n = true →
    s.atSeam n = true → s.parkState = 0 → s.activePass = some p → s.weightSection p n = some x →
    (x.host = true ∨ s.noFlips (p.base + x.offset + 0x4000 * m) (min x.length (0x4000 * (m + 1)) - 0x4000 * m) = true) →
    s.imagePoisoned p.base x m = false → s.stuckIn n m = [] →
    ∃ t, exec (.macroReload n m) s = .next t ∧ t = { s with regs := t.regs, mem := t.mem, macros := t.macros, errs := t.errs } ∧
      t.memBytes (cimBase n + 0x4000 * m) 0x4000 = padTo 0x4000 (((s.secBytes p.base x).drop (0x4000 * m)).take 0x4000) ∧
      SameMemOutside (cimBase n + 0x4000 * m) (cimBase n + 0x4000 * (m + 1)) s t ∧ (t.mac n m).reload = false ∧ (t.mac n m).scrubRow = 0 ∧
      t.macInvalid n m = false ∧ (∃ e ∈ (if s.tileSecure n then t.errs.onDieS else t.errs.onDieNs),
        e.reason = .macUnverified ∧ e.kind = 1 ∧ e.index = n ∧ e.detail0 = m ∧ e.detail1 = (s.mac n m).scrubStart) ∧
      (∀ r, r < 256 → t.cellRow n m r = Row.fresh (wBits (s.mac n m).wcode) (s.mac n m).wsigned (t.rowWord n m r))) ∧
  (∀ v i : Nat, v < 2 ^ 64 → i < 64 → checkRead 64 7 (putBit v i (!v.testBit i)) (checkWord 64 7 v) = .fixed v)

/-- TIER 2. WEIGHT_WINDOW_WRITE, WEIGHT_WINDOW_READ and SCRATCHPAD_ACCESS (R37, R38, R68, R218, R232, R388). A secure write of cells of a tile
outside the active pass is stored byte for byte with its rows' checksum and check words, a stuck cell keeping its own value, and the tile counts
as written; inside the active pass it is discarded and counted; a non-secure access is refused and counted, and a read then gives zeros, as do
the rows of an invalid macro. An admitted scratchpad access wakes its tile and stores or returns exactly its bytes; a refused one stores nothing
and ends its request with the refusal's status; a write that covers a weight-staging unit in part corrects and merges it or ends with its error;
a word of bad parity returns nothing; the cycles waited for the bank are counted. An access to a range closed by a region change waits. -/
def Obligations.WindowsOfCellsAndScratchpadsAreChecked : Prop :=
  (∀ (a : Nat) (data : List Byte) (req : Option Nat) (s : State), s.stopped = false → inCimWindow a = true →
    inCimWindow (a + data.length - 1) = true → s.noFlips a data.length = true → (∀ p ∈ linePieces a data.length, s.toll true false true false p.1 p.2 = .admitted) →
    ∃ t, exec (.weightWindowWrite a data true req) s = .next t ∧ t = { s with regs := t.regs, mem := t.mem, tiles := t.tiles, macros := t.macros } ∧
      (s.stuck = [] → t.memBytes a data.length = data ∧ SameMemOutside a (a + data.length) s t ∧
        (∀ p ∈ linePieces a data.length, ∀ n m r : Nat, p.1 / 64 * 64 = cimBase n + 0x4000 * m + 64 * r → m < 64 → r < 256 →
          t.cellRow n m r = Row.fresh (wBits (s.mac n m).wcode) (s.mac n m).wsigned (t.rowWord n m r))) ∧
      SameMemOutside (a / 64 * 64) ((a + data.length + 63) / 64 * 64) s t ∧
      (∀ p ∈ linePieces a data.length, (t.tile ((p.1 - 0x020100000000) / 0x100000)).dirty = true)) ∧
  (∀ (n off i : Nat) (data : List Byte) (q : Request) (s : State), s.stopped = false → n < 1024 → off + data.length ≤ 0x100000 → 0 < data.length →
    s.unbacked n = false → s.inActiveUse n = true → s.req? i = some q → q.phase ≠ .finished →
    ∃ t, exec (.weightWindowWrite (cimBase n + off) data true (some i)) s = .next t ∧ t.mem = s.mem ∧
      t.reg Off.weightWriteRefused = (s.reg Off.weightWriteRefused + 1) % 2 ^ 32 ∧
      t.standing i = some (.finished, .faultPassGeneration, q.pos)) ∧
  (∀ (n off i : Nat) (data : List Byte) (q : Request) (s : State), s.stopped = false → n < 1024 → off + data.length ≤ 0x100000 → 0 < data.length →
    s.req? i = some q → q.phase ≠ .finished →
    ∃ t, exec (.weightWindowWrite (cimBase n + off) data false (some i)) s = .next t ∧ t.mem = s.mem ∧
      t.reg (Off.sec 0x80) = (s.reg (Off.sec 0x80) + 1) % 2 ^ 32 ∧ t.standing i = some (.finished, .faultWorld, q.pos)) ∧
  (∀ (n m off len : Nat) (req : Option Nat) (s : State), s.stopped = false → n < 1024 → m < 64 → off + len ≤ 0x4000 → 0 < len → s.unbacked n = false →
    s.noFlips (cimBase n + 0x4000 * m + off) len = true →
    ∃ t, exec (.weightWindowRead (cimBase n + 0x4000 * m + off) len true req) s = .next t ∧
      t = { s with out := s.out ++ [.windowRead (cimBase n + 0x4000 * m + off)
        (if s.macInvalid n m then List.replicate len 0 else s.memBytes (cimBase n + 0x4000 * m + off) len)] }) ∧
  (∀ (n off len : Nat) (s : State), s.stopped = false → n < 1024 → off + len ≤ 0x100000 → 0 < len →
    ∃ t, exec (.weightWindowRead (cimBase n + off) len false none) s = .next t ∧
      t = { s with regs := t.regs, out := s.out ++ [.windowRead (cimBase n + off) (List.replicate len 0)] } ∧
      t.reg (Off.sec 0x80) = (s.reg (Off.sec 0x80) + 1) % 2 ^ 32 ∧ SameRegsBut [Off.sec 0x80, Off.sec 0x90, Off.sec 0x94] s t) ∧
  (∀ (n off waits : Nat) (data : List Byte) (secure : Bool) (req : Option Nat) (found : List CheckOutcome) (s : State), s.stopped = false → n < 1024 →
    off < 0x200000 → s.toll secure false true false (spBase n + off) data.length = .admitted → s.mergeBad (spBase n + off) data.length = false →
    (((s.tile n).mergeUnits off data.length).zip found).all (fun x => decide (x.2 = .clean)) = true →
    ∃ t, exec (.scratchpadAccess true n off data.length data secure req found waits) s = .next t ∧
      t = { s with regs := t.regs, mem := t.mem, tiles := t.tiles, macros := t.macros } ∧ t.memBytes (spBase n + off) data.length = data ∧
      SameMemOutside (spBase n + off) (spBase n + off + data.length) s t ∧ (t.tile n).sleep = .awake ∧
      (∀ k m, { t.mac k m with tagKey := none } = { s.mac k m with tagKey := none }) ∧
      t.reg (Off.tile n (0x940 + 4 * (off / 0x10000))) = (s.reg (Off.tile n (0x940 + 4 * (off / 0x10000))) + waits) % 2 ^ 32 ∧
      SameRegsBut [Off.ms 0x38, Off.tile n (0x940 + 4 * (off / 0x10000))] s t) ∧
  (∀ (n off waits u : Nat) (data : List Byte) (secure : Bool) (req : Option Nat) (s : State), s.stopped = false → n < 1024 →
    off < 0x200000 → s.toll secure false true false (spBase n + off) data.length = .admitted → s.mergeBad (spBase n + off) data.length = false →
    ((s.tile n).mergeUnits off data.length).head? = some u →
    ∃ t, exec (.scratchpadAccess true n off data.length data secure req [.correctable] waits) s = .next t ∧
      t.memBytes (spBase n + off) data.length = data ∧ SameMemOutside (spBase n + off) (spBase n + off + data.length) s t ∧
      t.reg (Off.tile n 0x910) = (s.reg (Off.tile n 0x910) + 1) % 2 ^ 32 ∧
      (∃ e ∈ (if s.tileSecure n then t.errs.onDieS else t.errs.onDieNs),
        e.reason = .spCorrected ∧ e.kind = 1 ∧ e.index = n ∧ e.detail0 = n ∧ e.detail1 = u / 0x10000)) ∧
  (∀ (n off waits u i : Nat) (data : List Byte) (secure : Bool) (q : Request) (s : State), s.stopped = false → n < 1024 →
    off < 0x200000 → s.req? i = some q → q.phase ≠ .finished → s.toll secure false true false (spBase n + off) data.length = .admitted →
    ((s.tile n).mergeUnits off data.length).head? = some u → (s.tile n).weightClass off = true →
    ∃ t, exec (.scratchpadAccess true n off data.length data secure (some i) [.uncorrectable] waits) s = .next t ∧ t.mem = s.mem ∧
      t.standing i = some (.finished, .faultUncorrected, q.pos) ∧ (∀ k, k < 8 → u + 4 * k ∈ (t.tile n).badUnits) ∧
      t.reg (Off.tile n 0x914) = (s.reg (Off.tile n 0x914) + 1) % 2 ^ 32) ∧
  (∀ (n off len waits : Nat) (secure : Bool) (req : Option Nat) (found : List CheckOutcome) (s : State), s.stopped = false → n < 1024 →
    off < 0x200000 → s.toll secure false false false (spBase n + off) len = .admitted → s.lineBad (spBase n + off) len = false →
    (((s.tile n).checkUnits off len).zip found).all (fun x => decide (x.2 = .clean)) = true →
    ∃ t, exec (.scratchpadAccess false n off len [] secure req found waits) s = .next t ∧
      t = { s with regs := t.regs, tiles := t.tiles, out := s.out ++ [.scratchRead (spBase n + off) (s.memBytes (spBase n + off) len)] } ∧
      (t.tile n).sleep = .awake ∧
      t.reg (Off.tile n (0x940 + 4 * (off / 0x10000))) = (s.reg (Off.tile n (0x940 + 4 * (off / 0x10000))) + waits) % 2 ^ 32 ∧
      SameRegsBut [Off.ms 0x38, Off.tile n (0x940 + 4 * (off / 0x10000))] s t) ∧
  (∀ (n off len i waits : Nat) (secure : Bool) (q : Request) (s : State), s.stopped = false → n < 1024 → off < 0x200000 → s.req? i = some q →
    q.phase ≠ .finished → s.toll secure false false false (spBase n + off) len = .admitted → (s.tile n).weightClass off = false →
    ((s.tile n).checkUnits off len).head? = some (off / 4 * 4) →
    ∃ t, exec (.scratchpadAccess false n off len [] secure (some i) [.uncorrectable] waits) s = .next t ∧ t.mem = s.mem ∧ t.out = s.out ∧
      t.standing i = some (.finished, .faultUncorrected, q.pos) ∧ off / 4 * 4 ∈ (t.tile n).badUnits ∧
      t.reg (Off.tile n 0x90C) = (s.reg (Off.tile n 0x90C) + 1) % 2 ^ 32) ∧
  (∀ (write : Bool) (n off len waits : Nat) (data : List Byte) (secure : Bool) (req : Option Nat) (found : List CheckOutcome) (s : State),
    s.stopped = false → s.toll secure false write false (spBase n + off) len = .wait →
    ∃ t, exec (.scratchpadAccess write n off len data secure req found waits) s = .next t ∧ t = { s with mesh := { s.mesh with accesses := s.mesh.accesses ++
      [{ write := write, tile := n, off := off, len := len, data := data, secure := secure, req := req, found := found }] } }) ∧
  (∀ (write : Bool) (n off len i waits : Nat) (data : List Byte) (secure : Bool) (found : List CheckOutcome) (q : Request) (s : State), s.stopped = false →
    s.req? i = some q → q.phase ≠ .finished → s.toll secure false write false (spBase n + off) len ≠ .admitted →
    s.toll secure false write false (spBase n + off) len ≠ .wait →
    ∃ t, exec (.scratchpadAccess write n off len data secure (some i) found waits) s = .next t ∧ t.mem = s.mem ∧ t.out = s.out ∧
      t.standing i = some (.finished, (s.toll secure false write false (spBase n + off) len).status, q.pos))

/-! ### Signed batches (R333, R334, R428, R429) -/

/-- TIER 2. BATCH_CLOSE and SIGNER_TREE_REBUILT (R333, R334, R428, R429). INTERVAL after the last close, or at 65,536 leaves, a world's open
leaves become its next batch; no leaves, an earlier time, or 16 batches that wait on die, close nothing. With the signer ready the batch takes
the next signature index, which is consumed whether or not the signature verifies, and its record enters the batch ring, UNSIGNED and counted
where it fails; leaves that waited for room join the next batch. Before that the batch waits for the signer; with every epoch burned it goes out
UNSIGNED. -/
def Obligations.BatchesCloseAndTakeTheirSignatures : Prop :=
  (∀ (w : Nat) (s : State), w < 2 → ((s.auditWorld w).openLeaves = [] ∨ 16 ≤ (s.auditWorld w).waiting.length ∨ (s.auditWorld w).openLeaves.length < 65536 ∧
      s.now < (s.auditWorld w).lastClose + (s.auditWorld w).interval * 1000000) →
    ∃ t, exec (.batchClose w) s = .next t ∧ t = s) ∧
  (∀ (w : Nat) (s : State), s.stopped = false → w < 2 → (s.auditWorld w).openLeaves ≠ [] → leavesStay s w = true →
    (65536 ≤ (s.auditWorld w).openLeaves.length ∨ (s.auditWorld w).lastClose + (s.auditWorld w).interval * 1000000 ≤ s.now) →
    s.sec.treeReady = false → s.sec.noEpoch = false → (s.auditWorld w).waiting.length < 16 →
    ∃ t, exec (.batchClose w) s = .next t ∧ t = { s with audit := t.audit, sec := { s.sec with signQueue := s.sec.signQueue ++ [w] } } ∧
      t.auditWorld w = AuditWorld.join { s.auditWorld w with
        openLeaves := [], lastClose := s.now, nextBatch := (s.auditWorld w).nextBatch + 1, interval := s.regBits (Off.dig w 0xC) 0 14,
        waiting := (s.auditWorld w).waiting ++ [s.closingBatch w (decide (65536 ≤ (s.auditWorld w).openLeaves.length))] } ∧
      t.auditWorld (1 - w) = s.auditWorld (1 - w)) ∧
  (∀ (w : Nat) (s : State), s.stopped = false → w < 2 → (s.auditWorld w).openLeaves ≠ [] → leavesStay s w = true → (s.auditWorld w).waiting = [] →
    (65536 ≤ (s.auditWorld w).openLeaves.length ∨ (s.auditWorld w).lastClose + (s.auditWorld w).interval * 1000000 ≤ s.now) →
    s.sec.treeReady = true → s.sec.noEpoch = false → s.sec.sigC < 2 ^ 28 - 2 ^ 16 → s.sec.signQueue = [] → s.link.up = true →
    s.ringOn (.pbat w) = true → s.ringFull (.pbat w) = false →
    ∃ t, exec (.batchClose w) s = .next t ∧
      t = { s with regs := t.regs, host := t.host, link := t.link, rings := t.rings, audit := t.audit, out := t.out,
                   sec := { s.sec with sigC := s.sec.sigC + 1 } } ∧
      t.hostBytes (s.ringSlot (.pbat w)) 8192 = s.batchRecord w
        (s.closingBatch w (decide (65536 ≤ (s.auditWorld w).openLeaves.length)))
        (if Config.signatureFails s.sigIndex then []
         else signWith s.sigIndex (s.batchHead w (s.closingBatch w (decide (65536 ≤ (s.auditWorld w).openLeaves.length))) 5605)) (s.ringPhase (.pbat w)) ∧
      SameHostOutside (s.ringSlot (.pbat w)) (s.ringSlot (.pbat w) + 8192) s t ∧
      t.reg (Off.dig w 0x34) = (s.reg (Off.dig w 0x34) + 1) % 2 ^ 32 ∧ (t.auditWorld w).waiting = [] ∧
      (t.auditWorld w).openLeaves = (AuditWorld.join { s.auditWorld w with openLeaves := [], waiting := [] }).openLeaves ∧
      t.reg (Off.dig w 0x3C) = (s.reg (Off.dig w 0x3C) + (if Config.signatureFails s.sigIndex then 1 else 0)) % 2 ^ 32 ∧
      t.reg (Off.sec 0xC) = (s.reg (Off.sec 0xC) + (if Config.signatureFails s.sigIndex then 1 else 0)) % 2 ^ 32 ∧
      t.reg64 (Off.sec 0x10) = (s.sec.sigEpoch * 2 ^ 28 + (s.sec.sigC + 1)) % 2 ^ 64) ∧
  (∀ (w : Nat) (s : State), s.stopped = false → w < 2 → (s.auditWorld w).openLeaves ≠ [] → leavesStay s w = true → (s.auditWorld w).waiting = [] →
    (65536 ≤ (s.auditWorld w).openLeaves.length ∨ (s.auditWorld w).lastClose + (s.auditWorld w).interval * 1000000 ≤ s.now) →
    s.sec.noEpoch = true → s.sec.sigC < 2 ^ 28 - 2 ^ 16 → s.sec.signQueue = [] → s.link.up = true →
    s.ringOn (.pbat w) = true → s.ringFull (.pbat w) = false →
    ∃ t, exec (.batchClose w) s = .next t ∧ t.sec = s.sec ∧ t.fuses = s.fuses ∧
      t.hostBytes (s.ringSlot (.pbat w)) 8192 = s.batchRecord w
        (s.closingBatch w (decide (65536 ≤ (s.auditWorld w).openLeaves.length))) [] (s.ringPhase (.pbat w)) ∧
      t.reg (Off.dig w 0x3C) = (s.reg (Off.dig w 0x3C) + 1) % 2 ^ 32) ∧
  (∀ s : State, s.stopped = false → s.sec.stage = .booted → s.sec.treeReady = false →
    ∃ t, exec .signerTreeRebuilt s = .next t ∧ t.sec.treeReady = true ∧ t.sec.signQueue = [] ∧
      (s.sec.signQueue = [] → t = { s with sec := { s.sec with treeReady := true } }))

/-! ### The memory stacks (R237, R238, R246 to R249) -/

/-- TIER 2. STACK_READY, STACK_FAILED, PATROL_SCRUB, STACK_TEMP_READ, MEM_PROT_WRITE and MEM_PROT_DONE (R237, R238, R246, R247, R248, R249). A
stack becomes ready or failed; with the last one the usable set is fixed, and where it differs from the set before a warm reset MAP_CHANGED is
set and all HBM content is lost. A later failure is a fatal error in both worlds. Patrol scrub counts a correction, and poisons and files a unit
it cannot correct, a line of a host-coherent unit back-invalidated first. 85 °C halves a stack's refresh interval, 82 °C restores it. An accepted
protection entry reads BUSY until its range is re-encoded, its host-coherent lines back-invalidated and the accesses that waited for it gone on;
one that meets a reserved area or a region of the other world reads VALID clear and is counted. -/
def Obligations.StacksAreFixedScrubbedAndProtected : Prop :=
  (∀ (k j : Nat) (ok : Bool) (s : State), s.stopped = false → k < 24 → j < 24 → j ≠ k → s.sec.stage ≠ .inReset → s.hbm.usableFixed = false →
    s.readyCode 4 k = 0 → s.readyCode 4 j = 0 →
    ∃ t, exec (.stackReady k ok) s = .next t ∧ t.readyCode 4 k = (if ok then 1 else 2) ∧ t.regBit (Off.mem 0xC) k = !ok ∧
      t.readyCode 4 j = 0 ∧ t.hbm = s.hbm ∧ t.mem = s.mem ∧ t.reqs = s.reqs ∧
      (ok = true → s.readyCode 3 (k / 6) = 0 → t.readyCode 3 (k / 6) = 1)) ∧
  (∀ (k : Nat) (ok : Bool) (s : State), s.stopped = false → k < 24 → s.sec.stage ≠ .inReset → s.hbm.usableFixed = false → s.readyCode 4 k = 0 →
    (List.range 24).all (fun j => decide (j = k) || decide (s.readyCode 4 j ≠ 0)) = true →
    ∃ t, exec (.stackReady k ok) s = .next t ∧ t.hbm.usableFixed = true ∧ t.reg (Off.mem 8) = t.readyStacks ∧
      t.stacksU = (setBits 24 t.readyStacks).length ∧
      (t.regBit (Off.mem 4) 8 = true ↔ s.hbm.prevStacks ≠ 0 ∧ s.hbm.prevStacks ≠ t.readyStacks) ∧
      (t.regBit (Off.mem 4) 8 = true → t.hbm.poison = [] ∧ t.passes.slots = [] ∧ ∀ a, placeOf a = .hbm → sget zeroByte t.mem a = 0) ∧
      (t.regBit (Off.mem 4) 8 = false → t.mem = s.mem ∧ t.hbm.poison = s.hbm.poison)) ∧
  (∀ (k : Nat) (s : State), s.stopped = false → k < 24 → s.hbm.usableFixed = true → s.readyCode 4 k = 1 →
    ∃ t, exec (.stackFailed k) s = .next t ∧ t = { s with regs := t.regs, errs := t.errs } ∧ t.readyCode 4 k = 2 ∧
      t.regBit (Off.mem 0xC) k = true ∧
      (∃ e ∈ t.errs.onDieNs, e.reason = .stackFailed ∧ e.reason.cls = 3 ∧ e.kind = 4 ∧ e.index = k ∧ e.time = s.now) ∧
      (∃ e ∈ t.errs.onDieS, e.reason = .stackFailed ∧ e.kind = 4 ∧ e.index = k)) ∧
  (∀ (a : Nat) (found : CheckOutcome) (s : State), s.stopped = false → s.hbm.usableFixed = true → a / 64 * 64 < s.hbmEnd →
    s.sleep.pkg = .awake → (found = .correctable ∧ s.noFlips (a / 64 * 64) 64 = true ∨
      s.hbm.flips.find? (fun f => decide (f.1 = a / 64)) = some (a / 64, false)) →
    ∃ t, exec (.patrolScrub a found) s = .next t ∧ t = { s with regs := t.regs, hbm := t.hbm, out := (s.snoopLine (a / 64 * 64)).out } ∧
      t.hbm.poison = s.hbm.poison ∧ t.noFlips (a / 64 * 64) 64 = true ∧
      t.reg (Off.cway (s.causewayOf (a / 64 * 64)) 0) = (s.reg (Off.cway (s.causewayOf (a / 64 * 64)) 0) + 1) % 2 ^ 32 ∧
      t.reg (Off.hl 0x1C) = (s.snoopLine (a / 64 * 64)).reg (Off.hl 0x1C) ∧
      SameRegsBut [Off.cway (s.causewayOf (a / 64 * 64)) 0, Off.cway (s.causewayOf (a / 64 * 64)) 0xC, Off.hl 0x1C] s t) ∧
  (∀ (a : Nat) (found : CheckOutcome) (s : State), s.stopped = false → s.hbm.usableFixed = true → a / 64 * 64 < s.hbmEnd →
    s.sleep.pkg = .awake → a / 64 ∉ s.hbm.poison → (found = .uncorrectable ∧ s.noFlips (a / 64 * 64) 64 = true ∨
      s.hbm.flips.find? (fun f => decide (f.1 = a / 64)) = some (a / 64, true)) →
    ∃ t, exec (.patrolScrub a found) s = .next t ∧
      t = { s with regs := t.regs, hbm := t.hbm, errs := t.errs, out := (s.snoopLine (a / 64 * 64)).out } ∧
      t.hbm.poison = s.hbm.poison ++ [a / 64] ∧ t.noFlips (a / 64 * 64) 64 = true ∧
      t.reg (Off.cway (s.causewayOf (a / 64 * 64)) 4) = (s.reg (Off.cway (s.causewayOf (a / 64 * 64)) 4) + 1) % 2 ^ 32 ∧
      t.reg (Off.cway (s.causewayOf (a / 64 * 64)) 8) = (s.reg (Off.cway (s.causewayOf (a / 64 * 64)) 8) + 1) % 2 ^ 32 ∧
      (∃ e ∈ t.errs.onDieNs, e.reason = .poisoned ∧ e.reason.cls = 0 ∧ e.address = a / 64 * 64) ∧
      (∃ e ∈ t.errs.onDieS, e.reason = .poisoned ∧ e.address = a / 64 * 64)) ∧
  (∀ (k temp : Nat) (s : State), s.stopped = false → k < 24 → s.readyCode 4 k = 1 →
    ∃ t, exec (.stackTempRead k temp) s = .next t ∧ t = { s with regs := t.regs } ∧
      t.regBits (Off.cway (k / 6) (if k % 6 < 4 then 0x18 else 0x1C)) (8 * (k % 6 % 4)) 8 = min 255 temp ∧
      t.regBit (Off.cway (k / 6) 0x10) (k % 6) =
        (if 85 ≤ temp then true else if temp ≤ 82 then false else s.regBit (Off.cway (k / 6) 0x10) (k % 6)) ∧
      SameRegsBut [Off.cway (k / 6) 0x10, Off.cway (k / 6) 0x18, Off.cway (k / 6) 0x1C] s t) ∧
  (∀ (n : Nat) (v : DWord) (secure : Bool) (s : State), s.stopped = false → s.sleep.pkg = .awake → n < 8 →
    ∃ t, exec (.memProtWrite n v secure) s = .next t ∧ t = { s with regs := t.regs, sleep := t.sleep, holds := t.holds } ∧
      t.sleep = { s.sleep with idleSince := s.now } ∧
      (if v.toNat.testBit 38 && (s.unitsMeetArea (bitsAt v.toNat 0 19) (bitsAt v.toNat 19 19) || s.writtenRegions.any (fun e =>
          (Region.secure e.2 != secure) && unitsMeet (bitsAt v.toNat 0 19) (bitsAt v.toNat 19 19) (Region.base e.2) (Region.size e.2))) then
        t.reg64 (Off.memProt n) = bitsAt v.toNat 0 38 ∧ t.reg (Off.mem 0x10) = (s.reg (Off.mem 0x10) + 1) % 2 ^ 32 ∧
        SameRegsBut [Off.memProt n, Off.memProt n + 4, Off.mem 0x10] s t
       else t.reg64 (Off.memProt n) = bitsAt v.toNat 0 39 + 2 ^ 39 ∧ SameRegsBut [Off.memProt n, Off.memProt n + 4] s t)) ∧
  (∀ (n : Nat) (s : State), s.stopped = false → n < 8 → s.regBit (Off.memProt n + 4) 7 = true → s.link.waiting = [] → s.ix.held = [] →
    (∀ u ∈ s.protUnits n, s.coherentUnit (u * 2 ^ 21) = false) →
    ∃ t, exec (.memProtDone n) s = .next t ∧ t = { s with regs := t.regs } ∧ (t.reg64 (Off.memProt n)).testBit 39 = false ∧
      (∀ i, i ≠ 39 → (t.reg64 (Off.memProt n)).testBit i = (s.reg64 (Off.memProt n)).testBit i) ∧ SameRegsBut [Off.memProt n + 4] s t) ∧
  (∀ (n u i : Nat) (s : State), s.stopped = false → n < 8 → s.regBit (Off.memProt n + 4) 7 = true → s.link.waiting = [] → s.ix.held = [] →
    u ∈ s.protUnits n → s.coherentUnit (u * 2 ^ 21) = true → i < 32768 →
    ∃ t, exec (.memProtDone n) s = .next t ∧ t = { s with regs := t.regs, out := t.out } ∧ t.regBit (Off.memProt n + 4) 7 = false ∧
      Out.backInvalidate (u * 32768 + i) ∈ t.out) ∧
  (∀ (n : Nat) (x : HostAccess) (s : State), s.stopped = false → n < 8 → s.regBit (Off.memProt n + 4) 7 = true → s.link.waiting = [x] → s.ix.held = [] →
    (∀ u ∈ s.protUnits n, s.coherentUnit (u * 2 ^ 21) = false) →
    ∃ t, exec (.memProtDone n) s = .next t ∧
      t = (({ s with link := { s.link with waiting := [] } }).setRegBit (Off.memProt n + 4) 7 false).hostAccess x) ∧
  (∀ (n : Nat) (h : WinHdr) (data : List Byte) (ps : Bool) (s : State), s.stopped = false → n < 8 → s.regBit (Off.memProt n + 4) 7 = true →
    s.link.waiting = [] → s.ix.held = [.write h data ps] → (∀ u ∈ s.protUnits n, s.coherentUnit (u * 2 ^ 21) = false) →
    ∃ t, exec (.memProtDone n) s = .next t ∧
      t = (({ s with ix := { s.ix with held := [] } }).setRegBit (Off.memProt n + 4) 7 false).takeWrite h data ps)

/-! ### The host link (R255 to R257, R262, R265 to R267, R270, R272) -/

/-- TIER 2. LANE_ERROR, MODULE_UP, LINK_RETRAIN, LINK_DOWN, LINK_READY and IDE_FAULT (R255, R256, R257, R270, R272). A lane error, a module that
comes up late and an IDE fault ask for a retrain; a retrain sets the modules that are up, counts itself, the lanes remapped and the flits
replayed, and files MODULE_DOWN for each module lost. The last module down is a fatal error in both worlds. The link is ready with a module up
and CXL.io enumerated, which sets the BARs and the HDM range; what waited for it is then written, and a module that cannot train is filed as
down. -/
def Obligations.TheLinkTrainsRetrainsAndGoesDown : Prop :=
  (∀ (m : Nat) (s : State), s.stopped = false → s.link.up = true → s.hlModules.testBit m = true →
    ∃ t, exec (.laneError m) s = .next t ∧ t = { s with link := t.link, out := s.out ++ [.retrainRequest] } ∧
      t.link = { s.link with laneErrs := s.link.laneErrs ++ [m], retrainWanted := true }) ∧
  (∀ (m rate : Nat) (half : Bool) (s : State), s.stopped = false → (s.sec.stage = .booted ∨ s.sec.stage = .recovery) →
    s.hlModules.testBit m = false → m < 8 →
    ∃ t, exec (.moduleUp m half rate) s = .next t ∧ t = { s with regs := t.regs, link := t.link, out := t.out } ∧
      t.hlModules = s.hlModules + 2 ^ m ∧ t.hlHalves.testBit m = half ∧ t.regBits (Off.hl 0) 16 3 = rate % 8 ∧ SameRegsBut [Off.hl 0] s t ∧
      t.link = { s.link with retrainWanted := s.link.up || s.link.retrainWanted } ∧
      t.out = (if s.link.up then s.out ++ [.retrainRequest] else s.out)) ∧
  (∀ (m h k : Nat) (s : State), s.stopped = false → s.link.up = true → s.link.retrainWanted = true → m ≠ 0 → m &&& s.hlModules = m →
    ∃ t, exec (.linkRetrain m h k) s = .next t ∧ t = { s with regs := t.regs, link := t.link, errs := t.errs } ∧
      t.link = { s.link with laneErrs := [], retrainWanted := false } ∧ t.hlModules = m ∧ t.hlHalves = h &&& m ∧
      t.reg (Off.hl 4) = (s.reg (Off.hl 4) + 1) % 2 ^ 32 ∧ t.reg (Off.hl 0xC) = (s.reg (Off.hl 0xC) + k) % 2 ^ 32 ∧
      t.reg (Off.hl 8) = (s.reg (Off.hl 8) +
        (s.link.laneErrs.filter (fun j => m.testBit j && (!h.testBit j || s.hlHalves.testBit j))).length) % 2 ^ 32 ∧
      (∀ j, j < 8 → s.hlModules.testBit j = true → m.testBit j = false →
        (∃ e ∈ t.errs.onDieNs, e.reason = .moduleDown ∧ e.reason.cls = 2 ∧ e.index = j) ∧
        (∃ e ∈ t.errs.onDieS, e.reason = .moduleDown ∧ e.index = j)) ∧
      ((∀ j, j < 8 → s.hlModules.testBit j = true → m.testBit j = true) → t.errs = s.errs)) ∧
  (∀ s : State, s.stopped = false → s.link.up = true →
    ∃ t, exec .linkDown s = .next t ∧ t = { s with regs := t.regs, link := t.link, errs := t.errs } ∧
      t.link = { s.link with up := false, laneErrs := [], retrainWanted := false } ∧ t.hlModules = 0 ∧ t.readyCode 0 3 = 0 ∧
      (∃ e ∈ t.errs.onDieNs, e.reason = .linkDown ∧ e.reason.cls = 3 ∧ e.time = s.now) ∧ (∃ e ∈ t.errs.onDieS, e.reason = .linkDown)) ∧
  (∀ (m h rate failed : Nat) (partner : DWord) (cfg : Enumeration) (s : State), s.stopped = false → s.link.up = false → m ≠ 0 → m < 256 →
    (s.sec.stage = .booted ∨ s.sec.stage = .recovery) → (∀ r ∈ s.park.onDie, r.ring < 4160 ∧ r.cq < 4160) →
    ∃ t, exec (.linkReady m h rate failed partner cfg) s = .next t ∧ t.link.up = true ∧ t.link.enumerated = true ∧
      t.link.hdmBase = cfg.hdmBase ∧ t.link.funcMask = cfg.funcMask ∧ t.link.cfg.bar0.base = cfg.bar0 ∧ t.link.cfg.bar2.base = cfg.bar2 ∧
      t.link.cfg.bar4.base = cfg.bar4 ∧ t.hlModules = m ∧ t.hlHalves = h &&& m ∧ t.readyCode 0 3 = 1 ∧
      t.reg64 (Off.hl 0x28) = partner.toNat ∧ t.rings.evWait = [] ∧ t.park.onDie = [] ∧ t.mem = s.mem ∧ t.reqs = s.reqs ∧
      (∀ j, j < 8 → failed.testBit j = true → m.testBit j = false →
        (∃ e ∈ t.errs.onDieNs, e.reason = .moduleDown ∧ e.index = j) ∧ (∃ e ∈ t.errs.onDieS, e.reason = .moduleDown ∧ e.index = j))) ∧
  (∀ s : State, s.stopped = false → s.link.up = true → s.regBit (Off.hl 0) 19 = true →
    ∃ t, exec .ideFault s = .next t ∧
      t = { s with regs := t.regs, link := { s.link with retrainWanted := true }, out := s.out ++ [.retrainRequest] } ∧
      t.reg (Off.hl 0x20) = (s.reg (Off.hl 0x20) + 1) % 2 ^ 32 ∧ SameRegsBut [Off.hl 0x20] s t)

/-- TIER 2. HOST_SNOOP, RECORD_WRITE_FAULT, HL_COHERENT_WRITE, COHERENT_CLEAR_DONE, BAR4_ACCESS and CXL_MEM_REQUEST (R262, R265, R266, R267). A
snoop is answered with the line as written. A record write, of any record the host has not consumed, answered with an error loses its bytes, is
counted, and but for an error record filed as RECORD_LOST. Bits of units that hold reserved areas stay clear; units that lose their bit stay
coherent until every line is back-invalidated. BAR4 and CXL.mem reach the same bytes: an admitted write is stored exactly, an admitted read
returns them; a refused one stores nothing, is counted, and is answered Unsupported Request, or zeros with poison; a poisoned unit is answered as
poison; one that meets a range being changed, or the package in Deep, waits for it. -/
def Obligations.HostAccessesReachHbmBehindTheTollCheck : Prop :=
  (∀ (l : Nat) (s : State), s.stopped = false → s.link.up = true →
    ∃ t, exec (.hostSnoop l) s = .next t ∧ t = { s with out := s.out ++ [.snoopAnswer l (s.hostBytes (64 * l) 64)] }) ∧
  (∀ (r : RingId) (back : Nat) (x : RecWrite) (s : State), s.stopped = false →
    (s.link.recWrites.filter (fun y => decide (y.ring = r))).reverse[back]? = some x →
    ∃ t, exec (.recordWriteFault r back) s = .next t ∧ t = { s with regs := t.regs, host := t.host, link := t.link, errs := t.errs } ∧
      t.link = { s.link with recWrites := s.link.recWrites.filter (fun y => decide (y ≠ x)) } ∧
      t.hostBytes x.addr x.old.length = x.old ∧ SameHostOutside x.addr (x.addr + x.old.length) s t ∧
      t.reg (Off.hl 0x30) = (s.reg (Off.hl 0x30) + 1) % 2 ^ 32 ∧
      (ringIsErq r = true → t.errs = s.errs) ∧
      (ringIsErq r = false → r.world < 2 → ∃ e ∈ (if r.world = 0 then t.errs.onDieNs else t.errs.onDieS),
        e.reason = .recordLost ∧ e.detail0 = ringCode r ∧ e.detail1 = x.tail)) ∧
  (∀ (w : Nat) (v : Word) (s : State), s.stopped = false → s.sleep.pkg = .awake →
    ∃ t, exec (.hlCoherentWrite w v) s = .next t ∧ t = { s with regs := t.regs, link := t.link, sleep := { s.sleep with idleSince := s.now } } ∧
      (∀ i, i < 32 → (t.reg (Off.coherent w)).testBit i =
        (v.toNat.testBit i && (s.areaOf ((32 * w + i) * 2 ^ 21)).isNone)) ∧
      (∀ i, i < 32 → (s.reg (Off.coherent w)).testBit i = true → (t.reg (Off.coherent w)).testBit i = false → (32 * w + i) ∈ t.link.cohClearing) ∧
      t.regBit (Off.hl 0x24) 0 = !t.link.cohClearing.isEmpty ∧ SameRegsBut [Off.coherent w, Off.hl 0x24] s t) ∧
  (∀ s : State, s.stopped = false → s.link.cohClearing ≠ [] →
    ∃ t, exec .coherentClearDone s = .next t ∧ t = { s with regs := t.regs, link := { s.link with cohClearing := [] }, out := t.out } ∧
      t.regBit (Off.hl 0x24) 0 = false ∧ t.reg (Off.hl 0x1C) = (s.reg (Off.hl 0x1C) + 32768 * s.link.cohClearing.length) % 2 ^ 32 ∧
      (∀ u ∈ s.link.cohClearing, ∀ i, i < 32768 → Out.backInvalidate (u * 32768 + i) ∈ t.out)) ∧
  (∀ (a : Nat) (data : List Byte) (secure : Bool) (found : CheckOutcome) (s : State), s.stopped = false → s.link.up = true →
    s.sleep.pkg ≠ .deep → LinesOpen s secure true false a data.length →
    ∃ t, exec (.bar4Access true a data.length data secure found) s = .next t ∧
      t = { s with regs := t.regs, mem := t.mem, hbm := t.hbm, sleep := t.sleep } ∧ t.memBytes a data.length = data ∧
      SameMemOutside a (a + data.length) s t ∧ (s.sleep.pkg = .rest → t.sleep.stacksWoken = some s.now)) ∧
  (∀ (a len : Nat) (secure : Bool) (s : State), s.stopped = false → s.link.up = true → s.sleep.pkg ≠ .deep →
    LinesOpen s secure false false a len →
    ∃ t, exec (.bar4Access false a len [] secure .clean) s = .next t ∧
      t = { s with sleep := t.sleep, out := s.out ++ [.bar4Read a (s.memBytes a len)] }) ∧
  (∀ (a len : Nat) (secure : Bool) (s : State), s.stopped = false → s.link.up = true → s.sleep.pkg ≠ .deep →
    s.rangeVerdict secure false a len = none → s.noFlips a len = true → s.poisoned a len ≠ [] →
    ∃ t, exec (.bar4Access false a len [] secure .clean) s = .next t ∧
      t = { s with regs := t.regs, sleep := t.sleep, out := s.out ++ [.bar4Poison a] }) ∧
  (∀ (write : Bool) (a b len : Nat) (v : Verdict) (data : List Byte) (secure : Bool) (found : CheckOutcome) (s : State), s.stopped = false →
    s.link.up = true → s.sleep.pkg ≠ .deep → s.rangeVerdict secure write a len = some (v, b) → v ≠ .wait →
    ∃ t, exec (.bar4Access write a len data secure found) s = .next t ∧
      t = { s with regs := t.regs, sleep := t.sleep, out := if write then s.out else s.out ++ [.bar4Unsupported a] } ∧
      t.reg (Off.hl 0x10) = (s.reg (Off.hl 0x10) + 1) % 2 ^ 32) ∧
  (∀ (a : Nat) (data : List Byte) (found : CheckOutcome) (s : State), s.stopped = false → s.link.up = true →
    s.sleep.pkg ≠ .deep → a + data.length ≤ s.hbmEnd → LinesOpen s false true false a data.length →
    ∃ t, exec (.cxlMemRequest true (s.link.hdmBase + a) data.length data found) s = .next t ∧
      t = { s with regs := t.regs, mem := t.mem, hbm := t.hbm, sleep := t.sleep } ∧ t.memBytes a data.length = data ∧
      SameMemOutside a (a + data.length) s t) ∧
  (∀ (a len : Nat) (s : State), s.stopped = false → s.link.up = true → s.sleep.pkg ≠ .deep → a + len ≤ s.hbmEnd →
    LinesOpen s false false false a len →
    ∃ t, exec (.cxlMemRequest false (s.link.hdmBase + a) len [] .clean) s = .next t ∧
      t = { s with sleep := t.sleep, out := s.out ++ [.cxlRead (s.link.hdmBase + a) (s.memBytes a len) false] }) ∧
  (∀ (write : Bool) (x len b : Nat) (v : Verdict) (data : List Byte) (found : CheckOutcome) (s : State), s.stopped = false →
    s.link.up = true → s.sleep.pkg ≠ .deep → s.rangeVerdict false write ((x + 2 ^ 64 - s.link.hdmBase) % 2 ^ 64) len = some (v, b) → v ≠ .wait →
    ∃ t, exec (.cxlMemRequest write x len data found) s = .next t ∧
      t = { s with regs := t.regs, sleep := t.sleep,
                   out := if write then s.out else s.out ++ [.cxlRead x (List.replicate len 0) true] } ∧
      t.reg (Off.hl 0x10) = (s.reg (Off.hl 0x10) + 1) % 2 ^ 32 ∧
      t.reg (Off.hl 0x18) = (s.reg (Off.hl 0x18) + (if write then 0 else 1)) % 2 ^ 32) ∧
  (∀ (write : Bool) (a b len : Nat) (data : List Byte) (secure : Bool) (found : CheckOutcome) (s : State), s.stopped = false →
    s.link.up = true → ((s.sleep.pkg ≠ .deep ∧ s.rangeVerdict secure write a len = some (.wait, b)) ∨ (s.sleep.pkg = .deep ∧ write = false)) →
    ∃ t, exec (.bar4Access write a len data secure found) s = .next t ∧
      t = { s with sleep := t.sleep, link := { s.link with waiting := s.link.waiting ++
        [{ cxl := false, write := write, door := false, addr := a, len := len, data := data, secure := secure, found := found }] } }) ∧
  (∀ (a : Nat) (data : List Byte) (secure : Bool) (found : CheckOutcome) (s : State), s.stopped = false → s.link.up = true → s.sleep.pkg = .deep →
    ∃ t, exec (.bar4Access true a data.length data secure found) s = .next t ∧
      t = { s with sleep := { s.sleep with idleSince := t.sleep.idleSince, deepWrites := s.sleep.deepWrites ++
        [{ kind := .bar4, addr := a, data := data, secure := secure }] } }) ∧
  (∀ (write : Bool) (x b len : Nat) (data : List Byte) (found : CheckOutcome) (s : State), s.stopped = false →
    s.link.up = true → (s.sleep.pkg = .deep ∨
      s.rangeVerdict false write ((x + 2 ^ 64 - s.link.hdmBase) % 2 ^ 64) len = some (.wait, b)) →
    ∃ t, exec (.cxlMemRequest write x len data found) s = .next t ∧
      t = { s with sleep := t.sleep, link := { s.link with waiting := s.link.waiting ++
        [{ cxl := true, write := write, door := false, addr := x, len := len, data := data, secure := false, found := found }] } })

/-! ### Parking (R313 to R316, R319) -/

/-- TIER 2. PARK, UNPARK, PARK_COMPLETE, PARK_STEP_TIMEOUT and RESUME_FROM_PARK (R313, R314, R315, R316, R319). A secure PARK begins a suspending
park at the time it is made, counts it and notes the cause; a park already begun only gains the cause. It is complete once nothing issued still
runs: each tile's scratchpad then stands in its park record in area 5, where that fits. 20 ms after issuing has stopped (the model's reading:
20.001 ms after the park began) the requests of steps still running end with ABORTED. UNPARK withdraws the request's cause where it is the only
one; the resumption, once every cause is over, brings the scratchpads back from their records and the weights of every tile of the active pass
from its image, and runs again with every request as it was; the words of a record's poisoned unit stand bad in the scratchpad (the model's
choice, log entry 32). -/
def Obligations.ParkSuspendsAndResumesTheWork : Prop :=
  (∀ (v : Word) (s : State), s.stopped = false → s.sleep.pkg = .awake → v.getLsbD 0 = true → s.parkState = 0 → s.parkFits = true →
    ∃ t, exec (.park v true) s = .next t ∧
      t = { s with regs := t.regs, park := { s.park with since := s.now }, pins := t.pins, out := t.out, sleep := { s.sleep with idleSince := s.now } } ∧
      t.parkState = 1 ∧ t.reg (Off.park 4) = 4 ∧ t.reg (Off.park 0xC) = (s.reg (Off.park 0xC) + 1) % 2 ^ 32 ∧
      t.reg64 (Off.park 0x10) = s.now % 2 ^ 64 ∧
      SameRegsBut [Off.park 0, Off.park 4, Off.park 0xC, Off.park 0x10, Off.park 0x14] s t) ∧
  (∀ (v : Word) (s : State), s.stopped = false → s.sleep.pkg = .awake → v.getLsbD 0 = true → s.parkState ≠ 0 →
    ∃ t, exec (.park v true) s = .next t ∧ t = { s with regs := t.regs, sleep := { s.sleep with idleSince := s.now } } ∧
      t.parkCause Cause.request = true ∧ SameRegsBut [Off.park 4] s t) ∧
  (∀ (v : Word) (i : Nat) (q : Request) (s : State), s.stopped = false → s.sleep.pkg = .awake → v.getLsbD 0 = true → s.parkState = 0 →
    s.parkFits = false → s.req? i = some q → q.phase ≠ .finished →
    ∃ t, exec (.park v true) s = .next t ∧ t.parkState = 1 ∧ t.standing i = some (.finished, .aborted, q.pos)) ∧
  (∀ (v : Word) (s : State), s.stopped = false → s.sleep.pkg = .awake → v.getLsbD 1 = true → v.getLsbD 0 = false → s.parkState ≠ 0 →
    s.reg (Off.park 4) = 4 →
    ∃ t, exec (.unpark v true) s = .next t ∧ t = { s with regs := t.regs, sleep := { s.sleep with idleSince := s.now } } ∧
      t.reg (Off.park 4) = 0 ∧ t.parkState = (if s.parkState = 2 then 3 else s.parkState) ∧ SameRegsBut [Off.park 0, Off.park 4] s t) ∧
  (∀ (v : Word) (s : State), s.stopped = false → s.sleep.pkg = .awake → v.getLsbD 1 = true → v.getLsbD 0 = false → s.reg (Off.park 4) ≠ 4 →
    ∃ t, exec (.unpark v true) s = .next t ∧ t = { s with sleep := { s.sleep with idleSince := s.now } }) ∧
  (∀ s : State, s.stopped = false → s.parkState = 1 → s.quiet = true → s.parkFits = false →
    ∃ t, exec .parkComplete s = .next t ∧
      t = { s with regs := t.regs, park := { s.park with records := [], railsIdle := true }, hbm := { s.hbm with ctxCache := [] } } ∧
      t.parkState = 2 ∧ t.reg (Off.park 0x18) = s.openReqs.length % 2 ^ 32 ∧ SameRegsBut [Off.park 0, Off.park 0x18] s t) ∧
  (∀ s : State, s.stopped = false → s.parkState = 1 → s.quiet = true → s.parkFits = true → s.hbm.poison = [] → s.hbm.flips = [] →
    s.areaBase 5 + s.areaSize 5 ≤ 0x00C000000000 → (∀ e ∈ s.tiles, e.1 < 1024) → (∀ e ∈ s.th, e.1 < 16) →
    ∃ t, exec .parkComplete s = .next t ∧
      t = { s with regs := t.regs, mem := t.mem, free := t.free, park := { s.park with records := s.tiles.map (·.1), railsIdle := true },
                   hbm := { s.hbm with ctxCache := [] } } ∧
      (∀ e ∈ s.tiles, t.memBytes (s.tileRecord e.1) spSize = s.memBytes (spBase e.1) spSize) ∧
      SameMemOutside (s.areaBase 5) (s.areaBase 5 + s.areaSize 5) s t ∧
      t.parkState = 2 ∧ t.reg (Off.park 0x18) = s.openReqs.length % 2 ^ 32 ∧ SameRegsBut [Off.park 0, Off.park 0x18] s t) ∧
  (∀ s : State, (s.parkState ≠ 1 ∨ s.quiet = false) → ∃ t, exec .parkComplete s = .next t ∧ t = s) ∧
  (∀ (i : Nat) (q : Request) (s : State), s.stopped = false → s.parkState = 1 → s.park.since + 20001000 ≤ s.now → s.req? i = some q →
    q.phase ≠ .finished →
    ∃ t, exec .parkStepTimeout s = .next t ∧ t.parkState = 1 ∧ t.mem = s.mem ∧
      t.standing i = (if s.stuckReqs.contains i then some (.finished, .aborted, q.pos) else s.standing i)) ∧
  (∀ s : State, s.stopped = false → 2 ≤ s.parkState → s.halted = false → s.causesOver = true → s.activePass = none →
    (∀ n ∈ s.park.records, n < 1024 ∧ s.tileRecord n + spSize ≤ 0x00C000000000 ∧ s.noFlips (s.tileRecord n) spSize = true ∧
      s.poisonIn (s.tileRecord n) spSize = none) →
    ∃ t, exec .resumeFromPark s = .next t ∧
      t = { s with regs := t.regs, mem := t.mem, host := t.host, link := t.link, rings := t.rings, out := t.out,
                   park := { s.park with records := [], railsIdle := false }, sleep := { s.sleep with idleSince := s.now } } ∧ t.parkState = 0 ∧ t.reg (Off.park 4) = 0 ∧
      (∀ n ∈ s.park.records, t.memBytes (spBase n) spSize = s.memBytes (s.tileRecord n) spSize) ∧
      (s.park.records = [] → t.mem = s.mem) ∧ t.readyCode 0 4 = s.readyCode 0 4 ∧ t.readyCode 0 5 = s.readyCode 0 5 ∧
      (s.readyCode 0 4 ≠ 1 → s.readyCode 0 5 ≠ 1 → t = { s with regs := t.regs, mem := t.mem, park := t.park, sleep := t.sleep } ∧
        SameRegsBut [Off.park 0, Off.park 4] s t)) ∧
  (∀ (n : Nat) (s : State), s.stopped = false → 2 ≤ s.parkState → s.halted = false → s.causesOver = true → s.activePass = none →
    s.park.records = [n] → n < 1024 → s.tileRecord n + spSize ≤ 0x00C000000000 → s.noFlips (s.tileRecord n) spSize = true →
    (s.poisonIn (s.tileRecord n) spSize).isSome = true → s.tileRecord n % 64 = 0 →
    ∃ t, exec .resumeFromPark s = .next t ∧ t.parkState = 0 ∧
      (∀ u ∈ s.hbm.poison, s.tileRecord n ≤ 64 * u → 64 * u < s.tileRecord n + spSize →
        s.lineBad (64 * u) 64 = true ∧ t.lineBad (spBase n + (64 * u - s.tileRecord n)) 64 = true)) ∧
  (∀ (n : Nat) (p : PassInfo) (x : Section) (s : State), s.stopped = false → 2 ≤ s.parkState → s.halted = false → s.causesOver = true →
    s.activePass = some p → s.arrayPass = some p → p.tileUse.Nodup → (∀ k ∈ p.tileUse, k < 1024) → n ∈ p.tileUse → s.stuck = [] →
    s.hbm.poison = [] → s.hbm.flips = [] → (∀ k ∈ s.park.records, k < 1024) →
    s.weightSection p n = some x → x.length ≤ 0x100000 → x.host = false → p.base + x.offset + x.length ≤ 0x00C000000000 →
    ∃ t, exec .resumeFromPark s = .next t ∧ t.parkState = 0 ∧ t.reqs = s.reqs ∧ t.passes = s.passes ∧ t.hbm = s.hbm ∧
      t.memBytes (cimBase n) 0x100000 = padTo 0x100000 (s.secBytes p.base x) ∧
      SameMemOutside 0x020000000000 0x020140000000 s t ∧ (∀ m, m < 64 → t.macInvalid n m = false))

/-! ### Power (R362 to R369, R377, R378) -/

/-- TIER 2. GOVERNOR_TICK, RAIL_ARRIVED, PWR_CAP_WRITE, CAP_UNATTAINABLE, VR_ALERT_ASSERT, VR_ALERT_RELEASE, VR_ALERT_HOLD_END and VR_PARK (R362,
R363, R365, R366, R368, R369, R377). The governor's choice maximises f·n/16 within its share, a tie going to the lower point, a withdrawn point
overriding a preference; a fall takes effect at once, a rise once its rail is sure to have arrived; a voltage is asked for as the point changes;
where the lowest point does not fit, at a hard thermal limit and in an episode of an unattainable cap, the floor is in force. While an alert
forces the treads, a tick changes no point. Energy is balanced: what a tick adds to the total it adds to open and unattributed energy. The cap is
380 to 3,000 W, a write below is clamped and posted. An alert forces OP0 at duty 8/16 until 1 ms after the pin rises; beyond 100 ms it is a fatal
error. -/
def Obligations.TheGovernorKeepsTheLimitAndTheEnergyBalance : Prop :=
  (∀ (tr top dyn leak share k n : Nat) (c : Nat × Nat) (s : State), s.chooseOp tr top dyn leak share = some c → k < 8 →
    (k ≤ top ∨ ∀ j, j < k → s.opAvail tr j = false) → s.opAvail tr k = true →
    1 ≤ n → n ≤ 16 → s.predict tr dyn leak k n ≤ share * predictUnit →
    s.predict tr dyn leak c.1 c.2 ≤ share * predictUnit ∧ s.opAvail tr c.1 = true ∧ c.1 ≤ max top k ∧ 1 ≤ c.2 ∧ c.2 ≤ 16 ∧
      opMhz k * n ≤ opMhz c.1 * c.2 ∧ (opMhz k * n = opMhz c.1 * c.2 → c.1 ≤ k)) ∧
  (∀ (g : GovInput) (s : State), s.stopped = false → g.slackLowA = false → g.slackLowB = false → s.power.vrForced = false →
    ∃ t, exec (.governorTick g) s = .next t ∧
      t = { s with regs := t.regs, reqs := t.reqs, power := t.power, pins := t.pins, out := t.out, ix := t.ix } ∧
      t.power.floor = (t.chosen s g).isNone ∧ t.regBit (Off.pwr 8) 19 = t.power.floor ∧
      t.power.wantA = ((t.chosen s g).map (·.1)).getD (0, 1) ∧ t.power.wantB = ((t.chosen s g).map (·.2)).getD (0, 1) ∧
      t.opNow 0 = (if t.power.wantA.1 ≤ (s.opNow 0).1 ∨ s.opReq 0 t.power.wantA.1 ≤ s.sure 0 then t.power.wantA else s.opNow 0) ∧
      t.opNow 1 = (if t.power.wantB.1 ≤ (s.opNow 1).1 ∨ s.opReq 1 t.power.wantB.1 ≤ s.sure 1 then t.power.wantB else s.opNow 1) ∧
      t.regBits (Off.pwr 0x24) 0 10 =
        (if s.power.askedA = some t.power.wantA.1 then s.regBits (Off.pwr 0x24) 0 10 else s.opReq 0 t.power.wantA.1) ∧
      t.regBits (Off.pwr 0x24) 16 10 =
        (if s.power.askedB = some t.power.wantB.1 then s.regBits (Off.pwr 0x24) 16 10 else s.opReq 1 t.power.wantB.1) ∧
      t.power.floorGroup = (if t.power.floor then (s.power.floorGroup + 1) % 64 else s.power.floorGroup)) ∧
  (∀ (g : GovInput) (s : State), s.stopped = false → g.slackLowA = false → g.slackLowB = false → s.power.vrForced = true →
    ∃ t, exec (.governorTick g) s = .next t ∧ t.opNow 0 = s.opNow 0 ∧ t.opNow 1 = s.opNow 1 ∧ t.power.wantA = s.power.wantA ∧
      t.power.wantB = s.power.wantB ∧ t.power.floor = false ∧ t.regBit (Off.pwr 8) 16 = false ∧ t.regBit (Off.pwr 8) 17 = false ∧
      t.reg (Off.pwr 0x24) = s.reg (Off.pwr 0x24)) ∧
  (∀ (g : GovInput) (s : State), s.stopped = false →
    ∃ t, exec (.governorTick g) s = .next t ∧
      (t.reg64 (Off.pwr 0x28) + s.reg64 (Off.pwr 0x38) + s.reg64 (Off.pwr 0x40)) % 2 ^ 64 =
        (s.reg64 (Off.pwr 0x28) + t.reg64 (Off.pwr 0x38) + t.reg64 (Off.pwr 0x40)) % 2 ^ 64 ∧
      t.reg64 (Off.pwr 0x30) = s.reg64 (Off.pwr 0x30) ∧ t.reg (Off.pwr 0x64) = (s.reg (Off.pwr 0x64) + g.stretches) % 2 ^ 32) ∧
  (∀ (tr : Nat) (s : State), s.stopped = false → tr < 2 → s.regBits (Off.pwr 0x24) (16 * tr) 10 ≠ 0 → s.park.railsIdle = false →
    (s.want tr).1 < 8 → 1 ≤ (s.want tr).2 → (s.want tr).2 ≤ 16 →
    ∃ t, exec (.railArrived tr) s = .next t ∧ t = { s with regs := t.regs, pins := t.pins, out := t.out, power := t.power } ∧
      t.power = { s.power with railA := t.power.railA, railB := t.power.railB, sureA := t.power.sureA, sureB := t.power.sureB,
                               askedA := t.power.askedA, askedB := t.power.askedB } ∧
      t.rail tr = s.regBits (Off.pwr 0x24) (16 * tr) 10 ∧ t.rail (1 - tr) = s.rail (1 - tr) ∧
      t.opNow tr = (if s.power.vrForced = false ∧ ((s.want tr).1 ≤ (s.opNow tr).1 ∨
        s.opReq tr (s.want tr).1 ≤ s.regBits (Off.pwr 0x24) (16 * tr) 10) then s.want tr else s.opNow tr) ∧
      t.opNow (1 - tr) = s.opNow (1 - tr)) ∧
  (∀ (v : Word) (s : State), s.stopped = false → s.sleep.pkg = .awake →
    ∃ t, exec (.pwrCapWrite v) s = .next t ∧ t.reg (Off.pwr 0) = clampNat 380 3000 (v.toNat % 4096) ∧ t.mem = s.mem ∧ t.reqs = s.reqs ∧
      t.reg (Off.pwr 0x58) = (s.reg (Off.pwr 0x58) + (if v.toNat % 4096 < 380 ∧ s.parkState ≠ 2 then 1 else 0)) % 2 ^ 32 ∧
      (380 ≤ v.toNat % 4096 → t = { s with regs := t.regs, sleep := { s.sleep with idleSince := s.now } } ∧ SameRegsBut [Off.pwr 0] s t)) ∧
  (∀ (b : Nat) (s : State), s.stopped = false → s.power.overSince = some b → b + 10000000 ≤ s.now →
    ∃ t, exec .capUnattainable s = .next t ∧ t.power.capEpisode = true ∧
      t.reg (Off.pwr 0x58) = (s.reg (Off.pwr 0x58) + (if s.power.capEpisode ∨ s.parkState = 2 then 0 else 1)) % 2 ^ 32) ∧
  (∀ s : State, s.stopped = false → s.msReady = true → (s.power.vrForced = false ∨ s.power.vrHold ≠ none) →
    ∃ t, exec .vrAlertAssert s = .next t ∧ t.pins.vrLow = true ∧ t.power.vrForced = true ∧ t.opNow 0 = (0, 8) ∧ t.opNow 1 = (0, 8) ∧
      t.regBit (Off.pwr 8) 18 = true ∧ t.reg (Off.pwr 0x5C) = (s.reg (Off.pwr 0x5C) + 1) % 2 ^ 32 ∧
      t.power.vrHold = none ∧ t.pins.vrSince = (if s.pins.vrLow then s.pins.vrSince else s.now) ∧
      t.regBits (Off.pwr 0x24) 0 10 = (if s.power.askedA = some 0 then s.regBits (Off.pwr 0x24) 0 10 else s.opReq 0 0) ∧
      t.regBits (Off.pwr 0x24) 16 10 = (if s.power.askedB = some 0 then s.regBits (Off.pwr 0x24) 16 10 else s.opReq 1 0) ∧
      t.mem = s.mem ∧ t.reqs = s.reqs) ∧
  (∀ s : State, s.stopped = false → s.pins.vrLow = true →
    ∃ t, exec .vrAlertRelease s = .next t ∧ t.pins.vrLow = false ∧
      t.power = { s.power with vrHold := if s.power.vrForced then some s.now else s.power.vrHold }) ∧
  (∀ (b : Nat) (s : State), s.stopped = false → s.power.vrHold = some b → b + 1000000 ≤ s.now → s.pins.vrLow = false →
    ∃ t, exec .vrAlertHoldEnd s = .next t ∧
      t = { s with regs := t.regs, power := { s.power with vrForced := false, vrHold := none } } ∧ t.regBit (Off.pwr 8) 18 = false ∧
      SameRegsBut [Off.pwr 8] s t) ∧
  (∀ s : State, s.stopped = false → s.pins.vrLow = true → s.power.vrForced = true → s.pins.vrSince + 100000000 ≤ s.now →
    s.parkCause Cause.vr = false → s.errs.queue.any (fun e => decide (e.reason = .vrPark) && !e.handled) = false →
    ∃ t, exec .vrPark s = .next t ∧ (∃ e ∈ t.errs.onDieNs, e.reason = .vrPark ∧ e.reason.cls = 3 ∧ e.kind = 8 ∧ e.time = s.now) ∧
      (∃ e ∈ t.errs.onDieS, e.reason = .vrPark ∧ e.kind = 8) ∧ t.mem = s.mem ∧ t.reqs = s.reqs)

/-- TIER 2. THERMAL_SENSOR_READ, THERMAL_POWER_OFF, THERMTRIP, RECONCILE, DIVERGENCE_DECLARE, DIVERGENCE_CLEAR, COEFFICIENT_REFIT, TELEM_WRITE,
TELEM_STALE, SYSTEM_POWER_ASSIGN, ASSIGNMENT_RECEIVED and ASSIGNMENT_TIMEOUT (R370, R371, R375, R376, R378). The thermal state moves as Table 4
says, each change posted and counted; 100 ms at the hard limit in the floor asks for power off; a trip is latched and stops the device. r, taken
every 100 ms, is held to 0.8 to 1.2; a divergence that has lasted 5 ms sets DIVERGED and takes RECONCILED from every request in flight, 5 ms of
agreement clear it, a refit needs 1 ms with none in flight; each tick of the governor says since when. Telemetry stands as written, a core rail
10 ms old sets TELEM_STALE. An assignment caps the device, at most at its own cap, until 100 ms pass without one; on a budget too small every
device gets 380 W, and that is posted. Every 10 ms a device reports its P and whether it stood at its limit for half of the time; a manager
assigns by its own beside the others'. -/
def Obligations.TemperatureTelemetryAndAssignmentsAreFollowed : Prop :=
  (∀ (l : List Reading) (s : State), s.stopped = false → l ≠ [] →
    ∃ t, exec (.thermalSensorRead l) s = .next t ∧ t.mem = s.mem ∧ t.reqs = s.reqs ∧ t.power.therm =
      (if s.power.therm = .powerOff then .powerOff
       else if s.power.therm = .hardLimit then (if l.all (fun x => decide (x.temp + 5 ≤ hardOf x)) then .throttled else .hardLimit)
       else if l.any (fun x => decide (hardOf x ≤ x.temp)) then .hardLimit
       else if s.power.therm = .throttled then (if l.all (fun x => decide (x.temp + 2 < s.throttleOf x)) then .normal else .throttled)
       else if l.any (fun x => decide (s.throttleOf x ≤ x.temp)) then .throttled else .normal) ∧
      t.reg (Off.pwr 0x60) = (s.reg (Off.pwr 0x60) + (if t.power.therm = s.power.therm then 0 else 1)) % 2 ^ 32 ∧
      (s.power.therm = .hardLimit → t.power.therm = .throttled → t.power.ceiling = s.power.estimate) ∧
      (s.power.therm = .normal → s.power.thermLast + 1000000 ≤ s.now → t.power.ceiling =
        max s.power.ceiling (min (s.power.ceiling + s.power.ceiling * 25 / 1000) (s.regBits (Off.pwr 0) 0 12))) ∧
      (s.power.therm = .throttled → s.power.thermLast + 1000000 ≤ s.now → t.power.ceiling =
        (if l.any (fun x => decide (s.throttleOf x ≤ x.temp)) then s.power.ceiling - s.power.estimate * 5 / 100 else s.power.ceiling))) ∧
  (∀ s : State, s.stopped = false → s.power.therm = .hardLimit → s.power.floor = true → s.power.hardSince + 100000000 ≤ s.now →
    ∃ t, exec .thermalPowerOff s = .next t ∧ t.power = { s.power with therm := .powerOff } ∧ t.pins.pwrOff = true ∧ 2 ∈ t.pins.ibi ∧
      t.reg (Off.pwr 0x60) = (s.reg (Off.pwr 0x60) + 1) % 2 ^ 32 ∧ t.mem = s.mem ∧ t.reqs = s.reqs) ∧
  (∀ s : State, s.stopped = false →
    ∃ t, exec .thermtrip s = .next t ∧ t = { s with pins := t.pins, clock := { s.clock with fastStopped := true }, out := t.out } ∧
      t.pins.thermtrip = true ∧ t.stopped = true ∧ 3 ∈ t.pins.ibi) ∧
  (∀ s : State, s.stopped = false → s.power.eModel ≠ 0 → s.power.reconSince + 100000000 ≤ s.now →
    ∃ t, exec .reconcile s = .next t ∧
      t = { s with regs := t.regs, power := { s.power with haveR := true, eModel := 0, eMeas := 0, reconSince := s.now } } ∧
      t.regBits (Off.pwr 0x68) 0 17 = clampNat 52428 78643 (s.power.eMeas * 65536 / s.power.eModel) ∧ SameRegsBut [Off.pwr 0x68] s t) ∧
  (∀ (b : Nat) (s : State), s.stopped = false → s.regBit (Off.pwr 8) 14 = false → s.regBit (Off.pwr 8) 15 = false →
    s.power.apartSince = some b → b + 5000000 ≤ s.now →
    ∃ t, exec .divergenceDeclare s = .next t ∧ t.regBit (Off.pwr 8) 14 = true ∧ t.power = { s.power with refitDue := true } ∧
      t.reg (Off.pwr 0x50) = (s.reg (Off.pwr 0x50) + 1) % 2 ^ 32 ∧ t.mem = s.mem ∧
      t.reqs = s.reqs.map (fun e => (e.1, { e.2 with reconciled := false }))) ∧
  (∀ (b : Nat) (s : State), s.stopped = false → s.power.agreeSince = some b → b + 5000000 ≤ s.now →
    ∃ t, exec .divergenceClear s = .next t ∧ t = { s with regs := t.regs } ∧ t.regBit (Off.pwr 8) 14 = false ∧
      SameRegsBut [Off.pwr 8] s t) ∧
  (∀ (g : GovInput) (s : State), s.stopped = false →
    ∃ t, exec (.governorTick g) s = .next t ∧
      (t.power.apartSince = if max t.modelMw t.measMw < 5 * (max t.modelMw t.measMw - min t.modelMw t.measMw)
        then some (s.power.apartSince.getD s.now) else none) ∧
      (t.power.agreeSince = if 10 * (max t.modelMw t.measMw - min t.modelMw t.measMw) ≤ max t.modelMw t.measMw
        then some (s.power.agreeSince.getD s.now) else none) ∧
      t.power.reqIdle = (if s.reqs = [] then some (s.power.reqIdle.getD s.now) else none) ∧
      (s.mapped = true → s.isManager = false → s.power.lastReport + 10000000 ≤ s.now →
        Out.powerReport t.power.estimate t.limitedNow ∈ t.out ∧ t.power.lastReport = s.now)) ∧
  (∀ (b : Nat) (s : State), s.stopped = false → s.power.refitDue = true → s.reqs = [] → s.power.reqIdle = some b → b + 1000000 ≤ s.now →
    ∃ t, exec .coefficientRefit s = .next t ∧ t = { s with regs := t.regs, power := { s.power with coeff := Config.refitCoeff s.power.fits, refitDue := false } } ∧
      t.reg (Off.pwr 0x54) = (s.reg (Off.pwr 0x54) + 1) % 2 ^ 32 ∧ SameRegsBut [Off.pwr 0x54] s t) ∧
  (∀ (k p n : Nat) (s : State), s.stopped = false → s.sleep.pkg = .awake → k < 10 →
    ∃ t, exec (.telemWrite k p n) s = .next t ∧ t = { s with regs := t.regs, power := { s.power with telemTime := t.power.telemTime } } ∧
      t.reg (Off.pwr (0x100 + 4 * k)) = p % 65536 + 2 ^ 16 * (n % 256) ∧ t.railStale k = false ∧
      t.regBit (Off.pwr 8) 15 = (s.regBit (Off.pwr 8) 15 && (t.railStale 0 || t.railStale 1)) ∧
      SameRegsBut [Off.pwr (0x100 + 4 * k), Off.pwr 8] s t) ∧
  (∀ (k : Nat) (s : State), s.stopped = false → k < 2 → s.railStale k = true →
    ∃ t, exec (.telemStale k) s = .next t ∧ t = { s with regs := t.regs, reqs := s.reqs.map (fun e => (e.1, { e.2 with reconciled := false })) } ∧
      t.regBit (Off.pwr 8) 15 = true ∧ SameRegsBut [Off.pwr 8] s t) ∧
  (∀ (l : List (Nat × Nat × Bool)) (s : State), s.stopped = false → s.isManager = true → s.regBits (Off.pwr 0x20) 0 22 ≠ 0 →
    ∃ t, exec (.systemPowerAssign l) s = .next t ∧
      (∀ e ∈ s.assignments (s.heard l), e.1 ≠ s.devNum → Out.assignment e.1 e.2 ∈ t.out) ∧
      (∀ e ∈ s.assignments (s.heard l), e.2 ≤ 3000 ∧ (e.1 = s.devNum → t.capW ≤ e.2)) ∧
      (s.regBits (Off.pwr 0x20) 0 22 < 380 * l.length → s.assignments (s.heard l) = l.map (fun r => (r.1, 380)) ∧
        t.reg (Off.pwr 0x58) = (s.reg (Off.pwr 0x58) + (if s.parkState = 2 then 0 else 1)) % 2 ^ 32) ∧
      (380 * l.length ≤ s.regBits (Off.pwr 0x20) 0 22 → t = { s with regs := t.regs, ix := t.ix, power := t.power, out := t.out } ∧
        ∀ r ∈ s.heard l, r.2.2 = false → (r.1, min 3000 (max 380 (r.2.1 * 105 / 100))) ∈ s.assignments (s.heard l))) ∧
  (∀ (w : Nat) (s : State), s.stopped = false → s.mapped = true →
    ∃ t, exec (.assignmentReceived w) s = .next t ∧ t = { s with regs := t.regs, power := { s.power with lastAssign := s.now } } ∧
      t.capW = min w (min 3000 (s.regBits (Off.pwr 0) 0 12)) ∧ SameRegsBut [Off.pwr 0x1C] s t) ∧
  (∀ s : State, s.stopped = false → s.power.lastAssign + 100000000 ≤ s.now →
    ∃ t, exec .assignmentTimeout s = .next t ∧ t = { s with regs := t.regs } ∧ t.capW = s.regBits (Off.pwr 0) 0 12 ∧
      SameRegsBut [Off.pwr 0x1C] s t)

/-! ### Bring-up, resets and secure boot (R14, R346, R397 to R403, R421, R422, R428, R431, R462 to R464) -/

/-- TIER 2. UNIT_READY, POWER_ON_TEST_BATCH, BRINGUP_SETTLED, SUPPLY_FAULT, PORST, VDD_AON_LOSS, PORST_RELEASE, WARMRST, WARMRST_RELEASE,
SECURE_BOOT_COMPLETE and DOE_REQUEST (R14, R346, R398, R400, R401, R402, R403, R421, R422, R428, R431, R462, R463, R464). A change to ready is
counted and raises READY in both worlds; the Milestone block heeds an alert that stands as it becomes ready. A toe-heel unit that fails is
retired. The batches of the two treads alternate and run at OP7 at full duty, which they ask for; a tested batch gives logical numbers only to
tiles of its tread that passed, up to the quota. Without the minimum service set, settling ends every request but NOP, FENCE and TEST. A rail is
judged once it has arrived. PORST_N leaves only fuses, flash, the host, the faulty cells and what was sent, and breaks an image being written;
WARMRST_N leaves the Milestone block, fuses and HBM (but the contexts of frames it ends), ends every request, leaves absent tile groups absent,
and its release adds 1 to the incarnation's low part. Secure boot runs a valid image, or waits, or fails, as BOOTSRC and the flash say; the first
boot after PORST_N burns the next epoch fuse that is good. The Milestone time of a boot, the SPDM key and the DOE answer are the model's (log
entries 3 and 9). -/
def Obligations.BringUpResetsAndSecureBootFollowTheirTables : Prop :=
  (∀ (k i c : Nat) (s : State), s.stopped = false → (Instr.unitReady k i c).wf = true → (readyPlace k i).isSome = true → (k = 2 ∨ k = 5 → i < 16) →
    (k = 3 → i < 4) → s.readyAllowed k i c = true → s.readyCode k i ≠ c →
    ∃ t, exec (.unitReady k i c) s = .next t ∧ t.readyCode k i = c ∧ t.reg (Off.rdy 0x28) = (s.reg (Off.rdy 0x28) + 1) % 2 ^ 32 ∧
      t.mem = s.mem ∧ (¬(k = 2 ∧ c = 2) → t.reqs = s.reqs ∧ t.errs = s.errs) ∧ (c ≠ 1 → ¬(k = 2 ∧ c = 2) → t = { s with regs := t.regs }) ∧
      (k = 2 → c = 2 → (s.thUnit i).running = none → t = { s with regs := t.regs, errs := t.errs } ∧ t.errs.thRetired = s.errs.thRetired ++ [i] ∧
        t.regBits (Off.th i 0) 0 2 = 3 ∧ ∃ e ∈ (if s.thSecure i then t.errs.onDieS else t.errs.onDieNs),
          e.reason = .thRetired ∧ e.reason.cls = 2 ∧ e.kind = 2 ∧ e.index = i ∧ e.time = s.now) ∧
      (∀ w, w < 2 → c = 1 → t.reg (Off.wrb w 0x18) = (s.reg (Off.wrb w 0x18) + 1 +
        (if k = 0 ∧ i = 1 ∧ s.pins.vrLow = true ∧ ¬(s.power.vrForced = true ∧ s.power.vrHold = none) then 1 else 0)) % 2 ^ 32) ∧
      (k = 0 → i = 1 → c = 1 → s.pins.vrLow = true → t.power.vrForced = true ∧ t.pins.vrSince = s.now)) ∧
  (∀ (tr b : Nat) (failed bad : List Nat) (trim points : Nat) (s : State), s.stopped = false → tr < 2 → s.readyCode 0 (4 + tr) = 1 →
    b = s.batchesDone tr → s.mapped_ tr < s.quota → 64 * b < 544 → s.testTurn tr = true → s.fullDutyBarred [tr] = none → s.opNow tr = (7, 16) →
    ∃ t, exec (.powerOnTestBatch tr b failed bad trim points) s = .next t ∧ t.batchesDone tr = s.batchesDone tr + 1 ∧ t.mapped_ tr ≤ s.quota ∧
      t.batchesDone (1 - tr) = s.batchesDone (1 - tr) ∧ t.mapped_ (1 - tr) = s.mapped_ (1 - tr) ∧
      (∀ e ∈ s.passes.tileMap, e ∈ t.passes.tileMap) ∧
      (∀ e ∈ t.passes.tileMap, e ∈ s.passes.tileMap ∨
        (e.1 / 512 = tr ∧ e.2 / 544 = tr ∧ e.2 % 544 ∉ failed ∧ e.2 % 544 ∉ bad ∧ s.fusedBad e.2 = false ∧
          ∃ p ∈ List.range 64, walkTile (64 * b + p) = e.2 % 544)) ∧
      t.power = { s.power with
        trimSet := if t.treadDone tr = false ∨ s.power.trimSet.contains tr = true then s.power.trimSet else tr :: s.power.trimSet } ∧
      (t.treadDone tr = true → s.power.trimSet.contains tr = false →
        t.trim tr = trim % 32 ∧ ∀ k, k < 8 → t.opAvail tr k = points.testBit k) ∧
      t.mem = s.mem ∧ t.reqs = s.reqs) ∧
  (∀ (tr b : Nat) (failed bad : List Nat) (trim points : Nat) (s : State), s.stopped = false → tr < 2 → s.readyCode 0 (4 + tr) = 1 →
    b = s.batchesDone tr → s.mapped_ tr < s.quota → 64 * b < 544 → s.testTurn tr = true → s.fullDutyBarred [tr] = none →
    (s.opNow tr).1 < 7 → s.sure tr < s.opReq tr 7 →
    ∃ t, exec (.powerOnTestBatch tr b failed bad trim points) s = .next t ∧ t = { s with regs := t.regs, power := t.power, pins := t.pins, out := t.out } ∧
      t.want tr = (7, 16) ∧ t.opNow tr = s.opNow tr ∧
      t.regBits (Off.pwr 0x24) (16 * tr) 10 =
        (if s.asked tr = some 7 then s.regBits (Off.pwr 0x24) (16 * tr) 10 else s.opReq tr 7)) ∧
  (∀ (tr b : Nat) (failed bad : List Nat) (trim points : Nat) (s : State), s.stopped = false → tr < 2 →
    (s.readyCode 0 (4 + tr) ≠ 1 ∨ b ≠ s.batchesDone tr ∨ s.quota ≤ s.mapped_ tr ∨ s.testTurn tr = false ∨ (s.fullDutyBarred [tr]).isSome = true) →
    ∃ t, exec (.powerOnTestBatch tr b failed bad trim points) s = .next t ∧ t = s) ∧
  (∀ s : State, s.stopped = false → s.regBit (Off.rdy 0) 2 = false →
    (readyUnits.filter (fun u => decide (u.1 ≠ 1) && decide (u.1 ≠ 5))).all (fun u => decide (s.readyCode u.1 u.2 ≠ 0)) = true →
    s.treadDone 0 = true → s.treadDone 1 = true → (∀ p, p < 16 → s.ixState p ≠ 1 ∧ s.ixState p ≠ 2) →
    ∃ t, exec .bringupSettled s = .next t ∧ t.regBit (Off.rdy 0) 2 = true ∧ t.mem = s.mem ∧
      (s.regBits (Off.rdy 0) 0 2 = 2 ∨ s.reqs = [] → t = { s with regs := t.regs, sleep := { s.sleep with idleSince := s.now } }) ∧
      (s.regBits (Off.rdy 0) 0 2 ≠ 2 → ∀ e ∈ s.reqs, s.req? e.1 = some e.2 → e.2.phase ≠ .finished →
        t.standing e.1 = if managed e.2.opcode then s.standing e.1 else some (.finished, .faultNotReady, e.2.pos)) ∧
      (∀ g ∈ List.range 64, t.readyCode 1 (16 * g) = if s.readyCode 1 (16 * g) = 0 then 2 else s.readyCode 1 (16 * g)) ∧
      (s.regBits (Off.rdy 0) 0 2 = 2 → t.regBits (Off.rdy 0) 0 2 = 2) ∧
      (s.regBits (Off.rdy 0) 0 2 ≠ 2 → s.serviceSet = false → t.managementOnly = true)) ∧
  (∀ (rail : Nat) (s : State), s.stopped = false → rail < 10 → s.msReady = true → s.railJudged rail = true →
    ∃ t, exec (.supplyFault rail) s = .next t ∧ t = { s with regs := t.regs, errs := t.errs } ∧ t.regBit (Off.ms 0x28) rail = true ∧
      (∃ e ∈ t.errs.onDieNs, e.reason = .supply ∧ e.reason.cls = 3 ∧ e.kind = 8 ∧ e.detail0 = t.reg (Off.ms 0x28) ∧ e.time = s.now) ∧
      (∃ e ∈ t.errs.onDieS, e.reason = .supply ∧ e.kind = 8 ∧ e.detail0 = t.reg (Off.ms 0x28))) ∧
  (∀ (rail : Nat) (s : State), s.stopped = false → (s.msReady = false ∨ s.railJudged rail = false) →
    ∃ t, exec (.supplyFault rail) s = .next t ∧ t = s) ∧
  (∀ s : State,
    ∃ t, exec .porst s = .next t ∧
      t = { State.reset with
        fuses := s.fuses, flash := t.flash, host := s.host, out := s.out, free := t.free, pending := s.pending, stuck := s.stuck
        pins := { State.reset.pins with jtag := s.pins.jtag } } ∧
      t.stopped = true ∧ (s.sec.mbox = [] → t.flash = s.flash ∧ t.free = s.free) ∧
      (∀ m ∈ s.sec.mbox, s.sec.mbox = [m] → m.command = Mb.update → m.result = 0 → t.flashBytes 0 4 = [0xFF, 0xFF, 0xFF, 0xFF])) ∧
  (∀ s : State,
    ∃ t, exec .vddAonLoss s = .next t ∧
      t = { State.reset with fuses := s.fuses, flash := t.flash, host := s.host, out := s.out, free := t.free, pending := s.pending, stuck := s.stuck } ∧
      t.stopped = true ∧ (s.sec.mbox = [] → t.flash = s.flash ∧ t.free = s.free)) ∧
  (∀ (role boot : Nat) (clk held good : Bool) (s : State), s.pins.porstLow = true →
    ∃ t, exec (.porstRelease role boot clk held good) s = .next t ∧
      t = { s with
        regs := t.regs, sec := { s.sec with stage := .beforeBoot }
        pins := { s.pins with porstLow := false, role := role, bootsrc := boot, refIsClock := clk, warmHeld := held, warmLow := held, flashGood := good } } ∧
      t.regBit (Off.ix 0) 0 = decide (role % 2 = 1) ∧ SameRegsBut [Off.ix 0] s t) ∧
  (∀ s : State, s.stopped = false → s.pins.warmLow = false →
    ∃ t, exec .warmrst s = .next t ∧ t.pins = { s.pins with warmLow := true } ∧ t.clock = { s.clock with rate := t.clock.rate } ∧
      (s.ix.uplink = none → t.clock = s.clock) ∧ t.fuses = s.fuses ∧ t.host = s.host ∧
      (s.reqs.all (fun e => e.2.stream.isNone) = true → ∀ a, placeOf a = .hbm → sget zeroByte t.mem a = sget zeroByte s.mem a) ∧
      t.hbm.poison = s.hbm.poison ∧ t.reqs = [] ∧
      t.passes.tileMap = [] ∧ t.link.up = false ∧ t.sec.mbox = [] ∧ t.sec.stage = (if s.sec.stage = .failedBoot then .failedBoot else .inReset) ∧ t.sec.sigEpoch = s.sec.sigEpoch ∧
      t.sec.sigC = s.sec.sigC ∧ t.msReady = s.msReady ∧ t.parkState = 0 ∧
      (∀ u ∈ readyUnits, u ≠ (0, 1) → ¬(u = (0, 2) ∧ s.sec.stage = .failedBoot) → s.readyCode u.1 u.2 ≠ 3 → t.readyCode u.1 u.2 = 0) ∧
      (∀ u ∈ readyUnits, u.1 = 1 → s.readyCode u.1 u.2 = 3 → t.readyCode u.1 u.2 = 3) ∧ (∀ p, p < 16 → t.ixState p = 0) ∧
      t.hbm.usableFixed = false ∧ t.hbm.prevStacks = s.reg (Off.mem 8) ∧ (s.sec.mbox = [] → t.flash = s.flash)) ∧
  (∀ s : State, s.stopped = false → s.pins.warmLow = true →
    ∃ t, exec .warmrstRelease s = .next t ∧
      t = { s with
        pins := { s.pins with warmLow := false, warmHeld := false }
        clock := { s.clock with warmCount := if 2 ^ 20 ≤ s.clock.warmCount + 1 then 0 else s.clock.warmCount + 1 }
        sec := { s.sec with stage := if s.sec.stage = .failedBoot then .failedBoot else .beforeBoot, burned := s.sec.burned && !decide (2 ^ 20 ≤ s.clock.warmCount + 1) } }) ∧
  (∀ (bad : List Nat) (s : State), s.stopped = false → s.pins.warmLow = false → s.sec.stage = .beforeBoot → s.msReady = true →
    ∃ t, exec (.secureBootComplete bad) s = .next t ∧ t.mem = s.mem ∧ t.reqs = s.reqs ∧ t.flash = s.flash ∧
      (if s.pins.flashGood = true ∧ s.pins.bootsrc % 4 ≠ 2 ∧ s.imageValid s.flashImage = true then
        t.sec.stage = .booted ∧ t.readyCode 0 2 = 1 ∧ t.pins.live = true ∧ t.sec.fromRecovery = false ∧
        t.sec.fwDigest = shake256 (Fw.signed s.flashImage) ∧ t.clock.incarnation = t.sec.sigEpoch * 2 ^ 20 + s.clock.warmCount ∧
        t.fuses = { s.fuses with
          svnMin := max s.fuses.svnMin (min 64 (Fw.svn s.flashImage)), epochsBurned := t.fuses.epochsBurned, epochsBad := bad } ∧
        (s.sec.burned = true → t.fuses.epochsBurned = s.fuses.epochsBurned ∧ t.sec.sigC = s.sec.sigC ∧ t.sec.sigEpoch = s.sec.sigEpoch) ∧
        (s.sec.burned = false →
          t.fuses.epochsBurned = ((firstGood bad (4096 - s.fuses.epochsBurned) s.fuses.epochsBurned).map (· + 1)).getD 4096 ∧
          t.sec.noEpoch = decide (4095 ≤ (firstGood bad (4096 - s.fuses.epochsBurned) s.fuses.epochsBurned).getD 4095) ∧
          ∀ k ∈ firstGood bad (4096 - s.fuses.epochsBurned) s.fuses.epochsBurned, t.sec.sigEpoch = k ∧ t.sec.sigC = 0)
       else t.fuses = { s.fuses with epochsBad := bad } ∧
        t.sec = { s.sec with stage := if s.pins.bootsrc % 4 = 0 ∨ s.pins.flashGood = false then .failedBoot else .recovery } ∧
        (s.pins.bootsrc % 4 = 0 ∨ s.pins.flashGood = false → t.readyCode 0 2 = 2)) ∧
      (s.pins.bootsrc % 4 = 3 → ∃ e ∈ t.errs.onDieNs, e.reason = .strap)) ∧
  (∀ (bad : List Nat) (s : State), s.stopped = false → s.pins.warmLow = false → s.sec.stage = .recovery → s.sec.recoverImage ≠ [] →
    ∃ t, exec (.secureBootComplete bad) s = .next t ∧ t.sec.stage = .booted ∧ t.sec.fromRecovery = true ∧ t.readyCode 0 2 = 1 ∧
      t.sec.fwDigest = shake256 (Fw.signed s.sec.recoverImage) ∧ t.sec.recoverImage = [] ∧ t.fuses.svnMin = s.fuses.svnMin ∧
      t.fuses.epochsBad = s.fuses.epochsBad ∧ t.mem = s.mem ∧ t.reqs = s.reqs ∧ t.flash = s.flash) ∧
  (∀ (o : List Byte) (s : State), s.stopped = false → s.sleep.pkg = .awake → s.link.up = true →
    ∃ t, exec (.doeRequest o) s = .next t ∧ t.mem = s.mem ∧ t.reqs = s.reqs ∧ t.flash = s.flash ∧
      (Config.doeInstallsKeys o = true → t.link.ideKeys = true ∧ t.regBit (Off.hl 0) 19 = true) ∧
      ((Config.doeWantsChain o = false ∨ s.signerReady = false) → t.out = s.out ++ [.doe (Config.doeAnswer o s.sec.p384 [])] ∧ t.sec = s.sec ∧ t.fuses = s.fuses) ∧
      (Config.doeWantsChain o = true → s.signerReady = true → s.sec.sigC < 2 ^ 28 - 2 ^ 16 →
        t.sec = { s.sec with sigC := s.sec.sigC + 1 } ∧ t.fuses = s.fuses ∧ t.out.length = s.out.length + 1))

/-! ### The mailboxes (R422 to R425, R427, R430, R432, R437, R451) -/

/-- TIER 2. GET_REPORT, GET_CERT, RECOVER, UPDATE, SETUP_WRITE, TRANSFER, LOG_READ, REPAIR_LIST, REPAIR_COMMIT, RETIRE and MAILBOX_COMMAND_DONE
(R422, R423, R424, R425, R427, R430, R432, R437, R451). A command written to a busy mailbox is ignored and counted. One of a bad form has result
1, one that Table 10 does not allow now 2, one of mailbox 1 from the non-secure world no effect but a tally. A command taken leaves the result
Table 9 gives and the response it asks for: a signed report; the certificate; the world's log; an image verified in full before flash is touched;
a set-up record; a new owner slot with the secure regions and area 6 zeroed; in the maintenance window, both treads at OP7 and full duty, repairs
fused as many as fit, or a unit retired. A request or a buffer that the host answers with an error gives HOST_ERROR. The answer writes the
response to the request's buffer, clears BUSY, sets RESULT; a transfer then performs a warm reset. Form checks of records and of the RETIRE
request, and the moment of the answer, are the model's (log entries 9 and 42). -/
def Obligations.MailboxCommandsRunOneAtATimeAndAnswer : Prop :=
  (∀ (w : Nat) (arg : Word) (secure f : Bool) (x : Nat × Instr) (s : State), s.stopped = false → s.sleep.pkg = .awake → (w = 0 ∨ w = 1 ∧ secure = true) →
    s.regBit (Off.mb w 0x10) 0 = true →
    x ∈ mbCommands w arg secure f → arg.toNat % 256 = x.1 →
    ∃ t, exec x.2 s = .next t ∧ t = { s with regs := t.regs, sleep := { s.sleep with idleSince := s.now } } ∧
      t.reg (Off.mb w 0x18) = (s.reg (Off.mb w 0x18) + 1) % 2 ^ 32 ∧ SameRegsBut [Off.mb w 0x18] s t) ∧
  (∀ (w : Nat) (arg : Word) (secure f : Bool) (x : Nat × Instr) (s : State), s.stopped = false → s.sleep.pkg = .awake → (w = 0 ∨ w = 1 ∧ secure = true) →
    s.regBit (Off.mb w 0x10) 0 = false →
    x ∈ mbCommands w arg secure f → arg.toNat % 256 = x.1 → (s.mbForm w x.1 arg && s.mbAllowed w x.1) = false →
    ∃ t, exec x.2 s = .next t ∧ t.mbBusy w arg = true ∧ s.mbOnly w t = true ∧
      t.mbEntry w = some (if s.mbForm w x.1 arg then 2 else 1, [])) ∧
  (∀ (arg : Word) (f : Bool) (x : Nat × Instr) (s : State), s.stopped = false → s.sleep.pkg = .awake →
    x ∈ mbCommands 1 arg false f → arg.toNat % 256 = x.1 →
    ∃ t, exec x.2 s = .next t ∧ t = { s with regs := t.regs, sleep := { s.sleep with idleSince := s.now } } ∧
      t.reg (Off.sec 0x80) = (s.reg (Off.sec 0x80) + 1) % 2 ^ 32 ∧ SameRegsBut [Off.sec 0x80, Off.sec 0x90, Off.sec 0x94] s t) ∧
  (∀ (w : Nat) (arg : Word) (secure : Bool) (s : State), s.takesMb w Mb.getReport arg secure = true → s.sec.signQueue = [] →
    ∃ t, exec (.getReport w arg secure) s = .next t ∧ t.mbBusy w arg = true ∧ t.flash = s.flash ∧ t.mem = s.mem ∧
      (s.sec.sigC < 2 ^ 28 - 2 ^ 16 → t.fuses = s.fuses) ∧
      (s.sec.noEpoch = true → t.mbEntry w = some (5, []) ∧ t.sec.sigC = s.sec.sigC ∧ t.fuses = s.fuses) ∧
      (s.sec.noEpoch = false → s.sec.treeReady = false → t.mbEntry w = some (0, s.mbRequest w arg) ∧ t.sec.signQueue = [2 + w]) ∧
      (s.signerReady = true → 2 ^ 28 - 2 ^ 16 ≤ s.sec.sigC →
        t.fuses = { s.fuses with epochsBurned := (s.nextFuse.map (· + 1)).getD 4096 } ∧
        t.sec.noEpoch = decide (4095 ≤ s.nextFuse.getD 4095) ∧ (t.sec.noEpoch = true → t.mbEntry w = some (5, [])) ∧
        ∀ k ∈ s.nextFuse, t.sec.sigEpoch = k ∧ t.sec.sigC = (if k < 4095 then 1 else 0)) ∧
      (s.signerReady = true → s.sec.sigC < 2 ^ 28 - 2 ^ 16 → t.sec.sigC = s.sec.sigC + 1 ∧ t.sec.signQueue = [] ∧
        t.reg (Off.sec 0xC) = (s.reg (Off.sec 0xC) + (if Config.signatureFails s.sigIndex then 1 else 0)) % 2 ^ 32 ∧
        t.mbEntry w = some (0, s.report w (s.mbRequest w arg) s.sigIndex ++
          (if Config.signatureFails s.sigIndex then [] else signWith s.sigIndex (s.report w (s.mbRequest w arg) s.sigIndex))))) ∧
  (∀ (w : Nat) (arg : Word) (secure : Bool) (s : State), s.takesMb w Mb.getCert arg secure = true →
    ∃ t, exec (.getCert w arg secure) s = .next t ∧ t.mbBusy w arg = true ∧ s.mbOnly w t = true ∧
      t.mbEntry w = some (0, (s.flashBytes Flash.cert 0x10000).take (min (Config.certSpan (s.flashBytes Flash.cert 0x10000)) 0x10000))) ∧
  (∀ (arg : Word) (s : State), s.takesMb 1 Mb.recover arg true = true →
    ∃ t, exec (.recover 1 arg true) s = .next t ∧ t.mbBusy 1 arg = true ∧ t.flash = s.flash ∧ t.fuses = s.fuses ∧ t.mem = s.mem ∧
      t.mbEntry 1 = some (s.imageResult (s.mbRequest 1 arg), []) ∧
      t.sec.recoverImage = if s.imageResult (s.mbRequest 1 arg) = 0 then s.mbRequest 1 arg else s.sec.recoverImage) ∧
  (∀ (arg : Word) (ok : Bool) (s : State), s.takesMb 1 Mb.update arg true = true →
    ∃ t, exec (.update 1 arg true ok) s = .next t ∧ t.mbBusy 1 arg = true ∧ t.fuses = s.fuses ∧ t.mem = s.mem ∧
      t.mbEntry 1 = some (if s.imageResult (s.mbRequest 1 arg) = 0 then (if ok then 0 else 7) else s.imageResult (s.mbRequest 1 arg), []) ∧
      (s.imageResult (s.mbRequest 1 arg) ≠ 0 → t.flash = s.flash) ∧
      (s.imageResult (s.mbRequest 1 arg) = 0 → ok = true → t.flashBytes 0 (arg.toNat / 256) = s.mbRequest 1 arg) ∧
      (∀ a, 0x200000 ≤ a → sget erasedByte t.flash a = sget erasedByte s.flash a)) ∧
  (∀ (arg : Word) (ok : Bool) (s : State), s.takesMb 1 Mb.setupWrite arg true = true →
    ∃ t, exec (.setupWrite 1 arg true ok) s = .next t ∧ t.mbBusy 1 arg = true ∧ t.fuses = s.fuses ∧ t.mem = s.mem ∧
      t.mbEntry 1 = some (if (s.mbRequest 1 arg).length ≠ Config.setupSpan (s.mbRequest 1 arg) then 1
        else if setupGood s.rulingKey (s.mbRequest 1 arg) then (if ok then 0 else 7) else 3, []) ∧
      (setupGood s.rulingKey (s.mbRequest 1 arg) = false → t.flash = s.flash) ∧
      (setupGood s.rulingKey (s.mbRequest 1 arg) = true → ok = true → t.flashBytes Flash.setup (arg.toNat / 256) = s.mbRequest 1 arg) ∧
      (∀ a, a < Flash.setup ∨ Flash.cert ≤ a → sget erasedByte t.flash a = sget erasedByte s.flash a)) ∧
  (∀ (arg : Word) (s : State), s.takesMb 1 Mb.transfer arg true = true →
    ∃ t, exec (.transfer 1 arg true) s = .next t ∧ t.mbBusy 1 arg = true ∧ t.flash = s.flash ∧
      t.mbEntry 1 = some (if 8 ≤ s.fuses.owners.length then 6 else if s.transferGood (s.mbRequest 1 arg) then 0 else 3, []) ∧
      (s.transferGood (s.mbRequest 1 arg) = true → s.fuses.owners.length < 8 →
        t.fuses = { s.fuses with owners := s.fuses.owners ++ [(s.mbRequest 1 arg).take 32] } ∧
        (∀ e ∈ s.regions, Region.secure e.2 = true → ∀ a, Region.covers e.2 a = true → sget zeroByte t.mem a = 0) ∧
        (∀ a, Region.covers (s.areaBase 6 / 2 ^ 21 + 2 ^ 27 * (s.areaSize 6 / 2 ^ 21)) a = true → sget zeroByte t.mem a = 0) ∧
        (∀ a, (∀ e ∈ s.regions, Region.secure e.2 = true → Region.covers e.2 a = false) →
          Region.covers (s.areaBase 6 / 2 ^ 21 + 2 ^ 27 * (s.areaSize 6 / 2 ^ 21)) a = false → sget zeroByte t.mem a = sget zeroByte s.mem a)) ∧
      (s.transferGood (s.mbRequest 1 arg) = false ∨ 8 ≤ s.fuses.owners.length → t.fuses = s.fuses ∧ t.mem = s.mem)) ∧
  (∀ (w : Nat) (arg : Word) (secure : Bool) (s : State), s.takesMb w Mb.logRead arg secure = true →
    ∃ t, exec (.logRead w arg secure) s = .next t ∧ t.mbBusy w arg = true ∧ s.mbOnly w t = true ∧
      t.mbEntry w = some (0, (if w = 0 then s.errs.onDieNs else s.errs.onDieS).flatMap (fun e => e.bytes false))) ∧
  (∀ (arg : Word) (s : State), s.takesMb 1 Mb.repairList arg true = true →
    ∃ t, exec (.repairList 1 arg true) s = .next t ∧ t.mbBusy 1 arg = true ∧ s.mbOnly 1 t = true ∧
      t.mbEntry 1 = some (0, s.fuses.repairs.flatMap (fun r => r.bytes true) ++ s.errs.repairs.flatMap (fun r => r.bytes false))) ∧
  (∀ (arg : Word) (s : State), s.takesMb 1 Mb.repairCommit arg true = true → s.fullDuty = true →
    ∃ t, exec (.repairCommit 1 arg true true) s = .next t ∧ t.mbBusy 1 arg = true ∧ t.flash = s.flash ∧ t.mem = s.mem ∧
      t.fuses.repairs = s.fuses.repairs ++ s.errs.repairs.take (4096 - s.fuses.repairs.length) ∧
      t.errs.repairs = s.errs.repairs.drop (4096 - s.fuses.repairs.length) ∧
      t.reg (Off.err 0x64) = t.errs.repairs.length % 2 ^ 32 ∧ t.reg (Off.err 0x68) = t.fuses.repairs.length % 2 ^ 32 ∧
      t.mbEntry 1 = some (0, natLe 4 (t.fuses.repairs.length - s.fuses.repairs.length) ++ natLe 4 t.errs.repairs.length ++
        natLe 4 (4096 - t.fuses.repairs.length)) ∧
      (t.errs.repairs ≠ [] → ∃ e ∈ t.errs.onDieNs, e.reason = .fusesFull ∧ e.reason.cls = 0)) ∧
  (∀ (arg : Word) (ok : Bool) (s : State), s.takesMb 1 Mb.repairCommit arg true = true → (ok && s.fullDuty) = false →
    ∃ t, exec (.repairCommit 1 arg true ok) s = .next t ∧ t.mbEntry 1 = some (2, []) ∧ s.mbOnly 1 t = true) ∧
  (∀ (arg : Word) (s : State), s.takesMb 1 Mb.retire arg true = true → s.fullDuty = true →
    ∃ t, exec (.retire 1 arg true true) s = .next t ∧ t.mbBusy 1 arg = true ∧ t.flash = s.flash ∧ t.fuses = s.fuses ∧ t.mem = s.mem ∧
      (∀ n, Config.retireTarget (s.mbRequest 1 arg) = (1, n) → s.present n = true → s.unbacked n = false →
        t.mbEntry 1 = some (0, []) ∧ (t.tile n).retired = true) ∧
      ((s.retireThere (Config.retireTarget (s.mbRequest 1 arg))) = false → t.mbEntry 1 = some (1, []) ∧ s.mbOnly 1 t = true) ∧
      (∀ u, Config.retireTarget (s.mbRequest 1 arg) = (2, u) → u < 16 → t.mbEntry 1 = some (0, []) ∧ u ∈ t.errs.thRetired) ∧
      (∀ e, Config.retireTarget (s.mbRequest 1 arg) = (3, e) → e < 1312 → t.mbEntry 1 = some (0, []) ∧ (Eng.causeway e, Eng.number e) ∈ t.errs.retiredEngines)) ∧
  (∀ (arg : Word) (ok : Bool) (s : State), s.takesMb 1 Mb.retire arg true = true → (ok && s.fullDuty) = false →
    ∃ t, exec (.retire 1 arg true ok) s = .next t ∧ t.mbEntry 1 = some (2, []) ∧ s.mbOnly 1 t = true) ∧
  (∀ (w : Nat) (arg : Word) (secure f : Bool) (x : Nat × Instr) (s : State), s.mbHostBad w arg = true →
    x ∈ mbCommands w arg secure f →
    s.asksMb w x.1 arg secure = true →
    ∃ t, exec x.2 s = .next t ∧ t.mbBusy w arg = true ∧ t.mbEntry w = some (8, []) ∧ s.mbOnly w t = true) ∧
  (∀ (w : Nat) (m : Mailbox) (s : State), s.stopped = false → w < 2 → s.sec.mbox.find? (fun x => decide (x.world = w)) = some m →
    s.sec.signQueue.contains (2 + w) = false → s.link.up = true → (m.command ≠ Mb.transfer ∨ m.result ≠ 0) →
    s.hostStop (ptrAddr m.arg) m.response.length = none →
    ∃ t, exec (.mailboxCommandDone w) s = .next t ∧ t.hostBytes (ptrAddr m.arg) m.response.length = m.response ∧
      SameHostOutside (ptrAddr m.arg) (ptrAddr m.arg + m.response.length) s t ∧ t.regBit (Off.mb w 0x10) 0 = false ∧
      t.regBits (Off.mb w 0x10) 8 8 = m.result % 256 ∧ t.mbEntry w = none ∧ t.mem = s.mem ∧ t.reqs = s.reqs ∧ t.fuses = s.fuses ∧ t.flash = s.flash ∧
      (s.regBits (Off.mb w 0x14) 0 11 = 0x7FF → t.out = s.out) ∧
      (s.regBits (Off.mb w 0x14) 0 11 ≠ 0x7FF → Out.msix (s.regBits (Off.mb w 0x14) 0 11) ∈ t.out ∨
        t.regBit (Off.pba (s.regBits (Off.mb w 0x14) 0 11)) (s.regBits (Off.mb w 0x14) 0 11 % 32) = true)) ∧
  (∀ (w b : Nat) (m : Mailbox) (s : State), s.stopped = false → w < 2 → s.sec.mbox.find? (fun x => decide (x.world = w)) = some m →
    s.sec.signQueue.contains (2 + w) = false → s.link.up = true → (m.command ≠ Mb.transfer ∨ m.result ≠ 0) →
    s.hostStop (ptrAddr m.arg) m.response.length = some b →
    ∃ t, exec (.mailboxCommandDone w) s = .next t ∧ t.host = s.host ∧ t.regBit (Off.mb w 0x10) 0 = false ∧
      t.regBits (Off.mb w 0x10) 8 8 = 8 ∧ t.mbEntry w = none ∧ t.mem = s.mem ∧ t.reqs = s.reqs) ∧
  (∀ (m : Mailbox) (s : State), s.stopped = false → s.sec.mbox.find? (fun x => decide (x.world = 1)) = some m →
    s.sec.signQueue.contains 3 = false → s.link.up = true → m.command = Mb.transfer → m.result = 0 →
    ∃ t, exec (.mailboxCommandDone 1) s = .next t ∧ t.sec.stage = .beforeBoot ∧ t.passes.tileMap = [] ∧ t.reqs = [] ∧ t.link.up = false ∧
      t.clock.warmCount = (if 2 ^ 20 ≤ s.clock.warmCount + 1 then 0 else s.clock.warmCount + 1) ∧ t.pins.warmLow = false ∧ t.fuses = s.fuses)

/-! ### Regions and worlds (R408, R409, R411, R412, R416, R485) -/

/-- TIER 2. REGION_WRITE, REGION_CHANGE_DONE, WORLD_MAP_WRITE and WORLD_CHANGE_APPLY (R409, R412, R416, R485). A region entry that breaks no rule
reads back at once, its old range closed until the change is done; one that breaks a rule, or is changing, is counted and changes nothing. When
the change is done the bytes of an old secure range that no secure entry covers read zero, every other byte stays, and no inbound window stays
open that the table no longer admits. A block whose bit changes is pending until it is idle; then it takes its world, a tile's scratchpad and
cells cleared first (a stuck cell keeps its value). The host accesses, packets and mesh accesses that waited for a change then go on in their
order. The order of changes is the model's (log entry 34). -/
def Obligations.RegionsAndWorldsChangeWithoutLeavingSecureBytes : Prop :=
  (∀ (n : Nat) (v : DWord) (s : State), s.stopped = false → s.sleep.pkg = .awake → n < 1024 → s.sec.change.any (fun c => decide (c.n = n)) = false →
    s.regionRefused n v.toNat = false →
    ∃ t, exec (.regionWrite n v true) s = .next t ∧
      t = { s with regs := t.regs, sec := t.sec, holds := t.holds, sleep := { s.sleep with idleSince := s.now } } ∧
      t.region n = v.toNat ∧ SameRegsBut [Off.region n, Off.region n + 4, Off.sec 0x8C] s t ∧
      t.sec = { s.sec with change := s.sec.change ++
        (if Region.valid (s.region n) || Region.valid v.toNat then
          [{ n := n, old := BitVec.ofNat 64 (s.region n), new := v }] else []) } ∧
      (Region.valid (s.region n) || Region.valid v.toNat → t.regBit (Off.sec 0x8C) 0 = true)) ∧
  (∀ (n : Nat) (v : DWord) (s : State), s.stopped = false → s.sleep.pkg = .awake → n < 1024 →
    (s.sec.change.any (fun c => decide (c.n = n)) || s.regionRefused n v.toNat) = true →
    ∃ t, exec (.regionWrite n v true) s = .next t ∧
      t = { s with regs := t.regs, holds := t.holds, sleep := { s.sleep with idleSince := s.now } } ∧
      t.reg (Off.sec 0x88) = (s.reg (Off.sec 0x88) + 1) % 2 ^ 32 ∧ SameRegsBut [Off.sec 0x88] s t) ∧
  (∀ (c : RegionChange) (l : List RegionChange) (s : State), s.stopped = false → s.sec.change = c :: l → s.link.waiting = [] → s.ix.held = [] →
    s.mesh.accesses = [] →
    ∃ t, exec .regionChangeDone s = .next t ∧ t.sec = { s.sec with change := l } ∧ t.regBit (Off.sec 0x8C) 0 = !l.isEmpty ∧
      (∀ a, Region.covers c.old.toNat a = false → sget zeroByte t.mem a = sget zeroByte s.mem a) ∧
      ((Region.valid c.old.toNat && Region.secure c.old.toNat) = false → t.mem = s.mem) ∧
      ((Region.valid c.old.toNat && Region.secure c.old.toNat) = true → ∀ a, Region.covers c.old.toNat a = true →
        sget zeroByte t.mem a = if (t.regionAt a).any Region.secure then sget zeroByte s.mem a else 0) ∧
      (∀ e ∈ t.ix.inbound, e ∈ s.ix.inbound ∧ t.peerAdmits e.secure e.base e.size = true) ∧ t.reqs = s.reqs ∧ t.host = s.host) ∧
  (∀ (c : RegionChange) (l : List RegionChange) (s u : State), s.stopped = false → s.sec.change = c :: l →
    exec .regionChangeDone { s with link := { s.link with waiting := [] }, ix := { s.ix with held := [] }, mesh := { s.mesh with accesses := [] } } =
      .next u →
    ∃ t, exec .regionChangeDone s = .next t ∧ t = ((s.link.waiting.foldl (fun (y : State) x => y.hostAccess x)
      { u with ix := { u.ix with held := s.ix.held }, mesh := { u.mesh with accesses := s.mesh.accesses } }).goOnPackets).goOnAccesses) ∧
  (∀ (k i : Nat) (v : Word) (s : State), s.stopped = false → s.sleep.pkg = .awake → i < (worldWord k).2 →
    ∃ t, exec (.worldMapWrite k v true) s = .next t ∧
      t = { s with regs := t.regs, sec := { s.sec with wantMap := t.sec.wantMap }, sleep := { s.sleep with idleSince := s.now } } ∧
      t.blockSecure ((worldWord k).1 + i) = s.blockSecure ((worldWord k).1 + i) ∧
      (s.blockSecure ((worldWord k).1 + i) = v.toNat.testBit i →
        t.sec.wantMap.any (fun e => decide (e.1 = (worldWord k).1 + i)) = false ∧
        t.regBit (Off.sec (0x200 + 4 * (((worldWord k).1 + i) / 32))) (((worldWord k).1 + i) % 32) = false) ∧
      (s.blockSecure ((worldWord k).1 + i) ≠ v.toNat.testBit i → s.entryForbids ((worldWord k).1 + i) (v.toNat.testBit i) = false →
        ((worldWord k).1 + i, v.toNat.testBit i) ∈ t.sec.wantMap ∧
        t.regBit (Off.sec (0x200 + 4 * (((worldWord k).1 + i) / 32))) (((worldWord k).1 + i) % 32) = true)) ∧
  (∀ (b : Nat) (w : Bool) (s : State), s.stopped = false → b < 1312 → s.sec.wantMap.find? (fun e => decide (e.1 = b)) = some (b, w) →
    s.blockIdle b = true →
    ∃ t, exec (.worldChangeApply b) s = .next t ∧ t.blockSecure b = w ∧
      t.sec = { s.sec with wantMap := s.sec.wantMap.filter (fun x => decide (x.1 ≠ b)) } ∧
      t.regBit (Off.sec (0x200 + 4 * (b / 32))) (b % 32) = false ∧ (∀ j, j < 1312 → j ≠ b → t.blockSecure j = s.blockSecure j) ∧
      (b < 1024 → (∀ a, spBase b ≤ a → a < spBase b + 0x180000 → sget zeroByte t.mem a = 0) ∧
        (s.stuck = [] → ∀ a, cimBase b ≤ a → a < cimBase b + 0x100000 → sget zeroByte t.mem a = 0) ∧
        (∀ a, placeOf a = .hbm → sget zeroByte t.mem a = sget zeroByte s.mem a)) ∧
      (1024 ≤ b → t = { s with regs := t.regs, sec := t.sec }) ∧ t.reqs = s.reqs)

/-! ### Errors, self-test, moves and TEST (R437 to R450) -/

/-- TIER 2. SW_FAULT (R441). A write of SW_FAULT by either world files in both worlds' logs a device-class record with reason SOFTWARE that
carries the code and the writer's world, kept on die whatever becomes of the queue; it retires nothing and changes nothing else. That the world
stands in DETAIL1 is the model's (log entry 43). -/
def Obligations.SoftwareFaultsAreFiledAndRetireNothing : Prop :=
  ∀ (v : Word) (secure : Bool) (s : State), s.stopped = false → s.sleep.pkg = .awake →
    ∃ t, exec (.swFault v secure) s = .next t ∧ t = { s with regs := t.regs, errs := t.errs, sleep := { s.sleep with idleSince := s.now } } ∧
      (∃ e ∈ t.errs.onDieNs, e ∈ t.errs.queue ++ t.errs.overflow ∧ e.reason = .software ∧ e.reason.cls = 2 ∧ e.detail0 = v.toNat ∧
        e.detail1 = secure.toNat ∧ e.time = s.now) ∧
      (∃ e ∈ t.errs.onDieS, e ∈ t.errs.queue ++ t.errs.overflow ∧ e.reason = .software ∧ e.detail0 = v.toNat ∧ e.detail1 = secure.toNat ∧
        e.time = s.now) ∧
      t.errs.thRetired = s.errs.thRetired ∧ t.errs.retiredEngines = s.errs.retiredEngines ∧ t.errs.repairs = s.errs.repairs

/-- TIER 2. ERROR_HANDLE, LBIST_SLICE, LBIST_RESULT, TILE_MOVE, TEST and MAINTENANCE_WINDOW_TIMEOUT (R438, R439, R442, R443, R444, R445, R446,
R448, R494). The handler takes the oldest record of the highest class and marks it handled; a job or corrected record changes nothing else but
the rings' state; a retired macro or tile has its move due; a fatal record parks, and in a halting park changes nothing else. A unit under test
has its state in its park record. A passed slice counts, the last ends the round and gives its time; a first mismatch is filed with the unit and
the slice, a second retires the unit. A retired tile whose record is handled takes at its seam the first spare that passes, its scratchpad
unchanged and its weights written anew from the image; with none left it is unbacked. A TEST logs one 32-byte entry per unit and advances, a
failed unit is retired; a maintenance kind asks its treads for OP7 at full duty and waits for it. A window that a rail bars ends a TEST that has
not begun with FAULT_NOT_READY and the rail; once it has begun the loss is noted, and 10 ms later ends it with the unit INCONCLUSIVE. An absent
tile that it names ends it too (log entry 66). The place of a repaired unit in the tests' order is the model's (log entry 43). -/
def Obligations.ErrorsAreHandledAndUnitsTestedAndMoved : Prop :=
  (∀ (e : ErrRec) (s : State), s.stopped = false → s.nextError = some e → e.reason.cls < 2 → e ∉ s.errs.overflow →
    ∃ t, exec .errorHandle s = .next t ∧ t = { s with
        regs := t.regs, errs := t.errs, rings := t.rings, host := t.host, link := t.link, out := t.out } ∧
      e ∉ t.errs.queue ∧ e ∉ t.errs.onDieNs ∧ e ∉ t.errs.onDieS ∧ t.errs.handling = s.errs.handling ∧
      (∀ f ∈ s.errs.queue, f.handled = false → f.reason.cls ≤ e.reason.cls)) ∧
  (∀ (e : ErrRec) (s : State), s.stopped = false → s.nextError = some e →
    ((e.reason = .macroRetired ∧ s.regBit (Off.err 0) 0 = false) ∨ (e.reason = .tileRetired ∧ (s.tile e.index).retired = true)) →
    ∃ t, exec .errorHandle s = .next t ∧ (t.tile e.index).retired = true ∧ (t.tile e.index).moveDue = true ∧ t.mem = s.mem ∧ t.reqs = s.reqs) ∧
  (∀ (e : ErrRec) (s : State), s.stopped = false → s.nextError = some e → e.reason.cls = 3 → s.parkState = 0 → s.halted = false →
    ∃ t, exec .errorHandle s = .next t ∧ t.parkState ≠ 0 ∧
      (e.nested = false → e.reason = .vrPark → t.parkCause Cause.vr = true) ∧
      (e.nested = false → e.reason = .linkDown → t.parkCause Cause.link = true)) ∧
  (∀ (e : ErrRec) (s : State), s.stopped = false → s.nextError = some e → e.reason.cls = 3 → s.halted = true → e ∉ s.errs.overflow →
    ∃ t, exec .errorHandle s = .next t ∧ t = { s with
        regs := t.regs, errs := t.errs, rings := t.rings, host := t.host, link := t.link, out := t.out } ∧
      t.reg (Off.park 0) = s.reg (Off.park 0) ∧ t.reg (Off.park 4) = s.reg (Off.park 4) ∧ t.reg (Off.park 0xC) = s.reg (Off.park 0xC) ∧
      e ∉ t.errs.queue) ∧
  (∀ (k i : Nat) (forced : Bool) (s : State), s.stopped = false → (k = 1 ∨ k = 2 ∨ k = 3) → s.unitGone k i = false → s.isTested k i = false →
    s.parkState = 0 → s.sleep.pkg = .awake → s.gapOf k i forced = true →
    ((s.regBit (Off.err 4) 0 && s.testDue k i) || (!forced && s.testAsks k i)) = true →
    ∃ t, exec (.lbistSlice k i forced) s = .next t ∧
      t = { s with regs := t.regs, tiles := t.tiles, errs := t.errs, mem := t.mem, hbm := t.hbm, free := t.free } ∧
      t.errs = { s.errs with underTest := s.errs.underTest ++ [(k, i, false)] } ∧
      (k = 1 → t.tile i = { s.tile i with testing := true, gapLast := (t.tile i).gapLast, forced := (s.tile i).forced || forced } ∧
        (∀ n, n / 16 ≠ i / 16 → t.tile n = s.tile n) ∧
        t.reg (Off.tile i 0xC08) = (s.reg (Off.tile i 0xC08) + (if forced && !(s.tile i).forced then 1 else 0)) % 2 ^ 32) ∧
      (k ≠ 1 → t.tiles = s.tiles) ∧ (s.parkFits = false ∨ k = 3 → t.mem = s.mem ∧ t.hbm = s.hbm ∧ SameRegsBut [Off.tile i 0xC08] s t) ∧
      (s.parkFits = true → k = 1 → i < 1024 → s.tileRecord i + 2 ^ 22 ≤ 0x00C000000000 →
        t.memBytes (s.tileRecord i) spSize = s.memBytes (spBase i) spSize ∧ SameMemOutside (s.tileRecord i) (s.tileRecord i + 2 ^ 22) s t)) ∧
  (∀ (k i : Nat) (b : Bool) (s : State), s.stopped = false → (k = 1 ∨ k = 2 ∨ k = 3) →
    s.errs.underTest.find? (fun x => decide (x.1 = k) && decide (x.2.1 = i)) = some (k, i, b) →
    ∃ t, exec (.lbistResult k i true) s = .next t ∧ t = { s with regs := t.regs, tiles := t.tiles, th := t.th, errs := t.errs } ∧
      t.isTested k i = false ∧
      t.slicesOfUnit k i = (if sliceCount k ≤ s.slicesOfUnit k i + 1 then 0 else s.slicesOfUnit k i + 1) ∧
      (sliceCount k ≤ s.slicesOfUnit k i + 1 → s.now < 2 ^ 64 → t.testedAt k i = s.now) ∧
      (s.slicesOfUnit k i + 1 < sliceCount k → t.testedAt k i = s.testedAt k i) ∧
      (k = 1 → t.reg (Off.tile i 0xC00) = (s.reg (Off.tile i 0xC00) + 1) % 2 ^ 32 ∧ (t.tile i).testing = false)) ∧
  (∀ (k i : Nat) (s : State), s.stopped = false → (k = 1 ∨ k = 2 ∨ k = 3) →
    s.errs.underTest.find? (fun x => decide (x.1 = k) && decide (x.2.1 = i)) = some (k, i, false) →
    ∃ t, exec (.lbistResult k i false) s = .next t ∧ t = { s with regs := t.regs, errs := t.errs } ∧ (k, i, true) ∈ t.errs.underTest ∧
      (k = 1 → t.reg (Off.tile i 0xC04) = (s.reg (Off.tile i 0xC04) + 1) % 2 ^ 32) ∧
      (∀ w ∈ s.unitWorlds k i, ∃ e ∈ (if w = 1 then t.errs.onDieS else t.errs.onDieNs), e.reason = .lbistRetry ∧ e.reason.cls = 0 ∧
        e.kind = k ∧ e.index = (if k = 3 then Eng.causeway i else i) ∧ e.detail0 = (if k = 3 then Eng.number i else i) ∧
        e.detail1 = s.slicesOfUnit k i ∧ e.time = s.now)) ∧
  (∀ (k i : Nat) (s : State), s.stopped = false → (k = 1 ∨ k = 2 ∨ k = 3) →
    s.errs.underTest.find? (fun x => decide (x.1 = k) && decide (x.2.1 = i)) = some (k, i, true) →
    ∃ t, exec (.lbistResult k i false) s = .next t ∧ t.isTested k i = false ∧ t.mem = s.mem ∧
      t.reg (Off.err 0x6C) = (s.reg (Off.err 0x6C) + 1) % 2 ^ 32 ∧ t.unitGone k i = true) ∧
  (∀ (n p : Nat) (checks : List Bool) (bad : List Nat) (s : State), s.stopped = false → s.unbacked n = false → (s.tile n).retired = true →
    (s.tile n).moveDue = true → s.atSeam n = true → s.parkState = 0 →
    pickSpare (fun m => decide (s.phys (n / 512) m = .untested)) (s.spares (n / 512)) checks = some (bad, some p) →
    ∃ t, exec (.tileMove n checks) s = .next t ∧ tget t.passes.tileMap n = some (544 * (n / 512) + p) ∧ (t.tile n).retired = false ∧ (t.tile n).moveDue = false ∧
      SameMemOutside (cimBase n) (cimBase n + 0x100000) s t ∧
      (s.arrayPass = none → s.stuck = [] → ∀ a, cimBase n ≤ a → a < cimBase n + 0x100000 → sget zeroByte t.mem a = 0) ∧
      (∀ (x : PassInfo) (y : Section), s.arrayPass = some x → x.tileUse.contains n = true → s.weightSection x n = some y →
        y.length ≤ 0x100000 → (y.host = true ∨ x.base + y.offset + y.length ≤ 0x00C000000000) → s.stuck = [] →
        t.memBytes (cimBase n) 0x100000 = padTo 0x100000 (s.secBytes x.base y)) ∧
      t.reqs = s.reqs ∧ t.reg (Off.err 0x5C) = (s.reg (Off.err 0x5C) + 1) % 2 ^ 32 ∧
      (∀ j, j ≠ n → tget t.passes.tileMap j = tget s.passes.tileMap j)) ∧
  (∀ (n : Nat) (checks : List Bool) (bad : List Nat) (s : State), s.stopped = false → s.unbacked n = false → (s.tile n).retired = true →
    (s.tile n).moveDue = true → s.atSeam n = true → s.parkState = 0 → n < 1024 →
    pickSpare (fun m => decide (s.phys (n / 512) m = .untested)) (s.spares (n / 512)) checks = some (bad, none) →
    ∃ t, exec (.tileMove n checks) s = .next t ∧ t.mem = s.mem ∧ t.readyCode 1 n = 2 ∧
      (∀ j, j ≠ n → tget t.passes.tileMap j = tget s.passes.tileMap j) ∧ n ∉ t.passes.tileMap.map (·.1)) ∧
  (∀ (n : Nat) (checks : List Bool) (s : State), s.stopped = false → ((s.tile n).retired && (s.tile n).moveDue) = false →
    ∃ t, exec (.tileMove n checks) s = .next t ∧ t = s) ∧
  (∀ (i ptr : Nat) (u : Nat × Nat) (r : UnitResult) (window : Option Nat) (q : Request) (s : State), s.stopped = false → s.req? i = some q →
    q.opcode = Dop.test → (s.mayStart q || s.goesOn q) = true → q.mileposts = false → s.regWrites = [] →
    (q.phase = .accepted → (q.fld 8 1 = 0 ∨ q.fld 8 1 = 3) → q.fld 0xC 4 ≠ 0xFFFFFFFF → s.absentUnit (1, q.fld 0xC 4) = false) →
    ((q.fld 8 1 = 3 ∨ q.fld 8 1 = 5) → s.windowRail i q window = none ∧ (∀ tr ∈ q.maintTreads, s.opNow tr = (7, 16)) ∧
      (∀ x ∈ q.lost, s.now ≤ x.1 + 10000000)) →
    (q.units.drop q.pos).head? = some u → r.index = u.2 → r.result ≠ 3 → (q.fld 8 1 = 3 → s.inActiveUse u.2 = false ∨ s.atSeam u.2 = true) →
    (q.fld 8 1 ≤ 2 → (s.resultOf q u r).result ≠ 4 → (s.gapOf u.1 u.2 false || s.gapOf u.1 u.2 true) = true) → q.fld 0x10 8 = ptr →
    (ptr = 0 ∨ LinesOpen s q.secure true false (ptr + 32 * q.pos) 32) →
    ∃ t, exec (.test i [r] window) s = .next t ∧
      t.standing i = (if q.total ≤ q.pos + 1 then some (.finished, .ok, q.pos + 1) else some (.running, q.status, q.pos + 1)) ∧
      (ptr ≠ 0 → t.memBytes (ptr + 32 * q.pos) 32 = s.logEntry u (s.resultOf q u r)) ∧
      ((s.resultOf q u r).result = 2 → q.fld 8 1 ≠ 4 → t.reg (Off.err 0x6C) = (s.reg (Off.err 0x6C) + 1) % 2 ^ 32 ∧
        (q.fld 8 1 ≠ 5 → t.unitGone u.1 u.2 = true)) ∧
      (∀ a, placeOf a = .hbm → (ptr = 0 ∨ a < ptr + 32 * q.pos ∨ ptr + 32 * q.pos + 32 ≤ a) → sget zeroByte t.mem a = sget zeroByte s.mem a)) ∧
  (∀ (i rail : Nat) (l : List UnitResult) (window : Option Nat) (q : Request) (s : State), s.stopped = false → s.regWrites = [] →
    s.req? i = some q → q.opcode = Dop.test → s.mayStart q = true → (q.fld 8 1 = 3 ∨ q.fld 8 1 = 5) →
    (q.fld 8 1 = 3 → q.fld 0xC 4 ≠ 0xFFFFFFFF → s.absentUnit (1, q.fld 0xC 4) = false) → s.windowRail i q window = some rail →
    ∃ t, exec (.test i l window) s = .next t ∧ t.standing i = some (.finished, .faultNotReady, q.pos) ∧ t.mem = s.mem ∧
      (∃ e ∈ (if q.secure then t.errs.onDieS else t.errs.onDieNs), e.reason = .testWindow ∧ e.kind = 8 ∧ e.index = rail ∧ e.detail0 = rail ∧
        e.detail1 = (s.opNow (q.railTread rail)).1 ∧ e.tag = q.tag)) ∧
  (∀ (i rail : Nat) (l : List UnitResult) (window : Option Nat) (q : Request) (s : State), s.stopped = false → s.regWrites = [] →
    s.req? i = some q → q.opcode = Dop.test → s.goesOn q = true → (q.fld 8 1 = 3 ∨ q.fld 8 1 = 5) → s.windowRail i q window = some rail →
    q.pos < q.total →
    ∃ t, exec (.test i l window) s = .next t ∧ t = { s with reqs := t.reqs } ∧ (∀ k, k ≠ i → t.req? k = s.req? k) ∧
      t.req? i = some { q with lost := some (q.lost.getD (s.now, rail)) }) ∧
  (∀ (i : Nat) (l : List UnitResult) (window : Option Nat) (q : Request) (s : State), s.stopped = false → s.regWrites = [] →
    s.req? i = some q → q.opcode = Dop.test → (s.mayStart q || s.goesOn q) = true → (q.fld 8 1 = 3 ∨ q.fld 8 1 = 5) →
    (q.phase = .accepted → q.fld 8 1 = 3 → q.fld 0xC 4 ≠ 0xFFFFFFFF → s.absentUnit (1, q.fld 0xC 4) = false) → s.windowRail i q window = none →
    (∀ x ∈ q.lost, s.now ≤ x.1 + 10000000) → q.pos < q.total →
    (∃ tr ∈ q.maintTreads, (s.opNow tr).1 < 7 ∧ s.sure tr < s.opReq tr 7) →
    ∃ t, exec (.test i l window) s = .next t ∧ t = { s with regs := t.regs, reqs := t.reqs, power := t.power, pins := t.pins, out := t.out } ∧
      t.standing i = some (.running, q.status, q.pos) ∧
      ∀ tr ∈ q.maintTreads, s.opNow tr ≠ (7, 16) → t.want tr = (7, 16) ∧ t.regBits (Off.pwr 0x24) (16 * tr) 10 =
        (if s.asked tr = some 7 then s.regBits (Off.pwr 0x24) (16 * tr) 10 else s.opReq tr 7)) ∧
  (∀ (i : Nat) (l : List UnitResult) (window : Option Nat) (q : Request) (s : State), s.stopped = false → s.regWrites = [] →
    s.req? i = some q → q.opcode = Dop.test → s.mayStart q = true → (q.fld 8 1 = 0 ∨ q.fld 8 1 = 3) → q.fld 0xC 4 ≠ 0xFFFFFFFF →
    s.absentUnit (1, q.fld 0xC 4) = true →
    ∃ t, exec (.test i l window) s = .next t ∧ t.standing i = some (.finished, .faultNotReady, q.pos) ∧ t.mem = s.mem) ∧
  (∀ (i n k ptr b rail : Nat) (q : Request) (s : State), s.stopped = false → s.req? i = some q → q.opcode = Dop.test → s.goesOn q = true →
    s.regWrites = [] → (q.fld 8 1 = 3 ∨ q.fld 8 1 = 5) → s.skipsUnit q (k, n) = false →
    q.lost = some (b, rail) → b + 10000000 ≤ s.now → (q.units.drop q.pos).head? = some (k, n) →
    (q.fld 8 1 = 3 → s.inActiveUse n = false ∨ s.atSeam n = true) → q.fld 0x10 8 = ptr →
    (ptr = 0 ∨ LinesOpen s q.secure true false (ptr + 32 * q.pos) 32) →
    ∃ t, exec (.maintenanceWindowTimeout i n k) s = .next t ∧ t.standing i = some (.finished, .faultNotReady, q.pos) ∧
      (ptr ≠ 0 → t.memBytes (ptr + 32 * q.pos) 32 =
        s.logEntry (k, n) { index := n, result := 3, repairs := 0, signature := 0, slice := 0, rows := [] }) ∧
      (∃ e ∈ (if q.secure then t.errs.onDieS else t.errs.onDieNs), e.reason = .testWindow ∧ e.kind = 8 ∧ e.index = rail ∧ e.detail0 = rail ∧
        e.detail1 = (s.opNow (q.railTread rail)).1 ∧ e.tag = q.tag))

/-! ### Fuses and reset -/

/-- TIER 3. EVERY COMMAND (R417, R419, R425, R428, R451): fuses are burned and never unburned. Whatever command is at the front, and in every
state whose fuses are within their numbers (4,096 epochs, 8 owner slots, a thermometer of 64, 4,096 repair entries), a step leaves them within
their numbers, every burned epoch and every step of the minimum burned, every owner slot and repair entry as it was with new ones behind, and
what was fused at manufacture as it was; which unburned epoch fuses read badly the ROM finds anew at each boot. -/
def Obligations.EveryStepKeepsWhatIsFused : Prop :=
  ∀ s t : State, s.fuses.inBounds = true → StepsTo s t →
    t.fuses.inBounds = true ∧ s.fuses.epochsBurned ≤ t.fuses.epochsBurned ∧ s.fuses.svnMin ≤ t.fuses.svnMin ∧
    s.fuses.owners <+: t.fuses.owners ∧ s.fuses.repairs <+: t.fuses.repairs ∧
    t.fuses = { s.fuses with
      epochsBurned := t.fuses.epochsBurned, svnMin := t.fuses.svnMin, owners := t.fuses.owners, repairs := t.fuses.repairs, epochsBad := t.fuses.epochsBad }

/-- TIER 2. RESET (R463, R482). At reset every register of BAR0 reads its reset word, memory lists nothing, no request, pass, mailbox command or
region change exists, PORST_N is held low, and the fuses are within their numbers. A device held in reset or stopped by its thermal trip changes
on no command but those of its pins. What is fused at reset, and the values of state that is no register, are the model's (log entries 4, 5 and
2). -/
def Obligations.ResetHoldsTheDeviceAtItsResetValues : Prop :=
  (∀ o, State.reset.reg o = (Regs.resetWord o).toNat) ∧
  (State.reset.pending = [] ∧ State.reset.regWrites = [] ∧ State.reset.mem = [] ∧ State.reset.reqs = [] ∧ State.reset.passes.slots = [] ∧ State.reset.sec.mbox = [] ∧
    State.reset.sec.change = [] ∧ State.reset.pins.porstLow = true ∧ State.reset.sleep.pkg = .awake ∧ State.reset.canonical = true ∧
    State.reset.fuses.inBounds = true) ∧
  (∀ (c : Instr) (s : State), s.stopped = true → c.ofPins = false → exec c s = .next s)
end

