-- ==== Sys2Proof/Laws/Bits.lean ====
section
/-! SUPPORT. The laws of bit fields and little-endian bytes. -/

namespace Sys2Proof.Machine

/-- A number as what stands above, in and below a field. -/
theorem split_field (v lo n : Nat) : v = 2 ^ lo * (2 ^ n * (v / 2 ^ lo / 2 ^ n) + bitsAt v lo n) + v % 2 ^ lo := by
  unfold bitsAt
  rw [Nat.div_add_mod, Nat.div_add_mod]

theorem putBits_eq (v lo n x : Nat) :
    putBits v lo n x = 2 ^ lo * (2 ^ n * (v / 2 ^ lo / 2 ^ n) + x % 2 ^ n) + v % 2 ^ lo := by
  have h := split_field v lo n
  unfold putBits
  generalize bitsAt v lo n = b at *
  rw [Nat.mul_add] at h ⊢
  rw [Nat.mul_comm b, Nat.mul_comm (x % 2 ^ n)]
  generalize 2 ^ lo * (2 ^ n * (v / 2 ^ lo / 2 ^ n)) = hi at *
  generalize 2 ^ lo * b = mid at *
  omega

/-- The bits of a number with a field replaced. -/
theorem testBit_putBits (v lo n x i : Nat) :
    (putBits v lo n x).testBit i = if lo ≤ i ∧ i < lo + n then x.testBit (i - lo) else v.testBit i := by
  have hr : v % 2 ^ lo < 2 ^ lo := Nat.mod_lt _ (Nat.two_pow_pos lo)
  have hx : x % 2 ^ n < 2 ^ n := Nat.mod_lt _ (Nat.two_pow_pos n)
  rw [putBits_eq, Nat.testBit_two_pow_mul_add _ hr, Nat.testBit_two_pow_mul_add _ hx, Nat.testBit_mod_two_pow,
    Nat.testBit_mod_two_pow, Nat.testBit_div_two_pow, Nat.testBit_div_two_pow]
  by_cases h1 : i < lo
  · simp [h1, Nat.not_le.2 h1]
  · by_cases h2 : i - lo < n
    · rw [if_neg h1, if_pos h2, if_pos (by omega)]; simp [h2]
    · rw [if_neg h1, if_neg h2, if_neg (by omega)]; congr 1; omega

theorem testBit_putBit (v i j : Nat) (b : Bool) :
    (putBit v i b).testBit j = if j = i then b else v.testBit j := by
  rw [putBit, testBit_putBits]
  by_cases h : j = i
  · subst h; cases b <;> simp
  · rw [if_neg (by omega), if_neg h]

/-- The field just written. -/
@[simp] theorem bitsAt_putBits_same (v lo n x : Nat) : bitsAt (putBits v lo n x) lo n = x % 2 ^ n := by
  have hr : v % 2 ^ lo < 2 ^ lo := Nat.mod_lt _ (Nat.two_pow_pos lo)
  rw [putBits_eq, bitsAt, Nat.mul_add_div (Nat.two_pow_pos lo), Nat.div_eq_of_lt hr, Nat.add_zero, Nat.mul_add_mod,
    Nat.mod_mod]

/-- A field apart from the one written. -/
theorem bitsAt_putBits_other (v lo n x lo' n' : Nat) (h : lo' + n' ≤ lo ∨ lo + n ≤ lo') :
    bitsAt (putBits v lo n x) lo' n' = bitsAt v lo' n' := by
  apply Nat.eq_of_testBit_eq
  intro i
  unfold bitsAt
  rw [Nat.testBit_mod_two_pow, Nat.testBit_mod_two_pow, Nat.testBit_div_two_pow, Nat.testBit_div_two_pow, testBit_putBits]
  by_cases hi : i < n'
  · rw [if_neg (by omega)]
  · simp [hi]

theorem bitsAt_lt (v lo n : Nat) : bitsAt v lo n < 2 ^ n := Nat.mod_lt _ (Nat.two_pow_pos n)

/-- A number below 2^m stays below it when a field within it is replaced. -/
theorem putBits_lt (v lo n x m : Nat) (hv : v < 2 ^ m) (h : lo + n ≤ m) : putBits v lo n x < 2 ^ m := by
  apply Nat.lt_pow_two_of_testBit
  intro i hi
  rw [testBit_putBits, if_neg (by omega)]
  exact Nat.testBit_lt_two_pow (Nat.lt_of_lt_of_le hv (Nat.pow_le_pow_right (by decide) hi))

theorem twos_lt (n : Nat) (x : Int) : twos n x < 2 ^ n := by
  have hp : (0 : Int) < 2 ^ n := Int.pow_pos (by decide)
  have h1 := Int.emod_lt_of_pos x hp
  have h2 := Int.emod_nonneg x (Int.ne_of_gt hp)
  have e : ((2 ^ n : Nat) : Int) = (2 : Int) ^ n := by simp
  unfold twos
  omega

@[simp] theorem natLe_length (n v : Nat) : (natLe n v).length = n := by
  induction n generalizing v with
  | zero => rfl
  | succ n ih => simp [natLe, ih]

/-- Bytes spelled and read back. -/
theorem leNat_natLe (n v : Nat) : leNat (natLe n v) = v % 256 ^ n := by
  induction n generalizing v with
  | zero => simp [natLe, leNat, Nat.mod_one]
  | succ n ih =>
    rw [natLe, leNat, ih, BitVec.toNat_ofNat, show v % 256 ^ (n + 1) = v % (256 * 256 ^ n) by rw [Nat.pow_succ, Nat.mul_comm],
      Nat.mod_mul]

@[simp] theorem padTo_length (n : Nat) (bs : List Byte) : (padTo n bs).length = n := by
  simp [padTo]; omega

end Sys2Proof.Machine
end

