-- ==== Sys2Proof/Laws/Tables.lean ====
section
/-! SUPPORT. The laws of sparse tables and memories: a read after a write, the frame of a write, and the
canonical form that every operation keeps. -/

namespace Sys2Proof.Machine

variable {α : Type}

theorem sget_sins_same (d : Nat → α) (l : List (Nat × α)) (k : Nat) (v : α) : sget d (sins k v l) k = v := by
  induction l with
  | nil => simp [sins, sget]
  | cons e r ih =>
    obtain ⟨a, w⟩ := e
    unfold sins
    split
    · simp [sget]
    · split
      · simp [sget]
      · next h => rw [sget, if_neg (Ne.symm h), ih]

theorem sget_sins_other (d : Nat → α) (l : List (Nat × α)) {k j : Nat} (v : α) (h : j ≠ k) :
    sget d (sins k v l) j = sget d l j := by
  induction l with
  | nil => simp [sins, sget, Ne.symm h]
  | cons e r ih =>
    obtain ⟨a, w⟩ := e
    unfold sins
    split
    · simp [sget, Ne.symm h]
    · split
      · next _ hk => subst hk; simp [sget, Ne.symm h]
      · simp only [sget, ih]

theorem sget_sdel_same (d : Nat → α) (l : List (Nat × α)) (k : Nat) : sget d (sdel l k) k = d k := by
  induction l with
  | nil => rfl
  | cons e r ih =>
    obtain ⟨a, w⟩ := e
    by_cases h : a = k
    · subst h; simpa [sdel] using ih
    · have : sdel ((a, w) :: r) k = (a, w) :: sdel r k := by simp [sdel, h]
      rw [this, sget, if_neg h, ih]

theorem sget_sdel_other (d : Nat → α) (l : List (Nat × α)) {k j : Nat} (h : j ≠ k) :
    sget d (sdel l k) j = sget d l j := by
  induction l with
  | nil => rfl
  | cons e r ih =>
    obtain ⟨a, w⟩ := e
    by_cases hk : a = k
    · subst hk
      have : sdel ((a, w) :: r) a = sdel r a := by simp [sdel]
      rw [this, ih, sget, if_neg (Ne.symm h)]
    · have : sdel ((a, w) :: r) k = (a, w) :: sdel r k := by simp [sdel, hk]
      rw [this, sget, sget, ih]

/-- A read after a write gives the value written. -/
@[simp] theorem sget_sput_same [DecidableEq α] (d : Nat → α) (l : List (Nat × α)) (k : Nat) (v : α) :
    sget d (sput d l k v) k = v := by
  unfold sput
  split
  · next h => rw [sget_sdel_same, h]
  · exact sget_sins_same d l k v

/-- A write leaves every other key alone. -/
theorem sget_sput_other [DecidableEq α] (d : Nat → α) (l : List (Nat × α)) {k j : Nat} (v : α) (h : j ≠ k) :
    sget d (sput d l k v) j = sget d l j := by
  unfold sput
  split
  · exact sget_sdel_other d l h
  · exact sget_sins_other d l v h

@[simp] theorem tget_sins_same (l : List (Nat × α)) (k : Nat) (v : α) : tget (sins k v l) k = some v := by
  induction l with
  | nil => simp [sins, tget]
  | cons e r ih =>
    obtain ⟨a, w⟩ := e
    unfold sins
    split
    · simp [tget]
    · split
      · simp [tget]
      · next h => rw [tget, if_neg (Ne.symm h), ih]

theorem tget_sins_other (l : List (Nat × α)) {k j : Nat} (v : α) (h : j ≠ k) :
    tget (sins k v l) j = tget l j := by
  induction l with
  | nil => simp [sins, tget, Ne.symm h]
  | cons e r ih =>
    obtain ⟨a, w⟩ := e
    unfold sins
    split
    · simp [tget, Ne.symm h]
    · split
      · next _ hk => subst hk; simp [tget, Ne.symm h]
      · simp only [tget, ih]

@[simp] theorem tget_sdel_same (l : List (Nat × α)) (k : Nat) : tget (sdel l k) k = none := by
  induction l with
  | nil => rfl
  | cons e r ih =>
    obtain ⟨a, w⟩ := e
    by_cases h : a = k
    · subst h; simpa [sdel] using ih
    · have : sdel ((a, w) :: r) k = (a, w) :: sdel r k := by simp [sdel, h]
      rw [this, tget, if_neg h, ih]

theorem tget_sdel_other (l : List (Nat × α)) {k j : Nat} (h : j ≠ k) : tget (sdel l k) j = tget l j := by
  induction l with
  | nil => rfl
  | cons e r ih =>
    obtain ⟨a, w⟩ := e
    by_cases hk : a = k
    · subst hk
      have : sdel ((a, w) :: r) a = sdel r a := by simp [sdel]
      rw [this, ih, tget, if_neg (Ne.symm h)]
    · have : sdel ((a, w) :: r) k = (a, w) :: sdel r k := by simp [sdel, hk]
      rw [this, tget, tget, ih]

/-! ### The canonical form -/

/-- The keys of a table with an entry placed in it: the old ones and the new one. -/
theorem mem_sins {l : List (Nat × α)} {k : Nat} {v : α} {e : Nat × α} (h : e ∈ sins k v l) :
    e = (k, v) ∨ e ∈ l := by
  induction l with
  | nil => exact .inl (by simpa [sins] using h)
  | cons x r ih =>
    obtain ⟨a, w⟩ := x
    unfold sins at h
    split at h
    · exact (List.mem_cons.1 h).imp id id
    · split at h
      · exact (List.mem_cons.1 h).imp id (List.mem_cons_of_mem _)
      · rcases List.mem_cons.1 h with h | h
        · exact .inr (by simp [h])
        · exact (ih h).imp id (List.mem_cons_of_mem _)

section
variable [DecidableEq α]

theorem swf_cons (d : Nat → α) (a : Nat) (v : α) (r : List (Nat × α)) :
    swf d ((a, v) :: r) = true ↔ v ≠ d a ∧ (∀ e ∈ r, a < e.1) ∧ swf d r = true := by
  simp only [swf, Bool.and_eq_true, decide_eq_true_eq, List.all_eq_true, and_assoc]

/-- Dropping entries keeps the canonical form. -/
theorem swf_filter (d : Nat → α) (p : Nat × α → Bool) (l : List (Nat × α)) (h : swf d l = true) :
    swf d (l.filter p) = true := by
  induction l with
  | nil => rfl
  | cons e r ih =>
    obtain ⟨a, v⟩ := e
    obtain ⟨h1, h2, h3⟩ := (swf_cons d a v r).1 h
    rw [List.filter_cons]
    split
    · exact (swf_cons d a v _).2 ⟨h1, fun e he => h2 e (List.mem_filter.1 he).1, ih h3⟩
    · exact ih h3

theorem sdel_swf (d : Nat → α) (l : List (Nat × α)) (k : Nat) (h : swf d l = true) : swf d (sdel l k) = true :=
  swf_filter d _ l h

theorem sins_swf (d : Nat → α) (l : List (Nat × α)) (k : Nat) (v : α) (hv : v ≠ d k) (h : swf d l = true) :
    swf d (sins k v l) = true := by
  induction l with
  | nil => exact (swf_cons d k v []).2 ⟨hv, fun _ he => by simp at he, rfl⟩
  | cons x r ih =>
    obtain ⟨a, w⟩ := x
    obtain ⟨h1, h2, h3⟩ := (swf_cons d a w r).1 h
    unfold sins
    split
    · next hk =>
      refine (swf_cons d k v _).2 ⟨hv, fun e he => ?_, h⟩
      rcases List.mem_cons.1 he with rfl | he
      · exact hk
      · exact Nat.lt_trans hk (h2 e he)
    · split
      · next hk => subst hk; exact (swf_cons d _ v _).2 ⟨hv, h2, h3⟩
      · refine (swf_cons d a w _).2 ⟨h1, fun e he => ?_, ih h3⟩
        rcases mem_sins he with rfl | he
        · show a < k; omega
        · exact h2 e he

/-- A write keeps the canonical form. -/
theorem sput_swf (d : Nat → α) (l : List (Nat × α)) (k : Nat) (v : α) (h : swf d l = true) :
    swf d (sput d l k v) = true := by
  unfold sput
  split
  · exact sdel_swf d l k h
  · next hv => exact sins_swf d l k v hv h

/-- Two canonical tables that read alike under every key are the same list. -/
theorem swf_ext (d : Nat → α) (l m : List (Nat × α)) (hl : swf d l = true) (hm : swf d m = true)
    (h : ∀ k, sget d l k = sget d m k) : l = m := by
  have off : ∀ (r : List (Nat × α)) (k : Nat), (∀ e ∈ r, k < e.1) → sget d r k = d k := by
    intro r k
    induction r with
    | nil => intro _; rfl
    | cons e r ih =>
      intro he
      have h1 := he e (by simp)
      rw [sget, if_neg (by omega), ih (fun x hx => he x (List.mem_cons_of_mem _ hx))]
  induction l generalizing m with
  | nil =>
    cases m with
    | nil => rfl
    | cons e r =>
      obtain ⟨a, v⟩ := e
      exact absurd (by simpa [sget] using (h a).symm) ((swf_cons d a v r).1 hm).1
  | cons e r ih =>
    obtain ⟨a, v⟩ := e
    obtain ⟨l1, l2, l3⟩ := (swf_cons d a v r).1 hl
    cases m with
    | nil => exact absurd (by simpa [sget] using h a) l1
    | cons f q =>
      obtain ⟨b, w⟩ := f
      obtain ⟨m1, m2, m3⟩ := (swf_cons d b w q).1 hm
      have hab : a = b := by
        rcases Nat.lt_trichotomy a b with hlt | heq | hgt
        · have := h a
          rw [sget, if_pos rfl, sget, if_neg (by omega), off q a (fun e he => by have := m2 e he; omega)] at this
          exact absurd this l1
        · exact heq
        · have := h b
          rw [sget, if_neg (by omega), sget, if_pos rfl, off r b (fun e he => by have := l2 e he; omega)] at this
          exact absurd this.symm m1
      subst hab
      have hv : v = w := by simpa [sget] using h a
      subst hv
      rw [ih q l3 m3 (fun k => ?_)]
      by_cases hk : a = k
      · subst hk; rw [off r a l2, off q a m2]
      · simpa [sget, hk] using h k

end

/-! ### Memories -/

/-- Every memory operation keeps the canonical form. -/
theorem Memory.storeBytes_swf (d : Nat → Byte) (bs : List Byte) (m : List Host.Cell) (a : Nat)
    (h : swf d m = true) : swf d (Memory.storeBytes d m a bs) = true := by
  induction bs generalizing m a with
  | nil => exact h
  | cons b r ih => exact ih _ _ (sput_swf d m a b h)

theorem Memory.erase_wf (m : List Host.Cell) (lo hi : Nat) (h : Memory.wf m = true) :
    Memory.wf (Memory.erase m lo hi) = true := swf_filter zeroByte _ m h

/-- A store leaves every byte outside its range alone. -/
theorem Memory.storeBytes_other (d : Nat → Byte) (bs : List Byte) (m : List Host.Cell) (a j : Nat)
    (h : j < a ∨ a + bs.length ≤ j) : sget d (Memory.storeBytes d m a bs) j = sget d m j := by
  induction bs generalizing m a with
  | nil => rfl
  | cons b r ih =>
    have hl : (b :: r).length = r.length + 1 := rfl
    rw [Memory.storeBytes, ih _ _ (by omega), sget_sput_other d m b (by omega)]

/-- A store leaves its bytes in its range. -/
theorem Memory.storeBytes_same (d : Nat → Byte) (bs : List Byte) (m : List Host.Cell) (a i : Nat)
    (h : i < bs.length) : sget d (Memory.storeBytes d m a bs) (a + i) = bs[i] := by
  induction bs generalizing m a i with
  | nil => exact absurd h (Nat.not_lt_zero i)
  | cons b r ih =>
    cases i with
    | zero =>
      rw [Memory.storeBytes, Memory.storeBytes_other d r _ _ _ (by omega)]
      simp
    | succ i =>
      have := ih (sput d m a b) (a + 1) i (by simpa using h)
      rw [Memory.storeBytes, show a + (i + 1) = a + 1 + i by omega, this]
      rfl

/-- What is stored is read back. -/
theorem Memory.readBytes_storeBytes (d : Nat → Byte) (m : List Host.Cell) (a : Nat) (bs : List Byte) :
    Memory.readBytes d (Memory.storeBytes d m a bs) a bs.length = bs := by
  apply List.ext_getElem
  · simp [Memory.readBytes]
  · intro i h1 h2
    simp [Memory.readBytes, Memory.storeBytes_same d bs m a i h2]

end Sys2Proof.Machine
end

