-- ==== Sys2Proof/Laws/State.lean ====
section
/-! SUPPORT. The laws of the state: for each update operation one lemma per field it leaves alone and per reader
it does not touch, and the read of what each one writes. -/

namespace Sys2Proof.Machine

section
variable (s : State) (off v : Nat)
@[simp] theorem State.setReg_latches : (s.setReg off v).latches = s.latches := rfl
@[simp] theorem State.setReg_holds : (s.setReg off v).holds = s.holds := rfl
@[simp] theorem State.setReg_mem : (s.setReg off v).mem = s.mem := rfl
@[simp] theorem State.setReg_host : (s.setReg off v).host = s.host := rfl
@[simp] theorem State.setReg_hostBad : (s.setReg off v).hostBad = s.hostBad := rfl
@[simp] theorem State.setReg_regWrites : (s.setReg off v).regWrites = s.regWrites := rfl
@[simp] theorem State.setReg_flash : (s.setReg off v).flash = s.flash := rfl
@[simp] theorem State.setReg_clock : (s.setReg off v).clock = s.clock := rfl
@[simp] theorem State.setReg_fuses : (s.setReg off v).fuses = s.fuses := rfl
@[simp] theorem State.setReg_pins : (s.setReg off v).pins = s.pins := rfl
@[simp] theorem State.setReg_hbm : (s.setReg off v).hbm = s.hbm := rfl
@[simp] theorem State.setReg_link : (s.setReg off v).link = s.link := rfl
@[simp] theorem State.setReg_rings : (s.setReg off v).rings = s.rings := rfl
@[simp] theorem State.setReg_reqs : (s.setReg off v).reqs = s.reqs := rfl
@[simp] theorem State.setReg_passes : (s.setReg off v).passes = s.passes := rfl
@[simp] theorem State.setReg_tiles : (s.setReg off v).tiles = s.tiles := rfl
@[simp] theorem State.setReg_macros : (s.setReg off v).macros = s.macros := rfl
@[simp] theorem State.setReg_stuck : (s.setReg off v).stuck = s.stuck := rfl
@[simp] theorem State.setReg_mesh : (s.setReg off v).mesh = s.mesh := rfl
@[simp] theorem State.setReg_th : (s.setReg off v).th = s.th := rfl
@[simp] theorem State.setReg_audit : (s.setReg off v).audit = s.audit := rfl
@[simp] theorem State.setReg_errs : (s.setReg off v).errs = s.errs := rfl
@[simp] theorem State.setReg_park : (s.setReg off v).park = s.park := rfl
@[simp] theorem State.setReg_ix : (s.setReg off v).ix = s.ix := rfl
@[simp] theorem State.setReg_power : (s.setReg off v).power = s.power := rfl
@[simp] theorem State.setReg_sleep : (s.setReg off v).sleep = s.sleep := rfl
@[simp] theorem State.setReg_sec : (s.setReg off v).sec = s.sec := rfl
@[simp] theorem State.setReg_out : (s.setReg off v).out = s.out := rfl
@[simp] theorem State.setReg_free : (s.setReg off v).free = s.free := rfl
@[simp] theorem State.setReg_pending : (s.setReg off v).pending = s.pending := rfl
@[simp] theorem State.setReg_tile (k : Nat) : (s.setReg off v).tile k = s.tile k := rfl
@[simp] theorem State.setReg_mac (k j : Nat) : (s.setReg off v).mac k j = s.mac k j := rfl
@[simp] theorem State.setReg_thUnit (k : Nat) : (s.setReg off v).thUnit k = s.thUnit k := rfl
@[simp] theorem State.setReg_port (k : Nat) : (s.setReg off v).port k = s.port k := rfl
@[simp] theorem State.setReg_evtPin (k : Nat) : (s.setReg off v).evtPin k = s.evtPin k := rfl
@[simp] theorem State.setReg_request (k : Nat) : (s.setReg off v).req? k = s.req? k := rfl
@[simp] theorem State.setReg_now : (s.setReg off v).now = s.now := rfl
@[simp] theorem State.setReg_stopped : (s.setReg off v).stopped = s.stopped := rfl
@[simp] theorem State.setReg_memBytes (k j : Nat) : (s.setReg off v).memBytes k j = s.memBytes k j := rfl
@[simp] theorem State.setReg_hostBytes (k j : Nat) : (s.setReg off v).hostBytes k j = s.hostBytes k j := rfl
end

section
variable (s : State) (off v : Nat)
@[simp] theorem State.setReg64_latches : (s.setReg64 off v).latches = s.latches := rfl
@[simp] theorem State.setReg64_holds : (s.setReg64 off v).holds = s.holds := rfl
@[simp] theorem State.setReg64_mem : (s.setReg64 off v).mem = s.mem := rfl
@[simp] theorem State.setReg64_host : (s.setReg64 off v).host = s.host := rfl
@[simp] theorem State.setReg64_hostBad : (s.setReg64 off v).hostBad = s.hostBad := rfl
@[simp] theorem State.setReg64_regWrites : (s.setReg64 off v).regWrites = s.regWrites := rfl
@[simp] theorem State.setReg64_flash : (s.setReg64 off v).flash = s.flash := rfl
@[simp] theorem State.setReg64_clock : (s.setReg64 off v).clock = s.clock := rfl
@[simp] theorem State.setReg64_fuses : (s.setReg64 off v).fuses = s.fuses := rfl
@[simp] theorem State.setReg64_pins : (s.setReg64 off v).pins = s.pins := rfl
@[simp] theorem State.setReg64_hbm : (s.setReg64 off v).hbm = s.hbm := rfl
@[simp] theorem State.setReg64_link : (s.setReg64 off v).link = s.link := rfl
@[simp] theorem State.setReg64_rings : (s.setReg64 off v).rings = s.rings := rfl
@[simp] theorem State.setReg64_reqs : (s.setReg64 off v).reqs = s.reqs := rfl
@[simp] theorem State.setReg64_passes : (s.setReg64 off v).passes = s.passes := rfl
@[simp] theorem State.setReg64_tiles : (s.setReg64 off v).tiles = s.tiles := rfl
@[simp] theorem State.setReg64_macros : (s.setReg64 off v).macros = s.macros := rfl
@[simp] theorem State.setReg64_stuck : (s.setReg64 off v).stuck = s.stuck := rfl
@[simp] theorem State.setReg64_mesh : (s.setReg64 off v).mesh = s.mesh := rfl
@[simp] theorem State.setReg64_th : (s.setReg64 off v).th = s.th := rfl
@[simp] theorem State.setReg64_audit : (s.setReg64 off v).audit = s.audit := rfl
@[simp] theorem State.setReg64_errs : (s.setReg64 off v).errs = s.errs := rfl
@[simp] theorem State.setReg64_park : (s.setReg64 off v).park = s.park := rfl
@[simp] theorem State.setReg64_ix : (s.setReg64 off v).ix = s.ix := rfl
@[simp] theorem State.setReg64_power : (s.setReg64 off v).power = s.power := rfl
@[simp] theorem State.setReg64_sleep : (s.setReg64 off v).sleep = s.sleep := rfl
@[simp] theorem State.setReg64_sec : (s.setReg64 off v).sec = s.sec := rfl
@[simp] theorem State.setReg64_out : (s.setReg64 off v).out = s.out := rfl
@[simp] theorem State.setReg64_free : (s.setReg64 off v).free = s.free := rfl
@[simp] theorem State.setReg64_pending : (s.setReg64 off v).pending = s.pending := rfl
@[simp] theorem State.setReg64_tile (k : Nat) : (s.setReg64 off v).tile k = s.tile k := rfl
@[simp] theorem State.setReg64_mac (k j : Nat) : (s.setReg64 off v).mac k j = s.mac k j := rfl
@[simp] theorem State.setReg64_thUnit (k : Nat) : (s.setReg64 off v).thUnit k = s.thUnit k := rfl
@[simp] theorem State.setReg64_port (k : Nat) : (s.setReg64 off v).port k = s.port k := rfl
@[simp] theorem State.setReg64_evtPin (k : Nat) : (s.setReg64 off v).evtPin k = s.evtPin k := rfl
@[simp] theorem State.setReg64_request (k : Nat) : (s.setReg64 off v).req? k = s.req? k := rfl
@[simp] theorem State.setReg64_now : (s.setReg64 off v).now = s.now := rfl
@[simp] theorem State.setReg64_stopped : (s.setReg64 off v).stopped = s.stopped := rfl
@[simp] theorem State.setReg64_memBytes (k j : Nat) : (s.setReg64 off v).memBytes k j = s.memBytes k j := rfl
@[simp] theorem State.setReg64_hostBytes (k j : Nat) : (s.setReg64 off v).hostBytes k j = s.hostBytes k j := rfl
end

section
variable (s : State) (off lo n x : Nat)
@[simp] theorem State.setRegBits_latches : (s.setRegBits off lo n x).latches = s.latches := rfl
@[simp] theorem State.setRegBits_holds : (s.setRegBits off lo n x).holds = s.holds := rfl
@[simp] theorem State.setRegBits_mem : (s.setRegBits off lo n x).mem = s.mem := rfl
@[simp] theorem State.setRegBits_host : (s.setRegBits off lo n x).host = s.host := rfl
@[simp] theorem State.setRegBits_hostBad : (s.setRegBits off lo n x).hostBad = s.hostBad := rfl
@[simp] theorem State.setRegBits_regWrites : (s.setRegBits off lo n x).regWrites = s.regWrites := rfl
@[simp] theorem State.setRegBits_flash : (s.setRegBits off lo n x).flash = s.flash := rfl
@[simp] theorem State.setRegBits_clock : (s.setRegBits off lo n x).clock = s.clock := rfl
@[simp] theorem State.setRegBits_fuses : (s.setRegBits off lo n x).fuses = s.fuses := rfl
@[simp] theorem State.setRegBits_pins : (s.setRegBits off lo n x).pins = s.pins := rfl
@[simp] theorem State.setRegBits_hbm : (s.setRegBits off lo n x).hbm = s.hbm := rfl
@[simp] theorem State.setRegBits_link : (s.setRegBits off lo n x).link = s.link := rfl
@[simp] theorem State.setRegBits_rings : (s.setRegBits off lo n x).rings = s.rings := rfl
@[simp] theorem State.setRegBits_reqs : (s.setRegBits off lo n x).reqs = s.reqs := rfl
@[simp] theorem State.setRegBits_passes : (s.setRegBits off lo n x).passes = s.passes := rfl
@[simp] theorem State.setRegBits_tiles : (s.setRegBits off lo n x).tiles = s.tiles := rfl
@[simp] theorem State.setRegBits_macros : (s.setRegBits off lo n x).macros = s.macros := rfl
@[simp] theorem State.setRegBits_stuck : (s.setRegBits off lo n x).stuck = s.stuck := rfl
@[simp] theorem State.setRegBits_mesh : (s.setRegBits off lo n x).mesh = s.mesh := rfl
@[simp] theorem State.setRegBits_th : (s.setRegBits off lo n x).th = s.th := rfl
@[simp] theorem State.setRegBits_audit : (s.setRegBits off lo n x).audit = s.audit := rfl
@[simp] theorem State.setRegBits_errs : (s.setRegBits off lo n x).errs = s.errs := rfl
@[simp] theorem State.setRegBits_park : (s.setRegBits off lo n x).park = s.park := rfl
@[simp] theorem State.setRegBits_ix : (s.setRegBits off lo n x).ix = s.ix := rfl
@[simp] theorem State.setRegBits_power : (s.setRegBits off lo n x).power = s.power := rfl
@[simp] theorem State.setRegBits_sleep : (s.setRegBits off lo n x).sleep = s.sleep := rfl
@[simp] theorem State.setRegBits_sec : (s.setRegBits off lo n x).sec = s.sec := rfl
@[simp] theorem State.setRegBits_out : (s.setRegBits off lo n x).out = s.out := rfl
@[simp] theorem State.setRegBits_free : (s.setRegBits off lo n x).free = s.free := rfl
@[simp] theorem State.setRegBits_pending : (s.setRegBits off lo n x).pending = s.pending := rfl
@[simp] theorem State.setRegBits_tile (k : Nat) : (s.setRegBits off lo n x).tile k = s.tile k := rfl
@[simp] theorem State.setRegBits_mac (k j : Nat) : (s.setRegBits off lo n x).mac k j = s.mac k j := rfl
@[simp] theorem State.setRegBits_thUnit (k : Nat) : (s.setRegBits off lo n x).thUnit k = s.thUnit k := rfl
@[simp] theorem State.setRegBits_port (k : Nat) : (s.setRegBits off lo n x).port k = s.port k := rfl
@[simp] theorem State.setRegBits_evtPin (k : Nat) : (s.setRegBits off lo n x).evtPin k = s.evtPin k := rfl
@[simp] theorem State.setRegBits_request (k : Nat) : (s.setRegBits off lo n x).req? k = s.req? k := rfl
@[simp] theorem State.setRegBits_now : (s.setRegBits off lo n x).now = s.now := rfl
@[simp] theorem State.setRegBits_stopped : (s.setRegBits off lo n x).stopped = s.stopped := rfl
@[simp] theorem State.setRegBits_memBytes (k j : Nat) : (s.setRegBits off lo n x).memBytes k j = s.memBytes k j := rfl
@[simp] theorem State.setRegBits_hostBytes (k j : Nat) : (s.setRegBits off lo n x).hostBytes k j = s.hostBytes k j := rfl
end

section
variable (s : State) (off i : Nat) (b : Bool)
@[simp] theorem State.setRegBit_latches : (s.setRegBit off i b).latches = s.latches := rfl
@[simp] theorem State.setRegBit_holds : (s.setRegBit off i b).holds = s.holds := rfl
@[simp] theorem State.setRegBit_mem : (s.setRegBit off i b).mem = s.mem := rfl
@[simp] theorem State.setRegBit_host : (s.setRegBit off i b).host = s.host := rfl
@[simp] theorem State.setRegBit_hostBad : (s.setRegBit off i b).hostBad = s.hostBad := rfl
@[simp] theorem State.setRegBit_regWrites : (s.setRegBit off i b).regWrites = s.regWrites := rfl
@[simp] theorem State.setRegBit_flash : (s.setRegBit off i b).flash = s.flash := rfl
@[simp] theorem State.setRegBit_clock : (s.setRegBit off i b).clock = s.clock := rfl
@[simp] theorem State.setRegBit_fuses : (s.setRegBit off i b).fuses = s.fuses := rfl
@[simp] theorem State.setRegBit_pins : (s.setRegBit off i b).pins = s.pins := rfl
@[simp] theorem State.setRegBit_hbm : (s.setRegBit off i b).hbm = s.hbm := rfl
@[simp] theorem State.setRegBit_link : (s.setRegBit off i b).link = s.link := rfl
@[simp] theorem State.setRegBit_rings : (s.setRegBit off i b).rings = s.rings := rfl
@[simp] theorem State.setRegBit_reqs : (s.setRegBit off i b).reqs = s.reqs := rfl
@[simp] theorem State.setRegBit_passes : (s.setRegBit off i b).passes = s.passes := rfl
@[simp] theorem State.setRegBit_tiles : (s.setRegBit off i b).tiles = s.tiles := rfl
@[simp] theorem State.setRegBit_macros : (s.setRegBit off i b).macros = s.macros := rfl
@[simp] theorem State.setRegBit_stuck : (s.setRegBit off i b).stuck = s.stuck := rfl
@[simp] theorem State.setRegBit_mesh : (s.setRegBit off i b).mesh = s.mesh := rfl
@[simp] theorem State.setRegBit_th : (s.setRegBit off i b).th = s.th := rfl
@[simp] theorem State.setRegBit_audit : (s.setRegBit off i b).audit = s.audit := rfl
@[simp] theorem State.setRegBit_errs : (s.setRegBit off i b).errs = s.errs := rfl
@[simp] theorem State.setRegBit_park : (s.setRegBit off i b).park = s.park := rfl
@[simp] theorem State.setRegBit_ix : (s.setRegBit off i b).ix = s.ix := rfl
@[simp] theorem State.setRegBit_power : (s.setRegBit off i b).power = s.power := rfl
@[simp] theorem State.setRegBit_sleep : (s.setRegBit off i b).sleep = s.sleep := rfl
@[simp] theorem State.setRegBit_sec : (s.setRegBit off i b).sec = s.sec := rfl
@[simp] theorem State.setRegBit_out : (s.setRegBit off i b).out = s.out := rfl
@[simp] theorem State.setRegBit_free : (s.setRegBit off i b).free = s.free := rfl
@[simp] theorem State.setRegBit_pending : (s.setRegBit off i b).pending = s.pending := rfl
@[simp] theorem State.setRegBit_tile (k : Nat) : (s.setRegBit off i b).tile k = s.tile k := rfl
@[simp] theorem State.setRegBit_mac (k j : Nat) : (s.setRegBit off i b).mac k j = s.mac k j := rfl
@[simp] theorem State.setRegBit_thUnit (k : Nat) : (s.setRegBit off i b).thUnit k = s.thUnit k := rfl
@[simp] theorem State.setRegBit_port (k : Nat) : (s.setRegBit off i b).port k = s.port k := rfl
@[simp] theorem State.setRegBit_evtPin (k : Nat) : (s.setRegBit off i b).evtPin k = s.evtPin k := rfl
@[simp] theorem State.setRegBit_request (k : Nat) : (s.setRegBit off i b).req? k = s.req? k := rfl
@[simp] theorem State.setRegBit_now : (s.setRegBit off i b).now = s.now := rfl
@[simp] theorem State.setRegBit_stopped : (s.setRegBit off i b).stopped = s.stopped := rfl
@[simp] theorem State.setRegBit_memBytes (k j : Nat) : (s.setRegBit off i b).memBytes k j = s.memBytes k j := rfl
@[simp] theorem State.setRegBit_hostBytes (k j : Nat) : (s.setRegBit off i b).hostBytes k j = s.hostBytes k j := rfl
end

section
variable (s : State) (off n : Nat)
@[simp] theorem State.tally_latches : (s.tally off n).latches = s.latches := rfl
@[simp] theorem State.tally_holds : (s.tally off n).holds = s.holds := rfl
@[simp] theorem State.tally_mem : (s.tally off n).mem = s.mem := rfl
@[simp] theorem State.tally_host : (s.tally off n).host = s.host := rfl
@[simp] theorem State.tally_hostBad : (s.tally off n).hostBad = s.hostBad := rfl
@[simp] theorem State.tally_regWrites : (s.tally off n).regWrites = s.regWrites := rfl
@[simp] theorem State.tally_flash : (s.tally off n).flash = s.flash := rfl
@[simp] theorem State.tally_clock : (s.tally off n).clock = s.clock := rfl
@[simp] theorem State.tally_fuses : (s.tally off n).fuses = s.fuses := rfl
@[simp] theorem State.tally_pins : (s.tally off n).pins = s.pins := rfl
@[simp] theorem State.tally_hbm : (s.tally off n).hbm = s.hbm := rfl
@[simp] theorem State.tally_link : (s.tally off n).link = s.link := rfl
@[simp] theorem State.tally_rings : (s.tally off n).rings = s.rings := rfl
@[simp] theorem State.tally_reqs : (s.tally off n).reqs = s.reqs := rfl
@[simp] theorem State.tally_passes : (s.tally off n).passes = s.passes := rfl
@[simp] theorem State.tally_tiles : (s.tally off n).tiles = s.tiles := rfl
@[simp] theorem State.tally_macros : (s.tally off n).macros = s.macros := rfl
@[simp] theorem State.tally_stuck : (s.tally off n).stuck = s.stuck := rfl
@[simp] theorem State.tally_mesh : (s.tally off n).mesh = s.mesh := rfl
@[simp] theorem State.tally_th : (s.tally off n).th = s.th := rfl
@[simp] theorem State.tally_audit : (s.tally off n).audit = s.audit := rfl
@[simp] theorem State.tally_errs : (s.tally off n).errs = s.errs := rfl
@[simp] theorem State.tally_park : (s.tally off n).park = s.park := rfl
@[simp] theorem State.tally_ix : (s.tally off n).ix = s.ix := rfl
@[simp] theorem State.tally_power : (s.tally off n).power = s.power := rfl
@[simp] theorem State.tally_sleep : (s.tally off n).sleep = s.sleep := rfl
@[simp] theorem State.tally_sec : (s.tally off n).sec = s.sec := rfl
@[simp] theorem State.tally_out : (s.tally off n).out = s.out := rfl
@[simp] theorem State.tally_free : (s.tally off n).free = s.free := rfl
@[simp] theorem State.tally_pending : (s.tally off n).pending = s.pending := rfl
@[simp] theorem State.tally_tile (k : Nat) : (s.tally off n).tile k = s.tile k := rfl
@[simp] theorem State.tally_mac (k j : Nat) : (s.tally off n).mac k j = s.mac k j := rfl
@[simp] theorem State.tally_thUnit (k : Nat) : (s.tally off n).thUnit k = s.thUnit k := rfl
@[simp] theorem State.tally_port (k : Nat) : (s.tally off n).port k = s.port k := rfl
@[simp] theorem State.tally_evtPin (k : Nat) : (s.tally off n).evtPin k = s.evtPin k := rfl
@[simp] theorem State.tally_request (k : Nat) : (s.tally off n).req? k = s.req? k := rfl
@[simp] theorem State.tally_now : (s.tally off n).now = s.now := rfl
@[simp] theorem State.tally_stopped : (s.tally off n).stopped = s.stopped := rfl
@[simp] theorem State.tally_memBytes (k j : Nat) : (s.tally off n).memBytes k j = s.memBytes k j := rfl
@[simp] theorem State.tally_hostBytes (k j : Nat) : (s.tally off n).hostBytes k j = s.hostBytes k j := rfl
end

section
variable (s : State) (off n : Nat)
@[simp] theorem State.untally_latches : (s.untally off n).latches = s.latches := rfl
@[simp] theorem State.untally_holds : (s.untally off n).holds = s.holds := rfl
@[simp] theorem State.untally_mem : (s.untally off n).mem = s.mem := rfl
@[simp] theorem State.untally_host : (s.untally off n).host = s.host := rfl
@[simp] theorem State.untally_hostBad : (s.untally off n).hostBad = s.hostBad := rfl
@[simp] theorem State.untally_regWrites : (s.untally off n).regWrites = s.regWrites := rfl
@[simp] theorem State.untally_flash : (s.untally off n).flash = s.flash := rfl
@[simp] theorem State.untally_clock : (s.untally off n).clock = s.clock := rfl
@[simp] theorem State.untally_fuses : (s.untally off n).fuses = s.fuses := rfl
@[simp] theorem State.untally_pins : (s.untally off n).pins = s.pins := rfl
@[simp] theorem State.untally_hbm : (s.untally off n).hbm = s.hbm := rfl
@[simp] theorem State.untally_link : (s.untally off n).link = s.link := rfl
@[simp] theorem State.untally_rings : (s.untally off n).rings = s.rings := rfl
@[simp] theorem State.untally_reqs : (s.untally off n).reqs = s.reqs := rfl
@[simp] theorem State.untally_passes : (s.untally off n).passes = s.passes := rfl
@[simp] theorem State.untally_tiles : (s.untally off n).tiles = s.tiles := rfl
@[simp] theorem State.untally_macros : (s.untally off n).macros = s.macros := rfl
@[simp] theorem State.untally_stuck : (s.untally off n).stuck = s.stuck := rfl
@[simp] theorem State.untally_mesh : (s.untally off n).mesh = s.mesh := rfl
@[simp] theorem State.untally_th : (s.untally off n).th = s.th := rfl
@[simp] theorem State.untally_audit : (s.untally off n).audit = s.audit := rfl
@[simp] theorem State.untally_errs : (s.untally off n).errs = s.errs := rfl
@[simp] theorem State.untally_park : (s.untally off n).park = s.park := rfl
@[simp] theorem State.untally_ix : (s.untally off n).ix = s.ix := rfl
@[simp] theorem State.untally_power : (s.untally off n).power = s.power := rfl
@[simp] theorem State.untally_sleep : (s.untally off n).sleep = s.sleep := rfl
@[simp] theorem State.untally_sec : (s.untally off n).sec = s.sec := rfl
@[simp] theorem State.untally_out : (s.untally off n).out = s.out := rfl
@[simp] theorem State.untally_free : (s.untally off n).free = s.free := rfl
@[simp] theorem State.untally_pending : (s.untally off n).pending = s.pending := rfl
@[simp] theorem State.untally_tile (k : Nat) : (s.untally off n).tile k = s.tile k := rfl
@[simp] theorem State.untally_mac (k j : Nat) : (s.untally off n).mac k j = s.mac k j := rfl
@[simp] theorem State.untally_thUnit (k : Nat) : (s.untally off n).thUnit k = s.thUnit k := rfl
@[simp] theorem State.untally_port (k : Nat) : (s.untally off n).port k = s.port k := rfl
@[simp] theorem State.untally_evtPin (k : Nat) : (s.untally off n).evtPin k = s.evtPin k := rfl
@[simp] theorem State.untally_request (k : Nat) : (s.untally off n).req? k = s.req? k := rfl
@[simp] theorem State.untally_now : (s.untally off n).now = s.now := rfl
@[simp] theorem State.untally_stopped : (s.untally off n).stopped = s.stopped := rfl
@[simp] theorem State.untally_memBytes (k j : Nat) : (s.untally off n).memBytes k j = s.memBytes k j := rfl
@[simp] theorem State.untally_hostBytes (k j : Nat) : (s.untally off n).hostBytes k j = s.hostBytes k j := rfl
end

section
variable (s : State) (off n : Nat)
@[simp] theorem State.tally64_latches : (s.tally64 off n).latches = s.latches := rfl
@[simp] theorem State.tally64_holds : (s.tally64 off n).holds = s.holds := rfl
@[simp] theorem State.tally64_mem : (s.tally64 off n).mem = s.mem := rfl
@[simp] theorem State.tally64_host : (s.tally64 off n).host = s.host := rfl
@[simp] theorem State.tally64_hostBad : (s.tally64 off n).hostBad = s.hostBad := rfl
@[simp] theorem State.tally64_regWrites : (s.tally64 off n).regWrites = s.regWrites := rfl
@[simp] theorem State.tally64_flash : (s.tally64 off n).flash = s.flash := rfl
@[simp] theorem State.tally64_clock : (s.tally64 off n).clock = s.clock := rfl
@[simp] theorem State.tally64_fuses : (s.tally64 off n).fuses = s.fuses := rfl
@[simp] theorem State.tally64_pins : (s.tally64 off n).pins = s.pins := rfl
@[simp] theorem State.tally64_hbm : (s.tally64 off n).hbm = s.hbm := rfl
@[simp] theorem State.tally64_link : (s.tally64 off n).link = s.link := rfl
@[simp] theorem State.tally64_rings : (s.tally64 off n).rings = s.rings := rfl
@[simp] theorem State.tally64_reqs : (s.tally64 off n).reqs = s.reqs := rfl
@[simp] theorem State.tally64_passes : (s.tally64 off n).passes = s.passes := rfl
@[simp] theorem State.tally64_tiles : (s.tally64 off n).tiles = s.tiles := rfl
@[simp] theorem State.tally64_macros : (s.tally64 off n).macros = s.macros := rfl
@[simp] theorem State.tally64_stuck : (s.tally64 off n).stuck = s.stuck := rfl
@[simp] theorem State.tally64_mesh : (s.tally64 off n).mesh = s.mesh := rfl
@[simp] theorem State.tally64_th : (s.tally64 off n).th = s.th := rfl
@[simp] theorem State.tally64_audit : (s.tally64 off n).audit = s.audit := rfl
@[simp] theorem State.tally64_errs : (s.tally64 off n).errs = s.errs := rfl
@[simp] theorem State.tally64_park : (s.tally64 off n).park = s.park := rfl
@[simp] theorem State.tally64_ix : (s.tally64 off n).ix = s.ix := rfl
@[simp] theorem State.tally64_power : (s.tally64 off n).power = s.power := rfl
@[simp] theorem State.tally64_sleep : (s.tally64 off n).sleep = s.sleep := rfl
@[simp] theorem State.tally64_sec : (s.tally64 off n).sec = s.sec := rfl
@[simp] theorem State.tally64_out : (s.tally64 off n).out = s.out := rfl
@[simp] theorem State.tally64_free : (s.tally64 off n).free = s.free := rfl
@[simp] theorem State.tally64_pending : (s.tally64 off n).pending = s.pending := rfl
@[simp] theorem State.tally64_tile (k : Nat) : (s.tally64 off n).tile k = s.tile k := rfl
@[simp] theorem State.tally64_mac (k j : Nat) : (s.tally64 off n).mac k j = s.mac k j := rfl
@[simp] theorem State.tally64_thUnit (k : Nat) : (s.tally64 off n).thUnit k = s.thUnit k := rfl
@[simp] theorem State.tally64_port (k : Nat) : (s.tally64 off n).port k = s.port k := rfl
@[simp] theorem State.tally64_evtPin (k : Nat) : (s.tally64 off n).evtPin k = s.evtPin k := rfl
@[simp] theorem State.tally64_request (k : Nat) : (s.tally64 off n).req? k = s.req? k := rfl
@[simp] theorem State.tally64_now : (s.tally64 off n).now = s.now := rfl
@[simp] theorem State.tally64_stopped : (s.tally64 off n).stopped = s.stopped := rfl
@[simp] theorem State.tally64_memBytes (k j : Nat) : (s.tally64 off n).memBytes k j = s.memBytes k j := rfl
@[simp] theorem State.tally64_hostBytes (k j : Nat) : (s.tally64 off n).hostBytes k j = s.hostBytes k j := rfl
end

section
variable (s : State) (o : Out)
@[simp] theorem State.emit_regs : (s.emit o).regs = s.regs := rfl
@[simp] theorem State.emit_latches : (s.emit o).latches = s.latches := rfl
@[simp] theorem State.emit_holds : (s.emit o).holds = s.holds := rfl
@[simp] theorem State.emit_mem : (s.emit o).mem = s.mem := rfl
@[simp] theorem State.emit_host : (s.emit o).host = s.host := rfl
@[simp] theorem State.emit_hostBad : (s.emit o).hostBad = s.hostBad := rfl
@[simp] theorem State.emit_regWrites : (s.emit o).regWrites = s.regWrites := rfl
@[simp] theorem State.emit_flash : (s.emit o).flash = s.flash := rfl
@[simp] theorem State.emit_clock : (s.emit o).clock = s.clock := rfl
@[simp] theorem State.emit_fuses : (s.emit o).fuses = s.fuses := rfl
@[simp] theorem State.emit_pins : (s.emit o).pins = s.pins := rfl
@[simp] theorem State.emit_hbm : (s.emit o).hbm = s.hbm := rfl
@[simp] theorem State.emit_link : (s.emit o).link = s.link := rfl
@[simp] theorem State.emit_rings : (s.emit o).rings = s.rings := rfl
@[simp] theorem State.emit_reqs : (s.emit o).reqs = s.reqs := rfl
@[simp] theorem State.emit_passes : (s.emit o).passes = s.passes := rfl
@[simp] theorem State.emit_tiles : (s.emit o).tiles = s.tiles := rfl
@[simp] theorem State.emit_macros : (s.emit o).macros = s.macros := rfl
@[simp] theorem State.emit_stuck : (s.emit o).stuck = s.stuck := rfl
@[simp] theorem State.emit_mesh : (s.emit o).mesh = s.mesh := rfl
@[simp] theorem State.emit_th : (s.emit o).th = s.th := rfl
@[simp] theorem State.emit_audit : (s.emit o).audit = s.audit := rfl
@[simp] theorem State.emit_errs : (s.emit o).errs = s.errs := rfl
@[simp] theorem State.emit_park : (s.emit o).park = s.park := rfl
@[simp] theorem State.emit_ix : (s.emit o).ix = s.ix := rfl
@[simp] theorem State.emit_power : (s.emit o).power = s.power := rfl
@[simp] theorem State.emit_sleep : (s.emit o).sleep = s.sleep := rfl
@[simp] theorem State.emit_sec : (s.emit o).sec = s.sec := rfl
@[simp] theorem State.emit_free : (s.emit o).free = s.free := rfl
@[simp] theorem State.emit_pending : (s.emit o).pending = s.pending := rfl
@[simp] theorem State.emit_reg (j : Nat) : (s.emit o).reg j = s.reg j := rfl
@[simp] theorem State.emit_regBits (j l k : Nat) : (s.emit o).regBits j l k = s.regBits j l k := rfl
@[simp] theorem State.emit_regBit (j l : Nat) : (s.emit o).regBit j l = s.regBit j l := rfl
@[simp] theorem State.emit_tile (k : Nat) : (s.emit o).tile k = s.tile k := rfl
@[simp] theorem State.emit_mac (k j : Nat) : (s.emit o).mac k j = s.mac k j := rfl
@[simp] theorem State.emit_thUnit (k : Nat) : (s.emit o).thUnit k = s.thUnit k := rfl
@[simp] theorem State.emit_port (k : Nat) : (s.emit o).port k = s.port k := rfl
@[simp] theorem State.emit_evtPin (k : Nat) : (s.emit o).evtPin k = s.evtPin k := rfl
@[simp] theorem State.emit_request (k : Nat) : (s.emit o).req? k = s.req? k := rfl
@[simp] theorem State.emit_now : (s.emit o).now = s.now := rfl
@[simp] theorem State.emit_stopped : (s.emit o).stopped = s.stopped := rfl
@[simp] theorem State.emit_memBytes (k j : Nat) : (s.emit o).memBytes k j = s.memBytes k j := rfl
@[simp] theorem State.emit_hostBytes (k j : Nat) : (s.emit o).hostBytes k j = s.hostBytes k j := rfl
end

section
variable (s : State) (n : Nat) (t : Tile)
@[simp] theorem State.setTile_regs : (s.setTile n t).regs = s.regs := rfl
@[simp] theorem State.setTile_latches : (s.setTile n t).latches = s.latches := rfl
@[simp] theorem State.setTile_holds : (s.setTile n t).holds = s.holds := rfl
@[simp] theorem State.setTile_mem : (s.setTile n t).mem = s.mem := rfl
@[simp] theorem State.setTile_host : (s.setTile n t).host = s.host := rfl
@[simp] theorem State.setTile_hostBad : (s.setTile n t).hostBad = s.hostBad := rfl
@[simp] theorem State.setTile_regWrites : (s.setTile n t).regWrites = s.regWrites := rfl
@[simp] theorem State.setTile_flash : (s.setTile n t).flash = s.flash := rfl
@[simp] theorem State.setTile_clock : (s.setTile n t).clock = s.clock := rfl
@[simp] theorem State.setTile_fuses : (s.setTile n t).fuses = s.fuses := rfl
@[simp] theorem State.setTile_pins : (s.setTile n t).pins = s.pins := rfl
@[simp] theorem State.setTile_hbm : (s.setTile n t).hbm = s.hbm := rfl
@[simp] theorem State.setTile_link : (s.setTile n t).link = s.link := rfl
@[simp] theorem State.setTile_rings : (s.setTile n t).rings = s.rings := rfl
@[simp] theorem State.setTile_reqs : (s.setTile n t).reqs = s.reqs := rfl
@[simp] theorem State.setTile_passes : (s.setTile n t).passes = s.passes := rfl
@[simp] theorem State.setTile_macros : (s.setTile n t).macros = s.macros := rfl
@[simp] theorem State.setTile_stuck : (s.setTile n t).stuck = s.stuck := rfl
@[simp] theorem State.setTile_mesh : (s.setTile n t).mesh = s.mesh := rfl
@[simp] theorem State.setTile_th : (s.setTile n t).th = s.th := rfl
@[simp] theorem State.setTile_audit : (s.setTile n t).audit = s.audit := rfl
@[simp] theorem State.setTile_errs : (s.setTile n t).errs = s.errs := rfl
@[simp] theorem State.setTile_park : (s.setTile n t).park = s.park := rfl
@[simp] theorem State.setTile_ix : (s.setTile n t).ix = s.ix := rfl
@[simp] theorem State.setTile_power : (s.setTile n t).power = s.power := rfl
@[simp] theorem State.setTile_sleep : (s.setTile n t).sleep = s.sleep := rfl
@[simp] theorem State.setTile_sec : (s.setTile n t).sec = s.sec := rfl
@[simp] theorem State.setTile_out : (s.setTile n t).out = s.out := rfl
@[simp] theorem State.setTile_free : (s.setTile n t).free = s.free := rfl
@[simp] theorem State.setTile_pending : (s.setTile n t).pending = s.pending := rfl
@[simp] theorem State.setTile_reg (j : Nat) : (s.setTile n t).reg j = s.reg j := rfl
@[simp] theorem State.setTile_regBits (j l k : Nat) : (s.setTile n t).regBits j l k = s.regBits j l k := rfl
@[simp] theorem State.setTile_regBit (j l : Nat) : (s.setTile n t).regBit j l = s.regBit j l := rfl
@[simp] theorem State.setTile_mac (k j : Nat) : (s.setTile n t).mac k j = s.mac k j := rfl
@[simp] theorem State.setTile_thUnit (k : Nat) : (s.setTile n t).thUnit k = s.thUnit k := rfl
@[simp] theorem State.setTile_port (k : Nat) : (s.setTile n t).port k = s.port k := rfl
@[simp] theorem State.setTile_evtPin (k : Nat) : (s.setTile n t).evtPin k = s.evtPin k := rfl
@[simp] theorem State.setTile_request (k : Nat) : (s.setTile n t).req? k = s.req? k := rfl
@[simp] theorem State.setTile_now : (s.setTile n t).now = s.now := rfl
@[simp] theorem State.setTile_stopped : (s.setTile n t).stopped = s.stopped := rfl
@[simp] theorem State.setTile_memBytes (k j : Nat) : (s.setTile n t).memBytes k j = s.memBytes k j := rfl
@[simp] theorem State.setTile_hostBytes (k j : Nat) : (s.setTile n t).hostBytes k j = s.hostBytes k j := rfl
end

section
variable (s : State) (n : Nat) (f : Tile → Tile)
@[simp] theorem State.updTile_regs : (s.updTile n f).regs = s.regs := rfl
@[simp] theorem State.updTile_latches : (s.updTile n f).latches = s.latches := rfl
@[simp] theorem State.updTile_holds : (s.updTile n f).holds = s.holds := rfl
@[simp] theorem State.updTile_mem : (s.updTile n f).mem = s.mem := rfl
@[simp] theorem State.updTile_host : (s.updTile n f).host = s.host := rfl
@[simp] theorem State.updTile_hostBad : (s.updTile n f).hostBad = s.hostBad := rfl
@[simp] theorem State.updTile_regWrites : (s.updTile n f).regWrites = s.regWrites := rfl
@[simp] theorem State.updTile_flash : (s.updTile n f).flash = s.flash := rfl
@[simp] theorem State.updTile_clock : (s.updTile n f).clock = s.clock := rfl
@[simp] theorem State.updTile_fuses : (s.updTile n f).fuses = s.fuses := rfl
@[simp] theorem State.updTile_pins : (s.updTile n f).pins = s.pins := rfl
@[simp] theorem State.updTile_hbm : (s.updTile n f).hbm = s.hbm := rfl
@[simp] theorem State.updTile_link : (s.updTile n f).link = s.link := rfl
@[simp] theorem State.updTile_rings : (s.updTile n f).rings = s.rings := rfl
@[simp] theorem State.updTile_reqs : (s.updTile n f).reqs = s.reqs := rfl
@[simp] theorem State.updTile_passes : (s.updTile n f).passes = s.passes := rfl
@[simp] theorem State.updTile_macros : (s.updTile n f).macros = s.macros := rfl
@[simp] theorem State.updTile_stuck : (s.updTile n f).stuck = s.stuck := rfl
@[simp] theorem State.updTile_mesh : (s.updTile n f).mesh = s.mesh := rfl
@[simp] theorem State.updTile_th : (s.updTile n f).th = s.th := rfl
@[simp] theorem State.updTile_audit : (s.updTile n f).audit = s.audit := rfl
@[simp] theorem State.updTile_errs : (s.updTile n f).errs = s.errs := rfl
@[simp] theorem State.updTile_park : (s.updTile n f).park = s.park := rfl
@[simp] theorem State.updTile_ix : (s.updTile n f).ix = s.ix := rfl
@[simp] theorem State.updTile_power : (s.updTile n f).power = s.power := rfl
@[simp] theorem State.updTile_sleep : (s.updTile n f).sleep = s.sleep := rfl
@[simp] theorem State.updTile_sec : (s.updTile n f).sec = s.sec := rfl
@[simp] theorem State.updTile_out : (s.updTile n f).out = s.out := rfl
@[simp] theorem State.updTile_free : (s.updTile n f).free = s.free := rfl
@[simp] theorem State.updTile_pending : (s.updTile n f).pending = s.pending := rfl
@[simp] theorem State.updTile_reg (j : Nat) : (s.updTile n f).reg j = s.reg j := rfl
@[simp] theorem State.updTile_regBits (j l k : Nat) : (s.updTile n f).regBits j l k = s.regBits j l k := rfl
@[simp] theorem State.updTile_regBit (j l : Nat) : (s.updTile n f).regBit j l = s.regBit j l := rfl
@[simp] theorem State.updTile_mac (k j : Nat) : (s.updTile n f).mac k j = s.mac k j := rfl
@[simp] theorem State.updTile_thUnit (k : Nat) : (s.updTile n f).thUnit k = s.thUnit k := rfl
@[simp] theorem State.updTile_port (k : Nat) : (s.updTile n f).port k = s.port k := rfl
@[simp] theorem State.updTile_evtPin (k : Nat) : (s.updTile n f).evtPin k = s.evtPin k := rfl
@[simp] theorem State.updTile_request (k : Nat) : (s.updTile n f).req? k = s.req? k := rfl
@[simp] theorem State.updTile_now : (s.updTile n f).now = s.now := rfl
@[simp] theorem State.updTile_stopped : (s.updTile n f).stopped = s.stopped := rfl
@[simp] theorem State.updTile_memBytes (k j : Nat) : (s.updTile n f).memBytes k j = s.memBytes k j := rfl
@[simp] theorem State.updTile_hostBytes (k j : Nat) : (s.updTile n f).hostBytes k j = s.hostBytes k j := rfl
end

section
variable (s : State) (n m : Nat) (x : Macro)
@[simp] theorem State.setMac_regs : (s.setMac n m x).regs = s.regs := rfl
@[simp] theorem State.setMac_latches : (s.setMac n m x).latches = s.latches := rfl
@[simp] theorem State.setMac_holds : (s.setMac n m x).holds = s.holds := rfl
@[simp] theorem State.setMac_mem : (s.setMac n m x).mem = s.mem := rfl
@[simp] theorem State.setMac_host : (s.setMac n m x).host = s.host := rfl
@[simp] theorem State.setMac_hostBad : (s.setMac n m x).hostBad = s.hostBad := rfl
@[simp] theorem State.setMac_regWrites : (s.setMac n m x).regWrites = s.regWrites := rfl
@[simp] theorem State.setMac_flash : (s.setMac n m x).flash = s.flash := rfl
@[simp] theorem State.setMac_clock : (s.setMac n m x).clock = s.clock := rfl
@[simp] theorem State.setMac_fuses : (s.setMac n m x).fuses = s.fuses := rfl
@[simp] theorem State.setMac_pins : (s.setMac n m x).pins = s.pins := rfl
@[simp] theorem State.setMac_hbm : (s.setMac n m x).hbm = s.hbm := rfl
@[simp] theorem State.setMac_link : (s.setMac n m x).link = s.link := rfl
@[simp] theorem State.setMac_rings : (s.setMac n m x).rings = s.rings := rfl
@[simp] theorem State.setMac_reqs : (s.setMac n m x).reqs = s.reqs := rfl
@[simp] theorem State.setMac_passes : (s.setMac n m x).passes = s.passes := rfl
@[simp] theorem State.setMac_tiles : (s.setMac n m x).tiles = s.tiles := rfl
@[simp] theorem State.setMac_stuck : (s.setMac n m x).stuck = s.stuck := rfl
@[simp] theorem State.setMac_mesh : (s.setMac n m x).mesh = s.mesh := rfl
@[simp] theorem State.setMac_th : (s.setMac n m x).th = s.th := rfl
@[simp] theorem State.setMac_audit : (s.setMac n m x).audit = s.audit := rfl
@[simp] theorem State.setMac_errs : (s.setMac n m x).errs = s.errs := rfl
@[simp] theorem State.setMac_park : (s.setMac n m x).park = s.park := rfl
@[simp] theorem State.setMac_ix : (s.setMac n m x).ix = s.ix := rfl
@[simp] theorem State.setMac_power : (s.setMac n m x).power = s.power := rfl
@[simp] theorem State.setMac_sleep : (s.setMac n m x).sleep = s.sleep := rfl
@[simp] theorem State.setMac_sec : (s.setMac n m x).sec = s.sec := rfl
@[simp] theorem State.setMac_out : (s.setMac n m x).out = s.out := rfl
@[simp] theorem State.setMac_free : (s.setMac n m x).free = s.free := rfl
@[simp] theorem State.setMac_pending : (s.setMac n m x).pending = s.pending := rfl
@[simp] theorem State.setMac_reg (j : Nat) : (s.setMac n m x).reg j = s.reg j := rfl
@[simp] theorem State.setMac_regBits (j l k : Nat) : (s.setMac n m x).regBits j l k = s.regBits j l k := rfl
@[simp] theorem State.setMac_regBit (j l : Nat) : (s.setMac n m x).regBit j l = s.regBit j l := rfl
@[simp] theorem State.setMac_tile (k : Nat) : (s.setMac n m x).tile k = s.tile k := rfl
@[simp] theorem State.setMac_thUnit (k : Nat) : (s.setMac n m x).thUnit k = s.thUnit k := rfl
@[simp] theorem State.setMac_port (k : Nat) : (s.setMac n m x).port k = s.port k := rfl
@[simp] theorem State.setMac_evtPin (k : Nat) : (s.setMac n m x).evtPin k = s.evtPin k := rfl
@[simp] theorem State.setMac_request (k : Nat) : (s.setMac n m x).req? k = s.req? k := rfl
@[simp] theorem State.setMac_now : (s.setMac n m x).now = s.now := rfl
@[simp] theorem State.setMac_stopped : (s.setMac n m x).stopped = s.stopped := rfl
@[simp] theorem State.setMac_memBytes (k j : Nat) : (s.setMac n m x).memBytes k j = s.memBytes k j := rfl
@[simp] theorem State.setMac_hostBytes (k j : Nat) : (s.setMac n m x).hostBytes k j = s.hostBytes k j := rfl
end

section
variable (s : State) (n m : Nat) (f : Macro → Macro)
@[simp] theorem State.updMac_regs : (s.updMac n m f).regs = s.regs := rfl
@[simp] theorem State.updMac_latches : (s.updMac n m f).latches = s.latches := rfl
@[simp] theorem State.updMac_holds : (s.updMac n m f).holds = s.holds := rfl
@[simp] theorem State.updMac_mem : (s.updMac n m f).mem = s.mem := rfl
@[simp] theorem State.updMac_host : (s.updMac n m f).host = s.host := rfl
@[simp] theorem State.updMac_hostBad : (s.updMac n m f).hostBad = s.hostBad := rfl
@[simp] theorem State.updMac_regWrites : (s.updMac n m f).regWrites = s.regWrites := rfl
@[simp] theorem State.updMac_flash : (s.updMac n m f).flash = s.flash := rfl
@[simp] theorem State.updMac_clock : (s.updMac n m f).clock = s.clock := rfl
@[simp] theorem State.updMac_fuses : (s.updMac n m f).fuses = s.fuses := rfl
@[simp] theorem State.updMac_pins : (s.updMac n m f).pins = s.pins := rfl
@[simp] theorem State.updMac_hbm : (s.updMac n m f).hbm = s.hbm := rfl
@[simp] theorem State.updMac_link : (s.updMac n m f).link = s.link := rfl
@[simp] theorem State.updMac_rings : (s.updMac n m f).rings = s.rings := rfl
@[simp] theorem State.updMac_reqs : (s.updMac n m f).reqs = s.reqs := rfl
@[simp] theorem State.updMac_passes : (s.updMac n m f).passes = s.passes := rfl
@[simp] theorem State.updMac_tiles : (s.updMac n m f).tiles = s.tiles := rfl
@[simp] theorem State.updMac_stuck : (s.updMac n m f).stuck = s.stuck := rfl
@[simp] theorem State.updMac_mesh : (s.updMac n m f).mesh = s.mesh := rfl
@[simp] theorem State.updMac_th : (s.updMac n m f).th = s.th := rfl
@[simp] theorem State.updMac_audit : (s.updMac n m f).audit = s.audit := rfl
@[simp] theorem State.updMac_errs : (s.updMac n m f).errs = s.errs := rfl
@[simp] theorem State.updMac_park : (s.updMac n m f).park = s.park := rfl
@[simp] theorem State.updMac_ix : (s.updMac n m f).ix = s.ix := rfl
@[simp] theorem State.updMac_power : (s.updMac n m f).power = s.power := rfl
@[simp] theorem State.updMac_sleep : (s.updMac n m f).sleep = s.sleep := rfl
@[simp] theorem State.updMac_sec : (s.updMac n m f).sec = s.sec := rfl
@[simp] theorem State.updMac_out : (s.updMac n m f).out = s.out := rfl
@[simp] theorem State.updMac_free : (s.updMac n m f).free = s.free := rfl
@[simp] theorem State.updMac_pending : (s.updMac n m f).pending = s.pending := rfl
@[simp] theorem State.updMac_reg (j : Nat) : (s.updMac n m f).reg j = s.reg j := rfl
@[simp] theorem State.updMac_regBits (j l k : Nat) : (s.updMac n m f).regBits j l k = s.regBits j l k := rfl
@[simp] theorem State.updMac_regBit (j l : Nat) : (s.updMac n m f).regBit j l = s.regBit j l := rfl
@[simp] theorem State.updMac_tile (k : Nat) : (s.updMac n m f).tile k = s.tile k := rfl
@[simp] theorem State.updMac_thUnit (k : Nat) : (s.updMac n m f).thUnit k = s.thUnit k := rfl
@[simp] theorem State.updMac_port (k : Nat) : (s.updMac n m f).port k = s.port k := rfl
@[simp] theorem State.updMac_evtPin (k : Nat) : (s.updMac n m f).evtPin k = s.evtPin k := rfl
@[simp] theorem State.updMac_request (k : Nat) : (s.updMac n m f).req? k = s.req? k := rfl
@[simp] theorem State.updMac_now : (s.updMac n m f).now = s.now := rfl
@[simp] theorem State.updMac_stopped : (s.updMac n m f).stopped = s.stopped := rfl
@[simp] theorem State.updMac_memBytes (k j : Nat) : (s.updMac n m f).memBytes k j = s.memBytes k j := rfl
@[simp] theorem State.updMac_hostBytes (k j : Nat) : (s.updMac n m f).hostBytes k j = s.hostBytes k j := rfl
end

section
variable (s : State) (u : Nat) (x : ThUnit)
@[simp] theorem State.setTh_regs : (s.setTh u x).regs = s.regs := rfl
@[simp] theorem State.setTh_latches : (s.setTh u x).latches = s.latches := rfl
@[simp] theorem State.setTh_holds : (s.setTh u x).holds = s.holds := rfl
@[simp] theorem State.setTh_mem : (s.setTh u x).mem = s.mem := rfl
@[simp] theorem State.setTh_host : (s.setTh u x).host = s.host := rfl
@[simp] theorem State.setTh_hostBad : (s.setTh u x).hostBad = s.hostBad := rfl
@[simp] theorem State.setTh_regWrites : (s.setTh u x).regWrites = s.regWrites := rfl
@[simp] theorem State.setTh_flash : (s.setTh u x).flash = s.flash := rfl
@[simp] theorem State.setTh_clock : (s.setTh u x).clock = s.clock := rfl
@[simp] theorem State.setTh_fuses : (s.setTh u x).fuses = s.fuses := rfl
@[simp] theorem State.setTh_pins : (s.setTh u x).pins = s.pins := rfl
@[simp] theorem State.setTh_hbm : (s.setTh u x).hbm = s.hbm := rfl
@[simp] theorem State.setTh_link : (s.setTh u x).link = s.link := rfl
@[simp] theorem State.setTh_rings : (s.setTh u x).rings = s.rings := rfl
@[simp] theorem State.setTh_reqs : (s.setTh u x).reqs = s.reqs := rfl
@[simp] theorem State.setTh_passes : (s.setTh u x).passes = s.passes := rfl
@[simp] theorem State.setTh_tiles : (s.setTh u x).tiles = s.tiles := rfl
@[simp] theorem State.setTh_macros : (s.setTh u x).macros = s.macros := rfl
@[simp] theorem State.setTh_stuck : (s.setTh u x).stuck = s.stuck := rfl
@[simp] theorem State.setTh_mesh : (s.setTh u x).mesh = s.mesh := rfl
@[simp] theorem State.setTh_audit : (s.setTh u x).audit = s.audit := rfl
@[simp] theorem State.setTh_errs : (s.setTh u x).errs = s.errs := rfl
@[simp] theorem State.setTh_park : (s.setTh u x).park = s.park := rfl
@[simp] theorem State.setTh_ix : (s.setTh u x).ix = s.ix := rfl
@[simp] theorem State.setTh_power : (s.setTh u x).power = s.power := rfl
@[simp] theorem State.setTh_sleep : (s.setTh u x).sleep = s.sleep := rfl
@[simp] theorem State.setTh_sec : (s.setTh u x).sec = s.sec := rfl
@[simp] theorem State.setTh_out : (s.setTh u x).out = s.out := rfl
@[simp] theorem State.setTh_free : (s.setTh u x).free = s.free := rfl
@[simp] theorem State.setTh_pending : (s.setTh u x).pending = s.pending := rfl
@[simp] theorem State.setTh_reg (j : Nat) : (s.setTh u x).reg j = s.reg j := rfl
@[simp] theorem State.setTh_regBits (j l k : Nat) : (s.setTh u x).regBits j l k = s.regBits j l k := rfl
@[simp] theorem State.setTh_regBit (j l : Nat) : (s.setTh u x).regBit j l = s.regBit j l := rfl
@[simp] theorem State.setTh_tile (k : Nat) : (s.setTh u x).tile k = s.tile k := rfl
@[simp] theorem State.setTh_mac (k j : Nat) : (s.setTh u x).mac k j = s.mac k j := rfl
@[simp] theorem State.setTh_port (k : Nat) : (s.setTh u x).port k = s.port k := rfl
@[simp] theorem State.setTh_evtPin (k : Nat) : (s.setTh u x).evtPin k = s.evtPin k := rfl
@[simp] theorem State.setTh_request (k : Nat) : (s.setTh u x).req? k = s.req? k := rfl
@[simp] theorem State.setTh_now : (s.setTh u x).now = s.now := rfl
@[simp] theorem State.setTh_stopped : (s.setTh u x).stopped = s.stopped := rfl
@[simp] theorem State.setTh_memBytes (k j : Nat) : (s.setTh u x).memBytes k j = s.memBytes k j := rfl
@[simp] theorem State.setTh_hostBytes (k j : Nat) : (s.setTh u x).hostBytes k j = s.hostBytes k j := rfl
end

section
variable (s : State) (p : Nat) (x : IxPort)
@[simp] theorem State.setPort_regs : (s.setPort p x).regs = s.regs := rfl
@[simp] theorem State.setPort_latches : (s.setPort p x).latches = s.latches := rfl
@[simp] theorem State.setPort_holds : (s.setPort p x).holds = s.holds := rfl
@[simp] theorem State.setPort_mem : (s.setPort p x).mem = s.mem := rfl
@[simp] theorem State.setPort_host : (s.setPort p x).host = s.host := rfl
@[simp] theorem State.setPort_hostBad : (s.setPort p x).hostBad = s.hostBad := rfl
@[simp] theorem State.setPort_regWrites : (s.setPort p x).regWrites = s.regWrites := rfl
@[simp] theorem State.setPort_flash : (s.setPort p x).flash = s.flash := rfl
@[simp] theorem State.setPort_clock : (s.setPort p x).clock = s.clock := rfl
@[simp] theorem State.setPort_fuses : (s.setPort p x).fuses = s.fuses := rfl
@[simp] theorem State.setPort_pins : (s.setPort p x).pins = s.pins := rfl
@[simp] theorem State.setPort_hbm : (s.setPort p x).hbm = s.hbm := rfl
@[simp] theorem State.setPort_link : (s.setPort p x).link = s.link := rfl
@[simp] theorem State.setPort_rings : (s.setPort p x).rings = s.rings := rfl
@[simp] theorem State.setPort_reqs : (s.setPort p x).reqs = s.reqs := rfl
@[simp] theorem State.setPort_passes : (s.setPort p x).passes = s.passes := rfl
@[simp] theorem State.setPort_tiles : (s.setPort p x).tiles = s.tiles := rfl
@[simp] theorem State.setPort_macros : (s.setPort p x).macros = s.macros := rfl
@[simp] theorem State.setPort_stuck : (s.setPort p x).stuck = s.stuck := rfl
@[simp] theorem State.setPort_mesh : (s.setPort p x).mesh = s.mesh := rfl
@[simp] theorem State.setPort_th : (s.setPort p x).th = s.th := rfl
@[simp] theorem State.setPort_audit : (s.setPort p x).audit = s.audit := rfl
@[simp] theorem State.setPort_errs : (s.setPort p x).errs = s.errs := rfl
@[simp] theorem State.setPort_park : (s.setPort p x).park = s.park := rfl
@[simp] theorem State.setPort_power : (s.setPort p x).power = s.power := rfl
@[simp] theorem State.setPort_sleep : (s.setPort p x).sleep = s.sleep := rfl
@[simp] theorem State.setPort_sec : (s.setPort p x).sec = s.sec := rfl
@[simp] theorem State.setPort_out : (s.setPort p x).out = s.out := rfl
@[simp] theorem State.setPort_free : (s.setPort p x).free = s.free := rfl
@[simp] theorem State.setPort_pending : (s.setPort p x).pending = s.pending := rfl
@[simp] theorem State.setPort_reg (j : Nat) : (s.setPort p x).reg j = s.reg j := rfl
@[simp] theorem State.setPort_regBits (j l k : Nat) : (s.setPort p x).regBits j l k = s.regBits j l k := rfl
@[simp] theorem State.setPort_regBit (j l : Nat) : (s.setPort p x).regBit j l = s.regBit j l := rfl
@[simp] theorem State.setPort_tile (k : Nat) : (s.setPort p x).tile k = s.tile k := rfl
@[simp] theorem State.setPort_mac (k j : Nat) : (s.setPort p x).mac k j = s.mac k j := rfl
@[simp] theorem State.setPort_thUnit (k : Nat) : (s.setPort p x).thUnit k = s.thUnit k := rfl
@[simp] theorem State.setPort_evtPin (k : Nat) : (s.setPort p x).evtPin k = s.evtPin k := rfl
@[simp] theorem State.setPort_request (k : Nat) : (s.setPort p x).req? k = s.req? k := rfl
@[simp] theorem State.setPort_now : (s.setPort p x).now = s.now := rfl
@[simp] theorem State.setPort_stopped : (s.setPort p x).stopped = s.stopped := rfl
@[simp] theorem State.setPort_memBytes (k j : Nat) : (s.setPort p x).memBytes k j = s.memBytes k j := rfl
@[simp] theorem State.setPort_hostBytes (k j : Nat) : (s.setPort p x).hostBytes k j = s.hostBytes k j := rfl
end

section
variable (s : State) (i : Nat) (x : EvtPin)
@[simp] theorem State.setEvtPin_regs : (s.setEvtPin i x).regs = s.regs := rfl
@[simp] theorem State.setEvtPin_latches : (s.setEvtPin i x).latches = s.latches := rfl
@[simp] theorem State.setEvtPin_holds : (s.setEvtPin i x).holds = s.holds := rfl
@[simp] theorem State.setEvtPin_mem : (s.setEvtPin i x).mem = s.mem := rfl
@[simp] theorem State.setEvtPin_host : (s.setEvtPin i x).host = s.host := rfl
@[simp] theorem State.setEvtPin_hostBad : (s.setEvtPin i x).hostBad = s.hostBad := rfl
@[simp] theorem State.setEvtPin_regWrites : (s.setEvtPin i x).regWrites = s.regWrites := rfl
@[simp] theorem State.setEvtPin_flash : (s.setEvtPin i x).flash = s.flash := rfl
@[simp] theorem State.setEvtPin_clock : (s.setEvtPin i x).clock = s.clock := rfl
@[simp] theorem State.setEvtPin_fuses : (s.setEvtPin i x).fuses = s.fuses := rfl
@[simp] theorem State.setEvtPin_pins : (s.setEvtPin i x).pins = s.pins := rfl
@[simp] theorem State.setEvtPin_hbm : (s.setEvtPin i x).hbm = s.hbm := rfl
@[simp] theorem State.setEvtPin_link : (s.setEvtPin i x).link = s.link := rfl
@[simp] theorem State.setEvtPin_rings : (s.setEvtPin i x).rings = s.rings := rfl
@[simp] theorem State.setEvtPin_reqs : (s.setEvtPin i x).reqs = s.reqs := rfl
@[simp] theorem State.setEvtPin_passes : (s.setEvtPin i x).passes = s.passes := rfl
@[simp] theorem State.setEvtPin_tiles : (s.setEvtPin i x).tiles = s.tiles := rfl
@[simp] theorem State.setEvtPin_macros : (s.setEvtPin i x).macros = s.macros := rfl
@[simp] theorem State.setEvtPin_stuck : (s.setEvtPin i x).stuck = s.stuck := rfl
@[simp] theorem State.setEvtPin_mesh : (s.setEvtPin i x).mesh = s.mesh := rfl
@[simp] theorem State.setEvtPin_th : (s.setEvtPin i x).th = s.th := rfl
@[simp] theorem State.setEvtPin_audit : (s.setEvtPin i x).audit = s.audit := rfl
@[simp] theorem State.setEvtPin_errs : (s.setEvtPin i x).errs = s.errs := rfl
@[simp] theorem State.setEvtPin_park : (s.setEvtPin i x).park = s.park := rfl
@[simp] theorem State.setEvtPin_ix : (s.setEvtPin i x).ix = s.ix := rfl
@[simp] theorem State.setEvtPin_power : (s.setEvtPin i x).power = s.power := rfl
@[simp] theorem State.setEvtPin_sec : (s.setEvtPin i x).sec = s.sec := rfl
@[simp] theorem State.setEvtPin_out : (s.setEvtPin i x).out = s.out := rfl
@[simp] theorem State.setEvtPin_free : (s.setEvtPin i x).free = s.free := rfl
@[simp] theorem State.setEvtPin_pending : (s.setEvtPin i x).pending = s.pending := rfl
@[simp] theorem State.setEvtPin_reg (j : Nat) : (s.setEvtPin i x).reg j = s.reg j := rfl
@[simp] theorem State.setEvtPin_regBits (j l k : Nat) : (s.setEvtPin i x).regBits j l k = s.regBits j l k := rfl
@[simp] theorem State.setEvtPin_regBit (j l : Nat) : (s.setEvtPin i x).regBit j l = s.regBit j l := rfl
@[simp] theorem State.setEvtPin_tile (k : Nat) : (s.setEvtPin i x).tile k = s.tile k := rfl
@[simp] theorem State.setEvtPin_mac (k j : Nat) : (s.setEvtPin i x).mac k j = s.mac k j := rfl
@[simp] theorem State.setEvtPin_thUnit (k : Nat) : (s.setEvtPin i x).thUnit k = s.thUnit k := rfl
@[simp] theorem State.setEvtPin_port (k : Nat) : (s.setEvtPin i x).port k = s.port k := rfl
@[simp] theorem State.setEvtPin_request (k : Nat) : (s.setEvtPin i x).req? k = s.req? k := rfl
@[simp] theorem State.setEvtPin_now : (s.setEvtPin i x).now = s.now := rfl
@[simp] theorem State.setEvtPin_stopped : (s.setEvtPin i x).stopped = s.stopped := rfl
@[simp] theorem State.setEvtPin_memBytes (k j : Nat) : (s.setEvtPin i x).memBytes k j = s.memBytes k j := rfl
@[simp] theorem State.setEvtPin_hostBytes (k j : Nat) : (s.setEvtPin i x).hostBytes k j = s.hostBytes k j := rfl
end

section
variable (s : State) (i : Nat) (r : Request)
@[simp] theorem State.setReq_regs : (s.setReq i r).regs = s.regs := rfl
@[simp] theorem State.setReq_latches : (s.setReq i r).latches = s.latches := rfl
@[simp] theorem State.setReq_holds : (s.setReq i r).holds = s.holds := rfl
@[simp] theorem State.setReq_mem : (s.setReq i r).mem = s.mem := rfl
@[simp] theorem State.setReq_host : (s.setReq i r).host = s.host := rfl
@[simp] theorem State.setReq_hostBad : (s.setReq i r).hostBad = s.hostBad := rfl
@[simp] theorem State.setReq_regWrites : (s.setReq i r).regWrites = s.regWrites := rfl
@[simp] theorem State.setReq_flash : (s.setReq i r).flash = s.flash := rfl
@[simp] theorem State.setReq_clock : (s.setReq i r).clock = s.clock := rfl
@[simp] theorem State.setReq_fuses : (s.setReq i r).fuses = s.fuses := rfl
@[simp] theorem State.setReq_pins : (s.setReq i r).pins = s.pins := rfl
@[simp] theorem State.setReq_hbm : (s.setReq i r).hbm = s.hbm := rfl
@[simp] theorem State.setReq_link : (s.setReq i r).link = s.link := rfl
@[simp] theorem State.setReq_rings : (s.setReq i r).rings = s.rings := rfl
@[simp] theorem State.setReq_passes : (s.setReq i r).passes = s.passes := rfl
@[simp] theorem State.setReq_tiles : (s.setReq i r).tiles = s.tiles := rfl
@[simp] theorem State.setReq_macros : (s.setReq i r).macros = s.macros := rfl
@[simp] theorem State.setReq_stuck : (s.setReq i r).stuck = s.stuck := rfl
@[simp] theorem State.setReq_mesh : (s.setReq i r).mesh = s.mesh := rfl
@[simp] theorem State.setReq_th : (s.setReq i r).th = s.th := rfl
@[simp] theorem State.setReq_audit : (s.setReq i r).audit = s.audit := rfl
@[simp] theorem State.setReq_errs : (s.setReq i r).errs = s.errs := rfl
@[simp] theorem State.setReq_park : (s.setReq i r).park = s.park := rfl
@[simp] theorem State.setReq_ix : (s.setReq i r).ix = s.ix := rfl
@[simp] theorem State.setReq_power : (s.setReq i r).power = s.power := rfl
@[simp] theorem State.setReq_sleep : (s.setReq i r).sleep = s.sleep := rfl
@[simp] theorem State.setReq_sec : (s.setReq i r).sec = s.sec := rfl
@[simp] theorem State.setReq_out : (s.setReq i r).out = s.out := rfl
@[simp] theorem State.setReq_free : (s.setReq i r).free = s.free := rfl
@[simp] theorem State.setReq_pending : (s.setReq i r).pending = s.pending := rfl
@[simp] theorem State.setReq_reg (j : Nat) : (s.setReq i r).reg j = s.reg j := rfl
@[simp] theorem State.setReq_regBits (j l k : Nat) : (s.setReq i r).regBits j l k = s.regBits j l k := rfl
@[simp] theorem State.setReq_regBit (j l : Nat) : (s.setReq i r).regBit j l = s.regBit j l := rfl
@[simp] theorem State.setReq_tile (k : Nat) : (s.setReq i r).tile k = s.tile k := rfl
@[simp] theorem State.setReq_mac (k j : Nat) : (s.setReq i r).mac k j = s.mac k j := rfl
@[simp] theorem State.setReq_thUnit (k : Nat) : (s.setReq i r).thUnit k = s.thUnit k := rfl
@[simp] theorem State.setReq_port (k : Nat) : (s.setReq i r).port k = s.port k := rfl
@[simp] theorem State.setReq_evtPin (k : Nat) : (s.setReq i r).evtPin k = s.evtPin k := rfl
@[simp] theorem State.setReq_now : (s.setReq i r).now = s.now := rfl
@[simp] theorem State.setReq_stopped : (s.setReq i r).stopped = s.stopped := rfl
@[simp] theorem State.setReq_memBytes (k j : Nat) : (s.setReq i r).memBytes k j = s.memBytes k j := rfl
@[simp] theorem State.setReq_hostBytes (k j : Nat) : (s.setReq i r).hostBytes k j = s.hostBytes k j := rfl
end

section
variable (s : State) (a : Nat) (bs : List Byte)
@[simp] theorem State.setMemBytes_regs : (s.setMemBytes a bs).regs = s.regs := rfl
@[simp] theorem State.setMemBytes_latches : (s.setMemBytes a bs).latches = s.latches := rfl
@[simp] theorem State.setMemBytes_holds : (s.setMemBytes a bs).holds = s.holds := rfl
@[simp] theorem State.setMemBytes_host : (s.setMemBytes a bs).host = s.host := rfl
@[simp] theorem State.setMemBytes_hostBad : (s.setMemBytes a bs).hostBad = s.hostBad := rfl
@[simp] theorem State.setMemBytes_regWrites : (s.setMemBytes a bs).regWrites = s.regWrites := rfl
@[simp] theorem State.setMemBytes_flash : (s.setMemBytes a bs).flash = s.flash := rfl
@[simp] theorem State.setMemBytes_clock : (s.setMemBytes a bs).clock = s.clock := rfl
@[simp] theorem State.setMemBytes_fuses : (s.setMemBytes a bs).fuses = s.fuses := rfl
@[simp] theorem State.setMemBytes_pins : (s.setMemBytes a bs).pins = s.pins := rfl
@[simp] theorem State.setMemBytes_hbm : (s.setMemBytes a bs).hbm = s.hbm := rfl
@[simp] theorem State.setMemBytes_link : (s.setMemBytes a bs).link = s.link := rfl
@[simp] theorem State.setMemBytes_rings : (s.setMemBytes a bs).rings = s.rings := rfl
@[simp] theorem State.setMemBytes_reqs : (s.setMemBytes a bs).reqs = s.reqs := rfl
@[simp] theorem State.setMemBytes_passes : (s.setMemBytes a bs).passes = s.passes := rfl
@[simp] theorem State.setMemBytes_tiles : (s.setMemBytes a bs).tiles = s.tiles := rfl
@[simp] theorem State.setMemBytes_macros : (s.setMemBytes a bs).macros = s.macros := rfl
@[simp] theorem State.setMemBytes_stuck : (s.setMemBytes a bs).stuck = s.stuck := rfl
@[simp] theorem State.setMemBytes_mesh : (s.setMemBytes a bs).mesh = s.mesh := rfl
@[simp] theorem State.setMemBytes_th : (s.setMemBytes a bs).th = s.th := rfl
@[simp] theorem State.setMemBytes_audit : (s.setMemBytes a bs).audit = s.audit := rfl
@[simp] theorem State.setMemBytes_errs : (s.setMemBytes a bs).errs = s.errs := rfl
@[simp] theorem State.setMemBytes_park : (s.setMemBytes a bs).park = s.park := rfl
@[simp] theorem State.setMemBytes_ix : (s.setMemBytes a bs).ix = s.ix := rfl
@[simp] theorem State.setMemBytes_power : (s.setMemBytes a bs).power = s.power := rfl
@[simp] theorem State.setMemBytes_sleep : (s.setMemBytes a bs).sleep = s.sleep := rfl
@[simp] theorem State.setMemBytes_sec : (s.setMemBytes a bs).sec = s.sec := rfl
@[simp] theorem State.setMemBytes_out : (s.setMemBytes a bs).out = s.out := rfl
@[simp] theorem State.setMemBytes_free : (s.setMemBytes a bs).free = s.free := rfl
@[simp] theorem State.setMemBytes_pending : (s.setMemBytes a bs).pending = s.pending := rfl
@[simp] theorem State.setMemBytes_reg (j : Nat) : (s.setMemBytes a bs).reg j = s.reg j := rfl
@[simp] theorem State.setMemBytes_regBits (j l k : Nat) : (s.setMemBytes a bs).regBits j l k = s.regBits j l k := rfl
@[simp] theorem State.setMemBytes_regBit (j l : Nat) : (s.setMemBytes a bs).regBit j l = s.regBit j l := rfl
@[simp] theorem State.setMemBytes_tile (k : Nat) : (s.setMemBytes a bs).tile k = s.tile k := rfl
@[simp] theorem State.setMemBytes_mac (k j : Nat) : (s.setMemBytes a bs).mac k j = s.mac k j := rfl
@[simp] theorem State.setMemBytes_thUnit (k : Nat) : (s.setMemBytes a bs).thUnit k = s.thUnit k := rfl
@[simp] theorem State.setMemBytes_port (k : Nat) : (s.setMemBytes a bs).port k = s.port k := rfl
@[simp] theorem State.setMemBytes_evtPin (k : Nat) : (s.setMemBytes a bs).evtPin k = s.evtPin k := rfl
@[simp] theorem State.setMemBytes_request (k : Nat) : (s.setMemBytes a bs).req? k = s.req? k := rfl
@[simp] theorem State.setMemBytes_now : (s.setMemBytes a bs).now = s.now := rfl
@[simp] theorem State.setMemBytes_stopped : (s.setMemBytes a bs).stopped = s.stopped := rfl
@[simp] theorem State.setMemBytes_hostBytes (k j : Nat) : (s.setMemBytes a bs).hostBytes k j = s.hostBytes k j := rfl
end

section
variable (s : State) (a n v : Nat)
@[simp] theorem State.setMemNat_regs : (s.setMemNat a n v).regs = s.regs := rfl
@[simp] theorem State.setMemNat_latches : (s.setMemNat a n v).latches = s.latches := rfl
@[simp] theorem State.setMemNat_holds : (s.setMemNat a n v).holds = s.holds := rfl
@[simp] theorem State.setMemNat_host : (s.setMemNat a n v).host = s.host := rfl
@[simp] theorem State.setMemNat_hostBad : (s.setMemNat a n v).hostBad = s.hostBad := rfl
@[simp] theorem State.setMemNat_regWrites : (s.setMemNat a n v).regWrites = s.regWrites := rfl
@[simp] theorem State.setMemNat_flash : (s.setMemNat a n v).flash = s.flash := rfl
@[simp] theorem State.setMemNat_clock : (s.setMemNat a n v).clock = s.clock := rfl
@[simp] theorem State.setMemNat_fuses : (s.setMemNat a n v).fuses = s.fuses := rfl
@[simp] theorem State.setMemNat_pins : (s.setMemNat a n v).pins = s.pins := rfl
@[simp] theorem State.setMemNat_hbm : (s.setMemNat a n v).hbm = s.hbm := rfl
@[simp] theorem State.setMemNat_link : (s.setMemNat a n v).link = s.link := rfl
@[simp] theorem State.setMemNat_rings : (s.setMemNat a n v).rings = s.rings := rfl
@[simp] theorem State.setMemNat_reqs : (s.setMemNat a n v).reqs = s.reqs := rfl
@[simp] theorem State.setMemNat_passes : (s.setMemNat a n v).passes = s.passes := rfl
@[simp] theorem State.setMemNat_tiles : (s.setMemNat a n v).tiles = s.tiles := rfl
@[simp] theorem State.setMemNat_macros : (s.setMemNat a n v).macros = s.macros := rfl
@[simp] theorem State.setMemNat_stuck : (s.setMemNat a n v).stuck = s.stuck := rfl
@[simp] theorem State.setMemNat_mesh : (s.setMemNat a n v).mesh = s.mesh := rfl
@[simp] theorem State.setMemNat_th : (s.setMemNat a n v).th = s.th := rfl
@[simp] theorem State.setMemNat_audit : (s.setMemNat a n v).audit = s.audit := rfl
@[simp] theorem State.setMemNat_errs : (s.setMemNat a n v).errs = s.errs := rfl
@[simp] theorem State.setMemNat_park : (s.setMemNat a n v).park = s.park := rfl
@[simp] theorem State.setMemNat_ix : (s.setMemNat a n v).ix = s.ix := rfl
@[simp] theorem State.setMemNat_power : (s.setMemNat a n v).power = s.power := rfl
@[simp] theorem State.setMemNat_sleep : (s.setMemNat a n v).sleep = s.sleep := rfl
@[simp] theorem State.setMemNat_sec : (s.setMemNat a n v).sec = s.sec := rfl
@[simp] theorem State.setMemNat_out : (s.setMemNat a n v).out = s.out := rfl
@[simp] theorem State.setMemNat_free : (s.setMemNat a n v).free = s.free := rfl
@[simp] theorem State.setMemNat_pending : (s.setMemNat a n v).pending = s.pending := rfl
@[simp] theorem State.setMemNat_reg (j : Nat) : (s.setMemNat a n v).reg j = s.reg j := rfl
@[simp] theorem State.setMemNat_regBits (j l k : Nat) : (s.setMemNat a n v).regBits j l k = s.regBits j l k := rfl
@[simp] theorem State.setMemNat_regBit (j l : Nat) : (s.setMemNat a n v).regBit j l = s.regBit j l := rfl
@[simp] theorem State.setMemNat_tile (k : Nat) : (s.setMemNat a n v).tile k = s.tile k := rfl
@[simp] theorem State.setMemNat_mac (k j : Nat) : (s.setMemNat a n v).mac k j = s.mac k j := rfl
@[simp] theorem State.setMemNat_thUnit (k : Nat) : (s.setMemNat a n v).thUnit k = s.thUnit k := rfl
@[simp] theorem State.setMemNat_port (k : Nat) : (s.setMemNat a n v).port k = s.port k := rfl
@[simp] theorem State.setMemNat_evtPin (k : Nat) : (s.setMemNat a n v).evtPin k = s.evtPin k := rfl
@[simp] theorem State.setMemNat_request (k : Nat) : (s.setMemNat a n v).req? k = s.req? k := rfl
@[simp] theorem State.setMemNat_now : (s.setMemNat a n v).now = s.now := rfl
@[simp] theorem State.setMemNat_stopped : (s.setMemNat a n v).stopped = s.stopped := rfl
@[simp] theorem State.setMemNat_hostBytes (k j : Nat) : (s.setMemNat a n v).hostBytes k j = s.hostBytes k j := rfl
end

section
variable (s : State) (a : Nat) (bs : List Byte)
@[simp] theorem State.setHostBytes_regs : (s.setHostBytes a bs).regs = s.regs := rfl
@[simp] theorem State.setHostBytes_latches : (s.setHostBytes a bs).latches = s.latches := rfl
@[simp] theorem State.setHostBytes_holds : (s.setHostBytes a bs).holds = s.holds := rfl
@[simp] theorem State.setHostBytes_mem : (s.setHostBytes a bs).mem = s.mem := rfl
@[simp] theorem State.setHostBytes_hostBad : (s.setHostBytes a bs).hostBad = s.hostBad := rfl
@[simp] theorem State.setHostBytes_regWrites : (s.setHostBytes a bs).regWrites = s.regWrites := rfl
@[simp] theorem State.setHostBytes_flash : (s.setHostBytes a bs).flash = s.flash := rfl
@[simp] theorem State.setHostBytes_clock : (s.setHostBytes a bs).clock = s.clock := rfl
@[simp] theorem State.setHostBytes_fuses : (s.setHostBytes a bs).fuses = s.fuses := rfl
@[simp] theorem State.setHostBytes_pins : (s.setHostBytes a bs).pins = s.pins := rfl
@[simp] theorem State.setHostBytes_hbm : (s.setHostBytes a bs).hbm = s.hbm := rfl
@[simp] theorem State.setHostBytes_link : (s.setHostBytes a bs).link = s.link := rfl
@[simp] theorem State.setHostBytes_rings : (s.setHostBytes a bs).rings = s.rings := rfl
@[simp] theorem State.setHostBytes_reqs : (s.setHostBytes a bs).reqs = s.reqs := rfl
@[simp] theorem State.setHostBytes_passes : (s.setHostBytes a bs).passes = s.passes := rfl
@[simp] theorem State.setHostBytes_tiles : (s.setHostBytes a bs).tiles = s.tiles := rfl
@[simp] theorem State.setHostBytes_macros : (s.setHostBytes a bs).macros = s.macros := rfl
@[simp] theorem State.setHostBytes_stuck : (s.setHostBytes a bs).stuck = s.stuck := rfl
@[simp] theorem State.setHostBytes_mesh : (s.setHostBytes a bs).mesh = s.mesh := rfl
@[simp] theorem State.setHostBytes_th : (s.setHostBytes a bs).th = s.th := rfl
@[simp] theorem State.setHostBytes_audit : (s.setHostBytes a bs).audit = s.audit := rfl
@[simp] theorem State.setHostBytes_errs : (s.setHostBytes a bs).errs = s.errs := rfl
@[simp] theorem State.setHostBytes_park : (s.setHostBytes a bs).park = s.park := rfl
@[simp] theorem State.setHostBytes_ix : (s.setHostBytes a bs).ix = s.ix := rfl
@[simp] theorem State.setHostBytes_power : (s.setHostBytes a bs).power = s.power := rfl
@[simp] theorem State.setHostBytes_sleep : (s.setHostBytes a bs).sleep = s.sleep := rfl
@[simp] theorem State.setHostBytes_sec : (s.setHostBytes a bs).sec = s.sec := rfl
@[simp] theorem State.setHostBytes_out : (s.setHostBytes a bs).out = s.out := rfl
@[simp] theorem State.setHostBytes_free : (s.setHostBytes a bs).free = s.free := rfl
@[simp] theorem State.setHostBytes_pending : (s.setHostBytes a bs).pending = s.pending := rfl
@[simp] theorem State.setHostBytes_reg (j : Nat) : (s.setHostBytes a bs).reg j = s.reg j := rfl
@[simp] theorem State.setHostBytes_regBits (j l k : Nat) : (s.setHostBytes a bs).regBits j l k = s.regBits j l k := rfl
@[simp] theorem State.setHostBytes_regBit (j l : Nat) : (s.setHostBytes a bs).regBit j l = s.regBit j l := rfl
@[simp] theorem State.setHostBytes_tile (k : Nat) : (s.setHostBytes a bs).tile k = s.tile k := rfl
@[simp] theorem State.setHostBytes_mac (k j : Nat) : (s.setHostBytes a bs).mac k j = s.mac k j := rfl
@[simp] theorem State.setHostBytes_thUnit (k : Nat) : (s.setHostBytes a bs).thUnit k = s.thUnit k := rfl
@[simp] theorem State.setHostBytes_port (k : Nat) : (s.setHostBytes a bs).port k = s.port k := rfl
@[simp] theorem State.setHostBytes_evtPin (k : Nat) : (s.setHostBytes a bs).evtPin k = s.evtPin k := rfl
@[simp] theorem State.setHostBytes_request (k : Nat) : (s.setHostBytes a bs).req? k = s.req? k := rfl
@[simp] theorem State.setHostBytes_now : (s.setHostBytes a bs).now = s.now := rfl
@[simp] theorem State.setHostBytes_stopped : (s.setHostBytes a bs).stopped = s.stopped := rfl
@[simp] theorem State.setHostBytes_memBytes (k j : Nat) : (s.setHostBytes a bs).memBytes k j = s.memBytes k j := rfl
end

section
variable (s : State) (lo hi : Nat)
@[simp] theorem State.clearMem_regs : (s.clearMem lo hi).regs = s.regs := rfl
@[simp] theorem State.clearMem_latches : (s.clearMem lo hi).latches = s.latches := rfl
@[simp] theorem State.clearMem_holds : (s.clearMem lo hi).holds = s.holds := rfl
@[simp] theorem State.clearMem_host : (s.clearMem lo hi).host = s.host := rfl
@[simp] theorem State.clearMem_hostBad : (s.clearMem lo hi).hostBad = s.hostBad := rfl
@[simp] theorem State.clearMem_regWrites : (s.clearMem lo hi).regWrites = s.regWrites := rfl
@[simp] theorem State.clearMem_flash : (s.clearMem lo hi).flash = s.flash := rfl
@[simp] theorem State.clearMem_clock : (s.clearMem lo hi).clock = s.clock := rfl
@[simp] theorem State.clearMem_fuses : (s.clearMem lo hi).fuses = s.fuses := rfl
@[simp] theorem State.clearMem_pins : (s.clearMem lo hi).pins = s.pins := rfl
@[simp] theorem State.clearMem_hbm : (s.clearMem lo hi).hbm = s.hbm := rfl
@[simp] theorem State.clearMem_link : (s.clearMem lo hi).link = s.link := rfl
@[simp] theorem State.clearMem_rings : (s.clearMem lo hi).rings = s.rings := rfl
@[simp] theorem State.clearMem_reqs : (s.clearMem lo hi).reqs = s.reqs := rfl
@[simp] theorem State.clearMem_passes : (s.clearMem lo hi).passes = s.passes := rfl
@[simp] theorem State.clearMem_tiles : (s.clearMem lo hi).tiles = s.tiles := rfl
@[simp] theorem State.clearMem_macros : (s.clearMem lo hi).macros = s.macros := rfl
@[simp] theorem State.clearMem_stuck : (s.clearMem lo hi).stuck = s.stuck := rfl
@[simp] theorem State.clearMem_mesh : (s.clearMem lo hi).mesh = s.mesh := rfl
@[simp] theorem State.clearMem_th : (s.clearMem lo hi).th = s.th := rfl
@[simp] theorem State.clearMem_audit : (s.clearMem lo hi).audit = s.audit := rfl
@[simp] theorem State.clearMem_errs : (s.clearMem lo hi).errs = s.errs := rfl
@[simp] theorem State.clearMem_park : (s.clearMem lo hi).park = s.park := rfl
@[simp] theorem State.clearMem_ix : (s.clearMem lo hi).ix = s.ix := rfl
@[simp] theorem State.clearMem_power : (s.clearMem lo hi).power = s.power := rfl
@[simp] theorem State.clearMem_sleep : (s.clearMem lo hi).sleep = s.sleep := rfl
@[simp] theorem State.clearMem_sec : (s.clearMem lo hi).sec = s.sec := rfl
@[simp] theorem State.clearMem_out : (s.clearMem lo hi).out = s.out := rfl
@[simp] theorem State.clearMem_free : (s.clearMem lo hi).free = s.free := rfl
@[simp] theorem State.clearMem_pending : (s.clearMem lo hi).pending = s.pending := rfl
@[simp] theorem State.clearMem_reg (j : Nat) : (s.clearMem lo hi).reg j = s.reg j := rfl
@[simp] theorem State.clearMem_regBits (j l k : Nat) : (s.clearMem lo hi).regBits j l k = s.regBits j l k := rfl
@[simp] theorem State.clearMem_regBit (j l : Nat) : (s.clearMem lo hi).regBit j l = s.regBit j l := rfl
@[simp] theorem State.clearMem_tile (k : Nat) : (s.clearMem lo hi).tile k = s.tile k := rfl
@[simp] theorem State.clearMem_mac (k j : Nat) : (s.clearMem lo hi).mac k j = s.mac k j := rfl
@[simp] theorem State.clearMem_thUnit (k : Nat) : (s.clearMem lo hi).thUnit k = s.thUnit k := rfl
@[simp] theorem State.clearMem_port (k : Nat) : (s.clearMem lo hi).port k = s.port k := rfl
@[simp] theorem State.clearMem_evtPin (k : Nat) : (s.clearMem lo hi).evtPin k = s.evtPin k := rfl
@[simp] theorem State.clearMem_request (k : Nat) : (s.clearMem lo hi).req? k = s.req? k := rfl
@[simp] theorem State.clearMem_now : (s.clearMem lo hi).now = s.now := rfl
@[simp] theorem State.clearMem_stopped : (s.clearMem lo hi).stopped = s.stopped := rfl
@[simp] theorem State.clearMem_hostBytes (k j : Nat) : (s.clearMem lo hi).hostBytes k j = s.hostBytes k j := rfl
end

/-! ### What an update writes -/

/-- A register reads as what was written to it, modulo 2^32. -/
@[simp] theorem State.reg_setReg_same (s : State) (off v : Nat) : (s.setReg off v).reg off = v % 2 ^ 32 := by
  simp [State.reg, State.setReg]

/-- A register write leaves every other register alone. -/
theorem State.reg_setReg_other (s : State) {off o : Nat} (v : Nat) (h : o ≠ off) :
    (s.setReg off v).reg o = s.reg o := by
  simp only [State.reg, State.setReg, sget_sput_other _ _ _ h]

/-- The read of one register after the write of one. -/
theorem State.reg_setReg (s : State) (off o v : Nat) :
    (s.setReg off v).reg o = if o = off then v % 2 ^ 32 else s.reg o := by
  split
  · next h => subst h; exact s.reg_setReg_same o v
  · next h => exact s.reg_setReg_other v h

/-- A register is a 32-bit word. -/
theorem State.reg_lt (s : State) (off : Nat) : s.reg off < 2 ^ 32 := (sget Regs.resetWord s.regs off).isLt

/-- A tally adds, modulo 2^32. -/
theorem State.reg_tally (s : State) (off o n : Nat) :
    (s.tally off n).reg o = if o = off then (s.reg off + n) % 2 ^ 32 else s.reg o := s.reg_setReg off o _

/-- A tally of what is held now falls, modulo 2^32. -/
theorem State.reg_untally (s : State) (off o n : Nat) :
    (s.untally off n).reg o = if o = off then (2 ^ 32 - n % 2 ^ 32 + s.reg off) % 2 ^ 32 else s.reg o := by
  rw [State.untally, State.reg_setReg]

theorem State.reg_setRegBit (s : State) (off o i : Nat) (b : Bool) :
    (s.setRegBit off i b).reg o = if o = off then putBit (s.reg off) i b % 2 ^ 32 else s.reg o :=
  s.reg_setReg off o _

theorem State.reg_setRegBits (s : State) (off o lo n x : Nat) :
    (s.setRegBits off lo n x).reg o = if o = off then putBits (s.reg off) lo n x % 2 ^ 32 else s.reg o :=
  s.reg_setReg off o _

/-- A 64-bit register reads as what was written to it, modulo 2^64. -/
@[simp] theorem State.reg64_setReg64_same (s : State) (off v : Nat) : (s.setReg64 off v).reg64 off = v % 2 ^ 64 := by
  simp only [State.reg64, State.setReg64, State.reg_setReg]
  rw [if_neg (by omega), if_pos trivial, if_pos trivial]
  omega

theorem State.reg_setReg64 (s : State) (off v o : Nat) : (s.setReg64 off v).reg o =
    if o = off + 4 then v / 2 ^ 32 % 2 ^ 32 else if o = off then v % 2 ^ 32 else s.reg o := by
  simp only [State.setReg64, State.reg_setReg]

/-- A field of a register just written, and a bit. -/
@[simp] theorem State.regBits_setRegBits_same (s : State) (off lo n x : Nat) (h : lo + n ≤ 32) :
    (s.setRegBits off lo n x).regBits off lo n = x % 2 ^ n := by
  simp only [State.regBits, State.reg_setRegBits, if_true]
  rw [Nat.mod_eq_of_lt (putBits_lt _ _ _ _ _ (s.reg_lt off) h), bitsAt_putBits_same]

theorem State.regBit_setRegBit (s : State) (off i o j : Nat) (b : Bool) (h : i < 32) :
    (s.setRegBit off i b).regBit o j = if o = off ∧ j = i then b else s.regBit o j := by
  simp only [State.regBit, State.reg_setRegBit]
  by_cases ho : o = off
  · subst ho
    have : putBit (s.reg o) i b < 2 ^ 32 := putBits_lt _ _ _ _ _ (s.reg_lt o) (by omega)
    rw [if_pos rfl, Nat.mod_eq_of_lt this, testBit_putBit]
    simp
  · simp [ho]

theorem State.regBit_congr {s t : State} {o : Nat} (i : Nat) (h : t.reg o = s.reg o) : t.regBit o i = s.regBit o i := by
  simp [State.regBit, h]

theorem State.regBits_congr {s t : State} {o : Nat} (i n : Nat) (h : t.reg o = s.reg o) :
    t.regBits o i n = s.regBits o i n := by simp [State.regBits, h]

@[simp] theorem State.tile_setTile_same (s : State) (n : Nat) (t : Tile) : (s.setTile n t).tile n = t := by
  simp [State.tile, State.setTile]

theorem State.tile_setTile_other (s : State) {n k : Nat} (t : Tile) (h : k ≠ n) :
    (s.setTile n t).tile k = s.tile k := by
  simp only [State.tile, State.setTile, sget_sput_other _ _ _ h]

@[simp] theorem State.tile_updTile_same (s : State) (n : Nat) (f : Tile → Tile) :
    (s.updTile n f).tile n = f (s.tile n) := s.tile_setTile_same n _

theorem State.tile_updTile_other (s : State) {n k : Nat} (f : Tile → Tile) (h : k ≠ n) :
    (s.updTile n f).tile k = s.tile k := s.tile_setTile_other _ h

@[simp] theorem State.mac_setMac_same (s : State) (n m : Nat) (x : Macro) : (s.setMac n m x).mac n m = x := by
  simp [State.mac, State.setMac]

@[simp] theorem State.thUnit_setTh_same (s : State) (u : Nat) (x : ThUnit) : (s.setTh u x).thUnit u = x := by
  simp [State.thUnit, State.setTh]

theorem State.thUnit_setTh_other (s : State) {u k : Nat} (x : ThUnit) (h : k ≠ u) :
    (s.setTh u x).thUnit k = s.thUnit k := by
  simp only [State.thUnit, State.setTh, sget_sput_other _ _ _ h]

@[simp] theorem State.port_setPort_same (s : State) (p : Nat) (x : IxPort) : (s.setPort p x).port p = x := by
  simp [State.port, State.setPort]

theorem State.port_setPort_other (s : State) {p k : Nat} (x : IxPort) (h : k ≠ p) :
    (s.setPort p x).port k = s.port k := by
  simp only [State.port, State.setPort, sget_sput_other _ _ _ h]

@[simp] theorem State.evtPin_setEvtPin_same (s : State) (i : Nat) (x : EvtPin) :
    (s.setEvtPin i x).evtPin i = x := by
  simp [State.evtPin, State.setEvtPin]

theorem State.evtPin_setEvtPin_other (s : State) {i k : Nat} (x : EvtPin) (h : k ≠ i) :
    (s.setEvtPin i x).evtPin k = s.evtPin k := by
  simp only [State.evtPin, State.setEvtPin, sget_sput_other _ _ _ h]

@[simp] theorem State.req_setReq_same (s : State) (i : Nat) (r : Request) :
    (s.setReq i r).req? i = some r := by
  simp [State.req?, State.setReq]

theorem State.req_setReq_other (s : State) {i k : Nat} (r : Request) (h : k ≠ i) :
    (s.setReq i r).req? k = s.req? k := by
  simp only [State.req?, State.setReq, tget_sins_other _ _ h]

@[simp] theorem State.req_updReq_same (s : State) (i : Nat) (f : Request → Request) :
    (s.updReq i f).req? i = (s.req? i).map f := by
  unfold State.updReq
  cases h : s.req? i with
  | none => simp [h]
  | some r => simp

theorem State.req_updReq_other (s : State) {i k : Nat} (f : Request → Request) (h : k ≠ i) :
    (s.updReq i f).req? k = s.req? k := by
  unfold State.updReq
  cases s.req? i with
  | none => rfl
  | some r => exact s.req_setReq_other (f r) h

/-- Bytes stored read back. -/
@[simp] theorem State.memBytes_setMemBytes (s : State) (a : Nat) (bs : List Byte) :
    (s.setMemBytes a bs).memBytes a bs.length = bs := Memory.readBytes_storeBytes zeroByte s.mem a bs

@[simp] theorem State.hostBytes_setHostBytes (s : State) (a : Nat) (bs : List Byte) :
    (s.setHostBytes a bs).hostBytes a bs.length = bs := Memory.readBytes_storeBytes zeroByte s.host a bs

/-! ### Answers -/

/-- A command of a device that is not stopped answers its effect, with the queue, the fuses and the flash as they were. -/
theorem answer_running (s t : State) (h : s.stopped = false) :
    answer s t = .next { t with pending := s.pending, regWrites := s.regWrites, fuses := s.fuses, flash := s.flash } := by
  simp [answer, h]

theorem answerBurning_running (s t : State) (h : s.stopped = false) :
    answerBurning s t = .next { t with pending := s.pending, regWrites := s.regWrites } := by
  simp [answerBurning, h]

/-- The answer of a command whose effect leaves the queue, the fuses and the flash alone is its effect. -/
theorem answer_next (s t : State) (h : s.stopped = false) (hp : t.pending = s.pending) (hw : t.regWrites = s.regWrites) (hf : t.fuses = s.fuses)
    (hx : t.flash = s.flash) : answer s t = .next t := by
  rw [answer_running s t h, ← hp, ← hw, ← hf, ← hx]

/-- The same for a command that may burn fuses. -/
theorem answerBurning_next (s t : State) (h : s.stopped = false) (hp : t.pending = s.pending) (hw : t.regWrites = s.regWrites) :
    answerBurning s t = .next t := by
  rw [answerBurning_running s t h, ← hp, ← hw]

theorem answer_stopped (s t : State) (h : s.stopped = true) : answer s t = .next s := by
  simp [answer, h]

theorem answerBurning_stopped (s t : State) (h : s.stopped = true) : answerBurning s t = .next s := by
  simp [answerBurning, h]

@[simp] theorem State.when_true (s : State) (f : State → State) : s.when true f = f s := rfl
@[simp] theorem State.when_false (s : State) (f : State → State) : s.when false f = s := rfl

/-! ### The canonical form of the stores -/

theorem State.setReg_swf (s : State) (off v : Nat) (h : swf Regs.resetWord s.regs = true) :
    swf Regs.resetWord (s.setReg off v).regs = true := sput_swf _ _ _ _ h

theorem State.setMemBytes_wf (s : State) (a : Nat) (bs : List Byte) (h : Memory.wf s.mem = true) :
    Memory.wf (s.setMemBytes a bs).mem = true := Memory.storeBytes_swf zeroByte bs s.mem a h

theorem State.setHostBytes_wf (s : State) (a : Nat) (bs : List Byte) (h : Memory.wf s.host = true) :
    Memory.wf (s.setHostBytes a bs).host = true := Memory.storeBytes_swf zeroByte bs s.host a h

theorem State.clearMem_wf (s : State) (lo hi : Nat) (h : Memory.wf s.mem = true) :
    Memory.wf (s.clearMem lo hi).mem = true := Memory.erase_wf s.mem lo hi h

/-- The state after reset has every store in canonical form. -/
theorem State.reset_stores : Memory.wf State.reset.mem = true ∧ Memory.wf State.reset.host = true ∧
    swf erasedByte State.reset.flash = true ∧ swf Regs.resetWord State.reset.regs = true :=
  ⟨rfl, rfl, rfl, rfl⟩

end Sys2Proof.Machine
end

