-- ==== Sys2Proof/Laws/Shared.lean ====
section
/-! SUPPORT. What the shared operations can do, said once each: the fields they leave alone (as a record equation) and
the registers they leave alone (by block). -/

namespace Sys2Proof.Machine

/-! ### Blocks of registers -/

/-- The world ring blocks (R300). -/
def evRegs (off : Nat) : Prop := 0x8C0000 ≤ off ∧ off < 0x8C0200
/-- The MSI-X pending-bit array (R269). -/
def pbaRegs (off : Nat) : Prop := 0xA08000 ≤ off ∧ off < 0xA08100
/-- The error counters (R452). -/
def errRegs (off : Nat) : Prop := 0x9E0010 ≤ off ∧ off < 0x9E0058

/-- Two states with the same fields are the same. -/
theorem State.ext_fields {s t : State} (h0 : s.regs = t.regs) (h1 : s.latches = t.latches) (h2 : s.holds = t.holds) (h3 : s.mem = t.mem) (h4 : s.host = t.host) (h5 : s.hostBad = t.hostBad) (h6 : s.regWrites = t.regWrites) (h7 : s.flash = t.flash) (h8 : s.clock = t.clock) (h9 : s.fuses = t.fuses) (h10 : s.pins = t.pins) (h11 : s.hbm = t.hbm) (h12 : s.link = t.link) (h13 : s.rings = t.rings) (h14 : s.reqs = t.reqs) (h15 : s.passes = t.passes) (h16 : s.tiles = t.tiles) (h17 : s.macros = t.macros) (h18 : s.stuck = t.stuck) (h19 : s.mesh = t.mesh) (h20 : s.th = t.th) (h21 : s.audit = t.audit) (h22 : s.errs = t.errs) (h23 : s.park = t.park) (h24 : s.ix = t.ix) (h25 : s.power = t.power) (h26 : s.sleep = t.sleep) (h27 : s.sec = t.sec) (h28 : s.out = t.out) (h29 : s.free = t.free) (h30 : s.pending = t.pending) : s = t := by
  cases s; cases t; simp_all

theorem State.reg_congr {s t : State} (h : t.regs = s.regs) (off : Nat) : t.reg off = s.reg off := by
  simp [State.reg, h]

/-! ### Messages -/

theorem State.sendMsix_frame (s : State) (v : Nat) :
    s.sendMsix v = { s with regs := (s.sendMsix v).regs, out := (s.sendMsix v).out } := by
  unfold State.sendMsix; split <;> rfl

theorem State.sendMsix_reg (s : State) (v off : Nat) (hv : v < 2048) (h : ¬ pbaRegs off) :
    (s.sendMsix v).reg off = s.reg off := by
  unfold State.sendMsix
  split
  · rw [State.reg_setRegBit, if_neg]
    intro e
    apply h
    unfold pbaRegs
    unfold Off.pba at e
    omega
  · rfl

/-- A message whose vector and function are not masked is sent. -/
theorem State.sendMsix_open (s : State) (v : Nat) (hf : s.link.funcMask = false)
    (hm : s.regBit (Off.msix v 12) 0 = false) : s.sendMsix v = s.emit (.msix v) := by
  simp [State.sendMsix, hf, hm]

theorem ctrlVector_lt (x : Nat) : ctrlVector x < 2048 := Nat.mod_lt _ (by decide)

/-! ### Entries of the host-memory rings -/

theorem State.setCoal_frame (s : State) (r : RingId) (c t : Nat) :
    s.setCoal r c t = { s with rings := (s.setCoal r c t).rings } := rfl

theorem State.setCoal_reg (s : State) (r : RingId) (c t off : Nat) : (s.setCoal r c t).reg off = s.reg off := rfl

theorem State.signalRing_frame (s : State) (r : RingId) :
    s.signalRing r = { s with regs := (s.signalRing r).regs, rings := (s.signalRing r).rings, out := (s.signalRing r).out } := by
  unfold State.signalRing
  dsimp only
  split
  · rw [State.sendMsix_frame]
  · split
    · rw [State.sendMsix_frame]; rfl
    · rfl

theorem State.signalRing_reg (s : State) (r : RingId) (off : Nat) (h : ¬ pbaRegs off) :
    (s.signalRing r).reg off = s.reg off := by
  unfold State.signalRing
  dsimp only
  split
  · exact s.sendMsix_reg _ off (ctrlVector_lt _) h
  · split
    · rw [State.sendMsix_reg _ _ off (ctrlVector_lt _) h]; rfl
    · rfl

theorem State.pushEntry_frame (s : State) (r : RingId) (mk : Bool → List Byte) :
    s.pushEntry r mk = { s with regs := (s.pushEntry r mk).regs, host := (s.pushEntry r mk).host, link := (s.pushEntry r mk).link } := rfl

theorem State.pushEntry_reg (s : State) (r : RingId) (mk : Bool → List Byte) (off : Nat) :
    (s.pushEntry r mk).reg off = if off = r.tailOff then (s.reg r.tailOff + 1) % 2 ^ 32 else s.reg off := by
  show ((s.setHostBytes _ _).tally r.tailOff 1).reg off = _
  rw [State.reg_tally]
  rfl

/-- The entry stands in the slot of TAIL. -/
theorem State.pushEntry_host (s : State) (r : RingId) (mk : Bool → List Byte) :
    (s.pushEntry r mk).hostBytes (s.ringSlot r) (mk (s.ringPhase r)).length = mk (s.ringPhase r) :=
  State.hostBytes_setHostBytes s (s.ringSlot r) (mk (s.ringPhase r))

/-! ### Events -/

theorem State.postEventIn_frame (s : State) (w : Nat) (bs : List Byte) :
    s.postEventIn w bs = { s with
      regs := (s.postEventIn w bs).regs, host := (s.postEventIn w bs).host,
      link := (s.postEventIn w bs).link, rings := (s.postEventIn w bs).rings, out := (s.postEventIn w bs).out } := by
  have h : ∀ (s : State) (r : RingId) (mk : Bool → List Byte), (s.pushEntry r mk).signalRing r =
      { s with regs := ((s.pushEntry r mk).signalRing r).regs, host := ((s.pushEntry r mk).signalRing r).host, link := ((s.pushEntry r mk).signalRing r).link, rings := ((s.pushEntry r mk).signalRing r).rings, out := ((s.pushEntry r mk).signalRing r).out } := by
    intro s r mk
    rw [State.signalRing_frame]
    generalize ((s.pushEntry r mk).signalRing r).regs = a
    generalize ((s.pushEntry r mk).signalRing r).rings = b
    generalize ((s.pushEntry r mk).signalRing r).out = c
    rw [State.pushEntry_frame]
  unfold State.postEventIn
  dsimp only
  split
  · apply State.ext_fields <;> simp
  · split
    · rw [h]
      apply State.ext_fields <;> simp
    · apply State.ext_fields <;> simp

theorem State.postEventIn_reg (s : State) (w : Nat) (bs : List Byte) (off : Nat) (hw : w < 2) (h1 : ¬ evRegs off)
    (h2 : ¬ pbaRegs off) : (s.postEventIn w bs).reg off = s.reg off := by
  have hx : ∀ k, k < 0x100 → off ≠ Off.wrb w k := by
    intro k hk e; apply h1; unfold evRegs; unfold Off.wrb at e; omega
  unfold State.postEventIn
  dsimp only
  split
  · rw [State.reg_tally, if_neg (hx _ (by decide)), State.reg_tally, if_neg (hx _ (by decide))]
  · split
    · rw [State.signalRing_reg _ _ _ h2, State.pushEntry_reg, if_neg (by exact hx 0x10 (by decide)), State.reg_tally,
        if_neg (hx _ (by decide))]
    · rw [State.reg_tally, if_neg (hx _ (by decide))]
      show (s.tally _ 1).reg off = _
      rw [State.reg_tally, if_neg (hx _ (by decide))]

theorem State.postEvent_frame (s : State) (ws : List Nat) (c k i : Nat) (p : List Byte) :
    s.postEvent ws c k i p = { s with
      regs := (s.postEvent ws c k i p).regs, host := (s.postEvent ws c k i p).host,
      link := (s.postEvent ws c k i p).link, rings := (s.postEvent ws c k i p).rings, out := (s.postEvent ws c k i p).out } := by
  unfold State.postEvent
  split
  · rfl
  · have : ∀ (ws : List Nat) (s : State), ∀ f : State → Nat → State,
        (∀ s w, f s w = { s with
          regs := (f s w).regs, host := (f s w).host, link := (f s w).link, rings := (f s w).rings, out := (f s w).out }) →
        ws.foldl f s = { s with
          regs := (ws.foldl f s).regs, host := (ws.foldl f s).host, link := (ws.foldl f s).link,
          rings := (ws.foldl f s).rings, out := (ws.foldl f s).out } := by
      intro ws
      induction ws with
      | nil => intro s f _; rfl
      | cons w r ih =>
        intro s f h
        rw [List.foldl_cons, ih _ f h]
        rw [h s w]
    exact this ws s _ (fun s w => s.postEventIn_frame w _)

theorem State.postEvent_reg (s : State) (ws : List Nat) (c k i : Nat) (p : List Byte) (off : Nat)
    (hw : ∀ w ∈ ws, w < 2) (h1 : ¬ evRegs off) (h2 : ¬ pbaRegs off) :
    (s.postEvent ws c k i p).reg off = s.reg off := by
  unfold State.postEvent
  split
  · rfl
  · have : ∀ (ws : List Nat) (s : State), (∀ w ∈ ws, w < 2) →
        (ws.foldl (fun s w => s.postEventIn w (eventBytes c k i s.now p)) s).reg off = s.reg off := by
      intro ws
      induction ws with
      | nil => intro s _; rfl
      | cons w r ih =>
        intro s hw
        rw [List.foldl_cons, ih _ (fun x hx => hw x (List.mem_cons_of_mem _ hx))]
        exact s.postEventIn_reg w _ off (hw w (by simp)) h1 h2
    exact this ws s hw

theorem bothWorlds_lt : ∀ w ∈ bothWorlds, w < 2 := by decide

/-! ### Error records -/

theorem State.enqueueError_frame (s : State) (e : ErrRec) :
    s.enqueueError e = { s with regs := (s.enqueueError e).regs, errs := (s.enqueueError e).errs } := by
  unfold State.enqueueError
  dsimp only
  split
  · split <;> apply State.ext_fields <;> simp
  · split
    · apply State.ext_fields <;> simp
    · split <;> apply State.ext_fields <;> simp

theorem Reason.cls_lt (r : Reason) : r.cls < 4 := by cases r <;> decide

theorem State.enqueueError_reg (s : State) (e : ErrRec) (off : Nat) (h : ¬ errRegs off) :
    (s.enqueueError e).reg off = s.reg off := by
  have hx : ∀ c k, c < 4 → k < 4 → off ≠ Off.err (0x10 * (k + 1) + 4 * c) := by
    intro c k hc hk e; apply h; unfold errRegs; unfold Off.err at e; omega
  have hc := e.reason.cls_lt
  have h3 : ∀ c, c < 4 → off ≠ Off.err (0x30 + 4 * c) := fun c hc => hx c 2 hc (by decide)
  have h4 : ∀ c, c < 4 → off ≠ Off.err (0x40 + 4 * c) := fun c hc => hx c 3 hc (by decide)
  unfold State.enqueueError
  dsimp only
  split
  · split
    · rw [State.reg_tally, if_neg (h3 _ hc)]
    · rw [State.reg_tally, if_neg (h4 _ hc)]; rfl
  · split
    · rw [State.reg_tally, if_neg (h4 _ hc)]; rfl
    · split
      · next d _ _ =>
        rw [State.reg_tally, if_neg (h3 _ d.reason.cls_lt), State.reg_untally, if_neg (h4 _ d.reason.cls_lt),
          State.reg_tally, if_neg (h4 _ hc)]
        rfl
      · rw [State.reg_tally, if_neg (h4 _ hc)]; rfl

theorem State.raiseErrorIn_frame (s : State) (w : Nat) (e : ErrRec) :
    s.raiseErrorIn w e = { s with regs := (s.raiseErrorIn w e).regs, errs := (s.raiseErrorIn w e).errs } := by
  have h : ∀ (x y : State) (e : ErrRec), y = { s with regs := y.regs, errs := y.errs } → x = y.enqueueError e →
      x = { s with regs := x.regs, errs := x.errs } := by
    intro x y e hy hx
    subst hx
    rw [State.enqueueError_frame]
    generalize (y.enqueueError e).regs = a
    generalize (y.enqueueError e).errs = b
    rw [hy]
  refine h _ _ _ ?_ rfl
  split <;> apply State.ext_fields <;> simp

theorem State.raiseErrorIn_reg (s : State) (w : Nat) (e : ErrRec) (off : Nat) (h : ¬ errRegs off) :
    (s.raiseErrorIn w e).reg off = s.reg off := by
  have hc := e.reason.cls_lt
  have h1 : off ≠ Off.err (0x10 + 4 * e.reason.cls) := by
    intro e; apply h; unfold errRegs; unfold Off.err at e; omega
  have h2 : off ≠ Off.err 0x54 := by
    intro e; apply h; unfold errRegs; unfold Off.err at e; omega
  unfold State.raiseErrorIn
  dsimp only
  rw [State.enqueueError_reg _ _ _ h]
  split
  · rw [State.reg_tally, if_neg h2, State.reg_tally, if_neg h1]; rfl
  · rw [State.reg_tally, if_neg h1]; rfl

theorem State.fileError_frame (s : State) (ws : List Nat) (e : ErrRec) :
    s.fileError ws e = { s with regs := (s.fileError ws e).regs, errs := (s.fileError ws e).errs } := by
  unfold State.fileError
  induction ws generalizing s with
  | nil => rfl
  | cons w r ih => rw [List.foldl_cons, ih, State.raiseErrorIn_frame]

theorem State.fileError_reg (s : State) (ws : List Nat) (e : ErrRec) (off : Nat) (h : ¬ errRegs off) :
    (s.fileError ws e).reg off = s.reg off := by
  unfold State.fileError
  induction ws generalizing s with
  | nil => rfl
  | cons w r ih => rw [List.foldl_cons, ih, State.raiseErrorIn_reg _ _ _ _ h]

/-! ### Requests -/

/-- A request that ends OK only changes its own entry. -/
theorem State.endReq_ok (s : State) (i : Nat) (st : Status) (r : Request) (hr : s.req? i = some r)
    (hp : r.phase ≠ .finished) (hs : st.isOk = true) :
    s.endReq i st = s.setReq i { r with phase := .finished, status := st, held := false, aux := 0 } := by
  simp [State.endReq, hr, hp, hs]

/-- A finished request keeps the end it has. -/
theorem State.endReq_finished (s : State) (i : Nat) (st : Status) (r : Request) (hr : s.req? i = some r)
    (hp : r.phase = .finished) : s.endReq i st = s := by
  simp [State.endReq, hr, hp]

theorem State.failReq_finished (s : State) (i : Nat) (st : Status) (re : Reason) (f : ErrRec → ErrRec) (r : Request)
    (hr : s.req? i = some r) (hp : r.phase = .finished) : s.failReq i st re f = s := by
  simp [State.failReq, hr, hp]

/-! ### Readiness -/

theorem State.judgeService_frame (s : State) : s.judgeService = { s with regs := s.judgeService.regs } := by
  unfold State.judgeService; split <;> rfl

theorem State.judgeService_reg (s : State) (off : Nat) (h : off ≠ Off.rdy 0) :
    s.judgeService.reg off = s.reg off := by
  unfold State.judgeService
  split
  · rw [State.reg_setRegBits, if_neg h]
  · rfl

/-- Two changes of registers, host memory, link, rings and lines one after the other are one. -/
theorem State.readyFrame_trans {s t u : State}
    (h : t = { s with regs := t.regs, host := t.host, link := t.link, rings := t.rings, out := t.out })
    (k : u = { t with regs := u.regs, host := u.host, link := u.link, rings := u.rings, out := u.out }) :
    u = { s with regs := u.regs, host := u.host, link := u.link, rings := u.rings, out := u.out } := by
  rw [h] at k; exact k

theorem State.readyFrame_ite {s t u : State} {p : Prop} [Decidable p]
    (h : t = { s with regs := t.regs, host := t.host, link := t.link, rings := t.rings, out := t.out })
    (k : u = { s with regs := u.regs, host := u.host, link := u.link, rings := u.rings, out := u.out }) :
    (if p then t else u) = { s with
      regs := (if p then t else u).regs, host := (if p then t else u).host, link := (if p then t else u).link,
      rings := (if p then t else u).rings, out := (if p then t else u).out } := by
  split
  · exact h
  · exact k

theorem State.readyFrame_judge (s : State) :
    s.judgeService = { s with
      regs := s.judgeService.regs, host := s.judgeService.host, link := s.judgeService.link,
      rings := s.judgeService.rings, out := s.judgeService.out } := by
  unfold State.judgeService
  exact State.readyFrame_ite rfl rfl

theorem State.readyFrame_bits (s : State) (off lo n v : Nat) :
    s.setRegBits off lo n v = { s with
      regs := (s.setRegBits off lo n v).regs, host := (s.setRegBits off lo n v).host, link := (s.setRegBits off lo n v).link,
      rings := (s.setRegBits off lo n v).rings, out := (s.setRegBits off lo n v).out } := rfl

theorem State.readyFrame_tally (s : State) (off n : Nat) :
    s.tally off n = { s with
      regs := (s.tally off n).regs, host := (s.tally off n).host, link := (s.tally off n).link,
      rings := (s.tally off n).rings, out := (s.tally off n).out } := rfl

theorem State.setReady_frame (s : State) (k i c : Nat) :
    s.setReady k i c = { s with
      regs := (s.setReady k i c).regs, host := (s.setReady k i c).host,
      link := (s.setReady k i c).link, rings := (s.setReady k i c).rings, out := (s.setReady k i c).out } := by
  unfold State.setReady
  split
  · rfl
  · refine State.readyFrame_ite rfl (State.readyFrame_trans ?_ (State.readyFrame_judge _))
    have h := fun off lo => State.readyFrame_trans (State.readyFrame_bits s off lo 2 c)
      (State.readyFrame_tally (s.setRegBits off lo 2 c) (Off.rdy 0x28) 1)
    have g := fun off lo => State.readyFrame_ite (p := k = 2)
      (State.readyFrame_trans (h off lo) (State.readyFrame_bits _ (Off.th i 0) 0 2 ([0, 1, 3].getD c 0))) (h off lo)
    exact State.readyFrame_ite (State.readyFrame_trans (g _ _) (State.postEvent_frame _ _ _ _ _ _)) (g _ _)

/-- A code that already stands changes nothing. -/
theorem State.setReady_same (s : State) (k i c off lo : Nat) (hp : readyPlace k i = some (off, lo))
    (hc : s.regBits off lo 2 = c) : s.setReady k i c = s := by
  simp [State.setReady, hp, hc]

/-! ### The frames field by field -/

section
variable (s : State) (v : Nat)
@[simp] theorem State.sendMsix_latches : (s.sendMsix v).latches = s.latches := by rw [State.sendMsix_frame]
@[simp] theorem State.sendMsix_holds : (s.sendMsix v).holds = s.holds := by rw [State.sendMsix_frame]
@[simp] theorem State.sendMsix_mem : (s.sendMsix v).mem = s.mem := by rw [State.sendMsix_frame]
@[simp] theorem State.sendMsix_host : (s.sendMsix v).host = s.host := by rw [State.sendMsix_frame]
@[simp] theorem State.sendMsix_hostBad : (s.sendMsix v).hostBad = s.hostBad := by rw [State.sendMsix_frame]
@[simp] theorem State.sendMsix_regWrites : (s.sendMsix v).regWrites = s.regWrites := by rw [State.sendMsix_frame]
@[simp] theorem State.sendMsix_flash : (s.sendMsix v).flash = s.flash := by rw [State.sendMsix_frame]
@[simp] theorem State.sendMsix_clock : (s.sendMsix v).clock = s.clock := by rw [State.sendMsix_frame]
@[simp] theorem State.sendMsix_fuses : (s.sendMsix v).fuses = s.fuses := by rw [State.sendMsix_frame]
@[simp] theorem State.sendMsix_pins : (s.sendMsix v).pins = s.pins := by rw [State.sendMsix_frame]
@[simp] theorem State.sendMsix_hbm : (s.sendMsix v).hbm = s.hbm := by rw [State.sendMsix_frame]
@[simp] theorem State.sendMsix_link : (s.sendMsix v).link = s.link := by rw [State.sendMsix_frame]
@[simp] theorem State.sendMsix_rings : (s.sendMsix v).rings = s.rings := by rw [State.sendMsix_frame]
@[simp] theorem State.sendMsix_reqs : (s.sendMsix v).reqs = s.reqs := by rw [State.sendMsix_frame]
@[simp] theorem State.sendMsix_passes : (s.sendMsix v).passes = s.passes := by rw [State.sendMsix_frame]
@[simp] theorem State.sendMsix_tiles : (s.sendMsix v).tiles = s.tiles := by rw [State.sendMsix_frame]
@[simp] theorem State.sendMsix_macros : (s.sendMsix v).macros = s.macros := by rw [State.sendMsix_frame]
@[simp] theorem State.sendMsix_stuck : (s.sendMsix v).stuck = s.stuck := by rw [State.sendMsix_frame]
@[simp] theorem State.sendMsix_mesh : (s.sendMsix v).mesh = s.mesh := by rw [State.sendMsix_frame]
@[simp] theorem State.sendMsix_th : (s.sendMsix v).th = s.th := by rw [State.sendMsix_frame]
@[simp] theorem State.sendMsix_audit : (s.sendMsix v).audit = s.audit := by rw [State.sendMsix_frame]
@[simp] theorem State.sendMsix_errs : (s.sendMsix v).errs = s.errs := by rw [State.sendMsix_frame]
@[simp] theorem State.sendMsix_park : (s.sendMsix v).park = s.park := by rw [State.sendMsix_frame]
@[simp] theorem State.sendMsix_ix : (s.sendMsix v).ix = s.ix := by rw [State.sendMsix_frame]
@[simp] theorem State.sendMsix_power : (s.sendMsix v).power = s.power := by rw [State.sendMsix_frame]
@[simp] theorem State.sendMsix_sleep : (s.sendMsix v).sleep = s.sleep := by rw [State.sendMsix_frame]
@[simp] theorem State.sendMsix_sec : (s.sendMsix v).sec = s.sec := by rw [State.sendMsix_frame]
@[simp] theorem State.sendMsix_free : (s.sendMsix v).free = s.free := by rw [State.sendMsix_frame]
@[simp] theorem State.sendMsix_pending : (s.sendMsix v).pending = s.pending := by rw [State.sendMsix_frame]
end

section
variable (s : State) (r : RingId)
@[simp] theorem State.signalRing_latches : (s.signalRing r).latches = s.latches := by rw [State.signalRing_frame]
@[simp] theorem State.signalRing_holds : (s.signalRing r).holds = s.holds := by rw [State.signalRing_frame]
@[simp] theorem State.signalRing_mem : (s.signalRing r).mem = s.mem := by rw [State.signalRing_frame]
@[simp] theorem State.signalRing_host : (s.signalRing r).host = s.host := by rw [State.signalRing_frame]
@[simp] theorem State.signalRing_hostBad : (s.signalRing r).hostBad = s.hostBad := by rw [State.signalRing_frame]
@[simp] theorem State.signalRing_regWrites : (s.signalRing r).regWrites = s.regWrites := by rw [State.signalRing_frame]
@[simp] theorem State.signalRing_flash : (s.signalRing r).flash = s.flash := by rw [State.signalRing_frame]
@[simp] theorem State.signalRing_clock : (s.signalRing r).clock = s.clock := by rw [State.signalRing_frame]
@[simp] theorem State.signalRing_fuses : (s.signalRing r).fuses = s.fuses := by rw [State.signalRing_frame]
@[simp] theorem State.signalRing_pins : (s.signalRing r).pins = s.pins := by rw [State.signalRing_frame]
@[simp] theorem State.signalRing_hbm : (s.signalRing r).hbm = s.hbm := by rw [State.signalRing_frame]
@[simp] theorem State.signalRing_link : (s.signalRing r).link = s.link := by rw [State.signalRing_frame]
@[simp] theorem State.signalRing_reqs : (s.signalRing r).reqs = s.reqs := by rw [State.signalRing_frame]
@[simp] theorem State.signalRing_passes : (s.signalRing r).passes = s.passes := by rw [State.signalRing_frame]
@[simp] theorem State.signalRing_tiles : (s.signalRing r).tiles = s.tiles := by rw [State.signalRing_frame]
@[simp] theorem State.signalRing_macros : (s.signalRing r).macros = s.macros := by rw [State.signalRing_frame]
@[simp] theorem State.signalRing_stuck : (s.signalRing r).stuck = s.stuck := by rw [State.signalRing_frame]
@[simp] theorem State.signalRing_mesh : (s.signalRing r).mesh = s.mesh := by rw [State.signalRing_frame]
@[simp] theorem State.signalRing_th : (s.signalRing r).th = s.th := by rw [State.signalRing_frame]
@[simp] theorem State.signalRing_audit : (s.signalRing r).audit = s.audit := by rw [State.signalRing_frame]
@[simp] theorem State.signalRing_errs : (s.signalRing r).errs = s.errs := by rw [State.signalRing_frame]
@[simp] theorem State.signalRing_park : (s.signalRing r).park = s.park := by rw [State.signalRing_frame]
@[simp] theorem State.signalRing_ix : (s.signalRing r).ix = s.ix := by rw [State.signalRing_frame]
@[simp] theorem State.signalRing_power : (s.signalRing r).power = s.power := by rw [State.signalRing_frame]
@[simp] theorem State.signalRing_sleep : (s.signalRing r).sleep = s.sleep := by rw [State.signalRing_frame]
@[simp] theorem State.signalRing_sec : (s.signalRing r).sec = s.sec := by rw [State.signalRing_frame]
@[simp] theorem State.signalRing_free : (s.signalRing r).free = s.free := by rw [State.signalRing_frame]
@[simp] theorem State.signalRing_pending : (s.signalRing r).pending = s.pending := by rw [State.signalRing_frame]
end

section
variable (s : State) (r : RingId) (mk : Bool → List Byte)
@[simp] theorem State.pushEntry_latches : (s.pushEntry r mk).latches = s.latches := by rw [State.pushEntry_frame]
@[simp] theorem State.pushEntry_holds : (s.pushEntry r mk).holds = s.holds := by rw [State.pushEntry_frame]
@[simp] theorem State.pushEntry_mem : (s.pushEntry r mk).mem = s.mem := by rw [State.pushEntry_frame]
@[simp] theorem State.pushEntry_hostBad : (s.pushEntry r mk).hostBad = s.hostBad := by rw [State.pushEntry_frame]
@[simp] theorem State.pushEntry_regWrites : (s.pushEntry r mk).regWrites = s.regWrites := by rw [State.pushEntry_frame]
@[simp] theorem State.pushEntry_flash : (s.pushEntry r mk).flash = s.flash := by rw [State.pushEntry_frame]
@[simp] theorem State.pushEntry_clock : (s.pushEntry r mk).clock = s.clock := by rw [State.pushEntry_frame]
@[simp] theorem State.pushEntry_fuses : (s.pushEntry r mk).fuses = s.fuses := by rw [State.pushEntry_frame]
@[simp] theorem State.pushEntry_pins : (s.pushEntry r mk).pins = s.pins := by rw [State.pushEntry_frame]
@[simp] theorem State.pushEntry_hbm : (s.pushEntry r mk).hbm = s.hbm := by rw [State.pushEntry_frame]
@[simp] theorem State.pushEntry_rings : (s.pushEntry r mk).rings = s.rings := by rw [State.pushEntry_frame]
@[simp] theorem State.pushEntry_reqs : (s.pushEntry r mk).reqs = s.reqs := by rw [State.pushEntry_frame]
@[simp] theorem State.pushEntry_passes : (s.pushEntry r mk).passes = s.passes := by rw [State.pushEntry_frame]
@[simp] theorem State.pushEntry_tiles : (s.pushEntry r mk).tiles = s.tiles := by rw [State.pushEntry_frame]
@[simp] theorem State.pushEntry_macros : (s.pushEntry r mk).macros = s.macros := by rw [State.pushEntry_frame]
@[simp] theorem State.pushEntry_stuck : (s.pushEntry r mk).stuck = s.stuck := by rw [State.pushEntry_frame]
@[simp] theorem State.pushEntry_mesh : (s.pushEntry r mk).mesh = s.mesh := by rw [State.pushEntry_frame]
@[simp] theorem State.pushEntry_th : (s.pushEntry r mk).th = s.th := by rw [State.pushEntry_frame]
@[simp] theorem State.pushEntry_audit : (s.pushEntry r mk).audit = s.audit := by rw [State.pushEntry_frame]
@[simp] theorem State.pushEntry_errs : (s.pushEntry r mk).errs = s.errs := by rw [State.pushEntry_frame]
@[simp] theorem State.pushEntry_park : (s.pushEntry r mk).park = s.park := by rw [State.pushEntry_frame]
@[simp] theorem State.pushEntry_ix : (s.pushEntry r mk).ix = s.ix := by rw [State.pushEntry_frame]
@[simp] theorem State.pushEntry_power : (s.pushEntry r mk).power = s.power := by rw [State.pushEntry_frame]
@[simp] theorem State.pushEntry_sleep : (s.pushEntry r mk).sleep = s.sleep := by rw [State.pushEntry_frame]
@[simp] theorem State.pushEntry_sec : (s.pushEntry r mk).sec = s.sec := by rw [State.pushEntry_frame]
@[simp] theorem State.pushEntry_out : (s.pushEntry r mk).out = s.out := by rw [State.pushEntry_frame]
@[simp] theorem State.pushEntry_free : (s.pushEntry r mk).free = s.free := by rw [State.pushEntry_frame]
@[simp] theorem State.pushEntry_pending : (s.pushEntry r mk).pending = s.pending := by rw [State.pushEntry_frame]
end

section
variable (s : State) (w : Nat) (bs : List Byte)
@[simp] theorem State.postEventIn_latches : (s.postEventIn w bs).latches = s.latches := by rw [State.postEventIn_frame]
@[simp] theorem State.postEventIn_holds : (s.postEventIn w bs).holds = s.holds := by rw [State.postEventIn_frame]
@[simp] theorem State.postEventIn_mem : (s.postEventIn w bs).mem = s.mem := by rw [State.postEventIn_frame]
@[simp] theorem State.postEventIn_hostBad : (s.postEventIn w bs).hostBad = s.hostBad := by rw [State.postEventIn_frame]
@[simp] theorem State.postEventIn_regWrites : (s.postEventIn w bs).regWrites = s.regWrites := by rw [State.postEventIn_frame]
@[simp] theorem State.postEventIn_flash : (s.postEventIn w bs).flash = s.flash := by rw [State.postEventIn_frame]
@[simp] theorem State.postEventIn_clock : (s.postEventIn w bs).clock = s.clock := by rw [State.postEventIn_frame]
@[simp] theorem State.postEventIn_fuses : (s.postEventIn w bs).fuses = s.fuses := by rw [State.postEventIn_frame]
@[simp] theorem State.postEventIn_pins : (s.postEventIn w bs).pins = s.pins := by rw [State.postEventIn_frame]
@[simp] theorem State.postEventIn_hbm : (s.postEventIn w bs).hbm = s.hbm := by rw [State.postEventIn_frame]
@[simp] theorem State.postEventIn_reqs : (s.postEventIn w bs).reqs = s.reqs := by rw [State.postEventIn_frame]
@[simp] theorem State.postEventIn_passes : (s.postEventIn w bs).passes = s.passes := by rw [State.postEventIn_frame]
@[simp] theorem State.postEventIn_tiles : (s.postEventIn w bs).tiles = s.tiles := by rw [State.postEventIn_frame]
@[simp] theorem State.postEventIn_macros : (s.postEventIn w bs).macros = s.macros := by rw [State.postEventIn_frame]
@[simp] theorem State.postEventIn_stuck : (s.postEventIn w bs).stuck = s.stuck := by rw [State.postEventIn_frame]
@[simp] theorem State.postEventIn_mesh : (s.postEventIn w bs).mesh = s.mesh := by rw [State.postEventIn_frame]
@[simp] theorem State.postEventIn_th : (s.postEventIn w bs).th = s.th := by rw [State.postEventIn_frame]
@[simp] theorem State.postEventIn_audit : (s.postEventIn w bs).audit = s.audit := by rw [State.postEventIn_frame]
@[simp] theorem State.postEventIn_errs : (s.postEventIn w bs).errs = s.errs := by rw [State.postEventIn_frame]
@[simp] theorem State.postEventIn_park : (s.postEventIn w bs).park = s.park := by rw [State.postEventIn_frame]
@[simp] theorem State.postEventIn_ix : (s.postEventIn w bs).ix = s.ix := by rw [State.postEventIn_frame]
@[simp] theorem State.postEventIn_power : (s.postEventIn w bs).power = s.power := by rw [State.postEventIn_frame]
@[simp] theorem State.postEventIn_sleep : (s.postEventIn w bs).sleep = s.sleep := by rw [State.postEventIn_frame]
@[simp] theorem State.postEventIn_sec : (s.postEventIn w bs).sec = s.sec := by rw [State.postEventIn_frame]
@[simp] theorem State.postEventIn_free : (s.postEventIn w bs).free = s.free := by rw [State.postEventIn_frame]
@[simp] theorem State.postEventIn_pending : (s.postEventIn w bs).pending = s.pending := by rw [State.postEventIn_frame]
end

section
variable (s : State) (ws : List Nat) (c k i : Nat) (p : List Byte)
@[simp] theorem State.postEvent_latches : (s.postEvent ws c k i p).latches = s.latches := by rw [State.postEvent_frame]
@[simp] theorem State.postEvent_holds : (s.postEvent ws c k i p).holds = s.holds := by rw [State.postEvent_frame]
@[simp] theorem State.postEvent_mem : (s.postEvent ws c k i p).mem = s.mem := by rw [State.postEvent_frame]
@[simp] theorem State.postEvent_hostBad : (s.postEvent ws c k i p).hostBad = s.hostBad := by rw [State.postEvent_frame]
@[simp] theorem State.postEvent_regWrites : (s.postEvent ws c k i p).regWrites = s.regWrites := by rw [State.postEvent_frame]
@[simp] theorem State.postEvent_flash : (s.postEvent ws c k i p).flash = s.flash := by rw [State.postEvent_frame]
@[simp] theorem State.postEvent_clock : (s.postEvent ws c k i p).clock = s.clock := by rw [State.postEvent_frame]
@[simp] theorem State.postEvent_fuses : (s.postEvent ws c k i p).fuses = s.fuses := by rw [State.postEvent_frame]
@[simp] theorem State.postEvent_pins : (s.postEvent ws c k i p).pins = s.pins := by rw [State.postEvent_frame]
@[simp] theorem State.postEvent_hbm : (s.postEvent ws c k i p).hbm = s.hbm := by rw [State.postEvent_frame]
@[simp] theorem State.postEvent_reqs : (s.postEvent ws c k i p).reqs = s.reqs := by rw [State.postEvent_frame]
@[simp] theorem State.postEvent_passes : (s.postEvent ws c k i p).passes = s.passes := by rw [State.postEvent_frame]
@[simp] theorem State.postEvent_tiles : (s.postEvent ws c k i p).tiles = s.tiles := by rw [State.postEvent_frame]
@[simp] theorem State.postEvent_macros : (s.postEvent ws c k i p).macros = s.macros := by rw [State.postEvent_frame]
@[simp] theorem State.postEvent_stuck : (s.postEvent ws c k i p).stuck = s.stuck := by rw [State.postEvent_frame]
@[simp] theorem State.postEvent_mesh : (s.postEvent ws c k i p).mesh = s.mesh := by rw [State.postEvent_frame]
@[simp] theorem State.postEvent_th : (s.postEvent ws c k i p).th = s.th := by rw [State.postEvent_frame]
@[simp] theorem State.postEvent_audit : (s.postEvent ws c k i p).audit = s.audit := by rw [State.postEvent_frame]
@[simp] theorem State.postEvent_errs : (s.postEvent ws c k i p).errs = s.errs := by rw [State.postEvent_frame]
@[simp] theorem State.postEvent_park : (s.postEvent ws c k i p).park = s.park := by rw [State.postEvent_frame]
@[simp] theorem State.postEvent_ix : (s.postEvent ws c k i p).ix = s.ix := by rw [State.postEvent_frame]
@[simp] theorem State.postEvent_power : (s.postEvent ws c k i p).power = s.power := by rw [State.postEvent_frame]
@[simp] theorem State.postEvent_sleep : (s.postEvent ws c k i p).sleep = s.sleep := by rw [State.postEvent_frame]
@[simp] theorem State.postEvent_sec : (s.postEvent ws c k i p).sec = s.sec := by rw [State.postEvent_frame]
@[simp] theorem State.postEvent_free : (s.postEvent ws c k i p).free = s.free := by rw [State.postEvent_frame]
@[simp] theorem State.postEvent_pending : (s.postEvent ws c k i p).pending = s.pending := by rw [State.postEvent_frame]
end

section
variable (s : State) (e : ErrRec)
@[simp] theorem State.enqueueError_latches : (s.enqueueError e).latches = s.latches := by rw [State.enqueueError_frame]
@[simp] theorem State.enqueueError_holds : (s.enqueueError e).holds = s.holds := by rw [State.enqueueError_frame]
@[simp] theorem State.enqueueError_mem : (s.enqueueError e).mem = s.mem := by rw [State.enqueueError_frame]
@[simp] theorem State.enqueueError_host : (s.enqueueError e).host = s.host := by rw [State.enqueueError_frame]
@[simp] theorem State.enqueueError_hostBad : (s.enqueueError e).hostBad = s.hostBad := by rw [State.enqueueError_frame]
@[simp] theorem State.enqueueError_regWrites : (s.enqueueError e).regWrites = s.regWrites := by rw [State.enqueueError_frame]
@[simp] theorem State.enqueueError_flash : (s.enqueueError e).flash = s.flash := by rw [State.enqueueError_frame]
@[simp] theorem State.enqueueError_clock : (s.enqueueError e).clock = s.clock := by rw [State.enqueueError_frame]
@[simp] theorem State.enqueueError_fuses : (s.enqueueError e).fuses = s.fuses := by rw [State.enqueueError_frame]
@[simp] theorem State.enqueueError_pins : (s.enqueueError e).pins = s.pins := by rw [State.enqueueError_frame]
@[simp] theorem State.enqueueError_hbm : (s.enqueueError e).hbm = s.hbm := by rw [State.enqueueError_frame]
@[simp] theorem State.enqueueError_link : (s.enqueueError e).link = s.link := by rw [State.enqueueError_frame]
@[simp] theorem State.enqueueError_rings : (s.enqueueError e).rings = s.rings := by rw [State.enqueueError_frame]
@[simp] theorem State.enqueueError_reqs : (s.enqueueError e).reqs = s.reqs := by rw [State.enqueueError_frame]
@[simp] theorem State.enqueueError_passes : (s.enqueueError e).passes = s.passes := by rw [State.enqueueError_frame]
@[simp] theorem State.enqueueError_tiles : (s.enqueueError e).tiles = s.tiles := by rw [State.enqueueError_frame]
@[simp] theorem State.enqueueError_macros : (s.enqueueError e).macros = s.macros := by rw [State.enqueueError_frame]
@[simp] theorem State.enqueueError_stuck : (s.enqueueError e).stuck = s.stuck := by rw [State.enqueueError_frame]
@[simp] theorem State.enqueueError_mesh : (s.enqueueError e).mesh = s.mesh := by rw [State.enqueueError_frame]
@[simp] theorem State.enqueueError_th : (s.enqueueError e).th = s.th := by rw [State.enqueueError_frame]
@[simp] theorem State.enqueueError_audit : (s.enqueueError e).audit = s.audit := by rw [State.enqueueError_frame]
@[simp] theorem State.enqueueError_park : (s.enqueueError e).park = s.park := by rw [State.enqueueError_frame]
@[simp] theorem State.enqueueError_ix : (s.enqueueError e).ix = s.ix := by rw [State.enqueueError_frame]
@[simp] theorem State.enqueueError_power : (s.enqueueError e).power = s.power := by rw [State.enqueueError_frame]
@[simp] theorem State.enqueueError_sleep : (s.enqueueError e).sleep = s.sleep := by rw [State.enqueueError_frame]
@[simp] theorem State.enqueueError_sec : (s.enqueueError e).sec = s.sec := by rw [State.enqueueError_frame]
@[simp] theorem State.enqueueError_out : (s.enqueueError e).out = s.out := by rw [State.enqueueError_frame]
@[simp] theorem State.enqueueError_free : (s.enqueueError e).free = s.free := by rw [State.enqueueError_frame]
@[simp] theorem State.enqueueError_pending : (s.enqueueError e).pending = s.pending := by rw [State.enqueueError_frame]
end

section
variable (s : State) (w : Nat) (e : ErrRec)
@[simp] theorem State.raiseErrorIn_latches : (s.raiseErrorIn w e).latches = s.latches := by rw [State.raiseErrorIn_frame]
@[simp] theorem State.raiseErrorIn_holds : (s.raiseErrorIn w e).holds = s.holds := by rw [State.raiseErrorIn_frame]
@[simp] theorem State.raiseErrorIn_mem : (s.raiseErrorIn w e).mem = s.mem := by rw [State.raiseErrorIn_frame]
@[simp] theorem State.raiseErrorIn_host : (s.raiseErrorIn w e).host = s.host := by rw [State.raiseErrorIn_frame]
@[simp] theorem State.raiseErrorIn_hostBad : (s.raiseErrorIn w e).hostBad = s.hostBad := by rw [State.raiseErrorIn_frame]
@[simp] theorem State.raiseErrorIn_regWrites : (s.raiseErrorIn w e).regWrites = s.regWrites := by rw [State.raiseErrorIn_frame]
@[simp] theorem State.raiseErrorIn_flash : (s.raiseErrorIn w e).flash = s.flash := by rw [State.raiseErrorIn_frame]
@[simp] theorem State.raiseErrorIn_clock : (s.raiseErrorIn w e).clock = s.clock := by rw [State.raiseErrorIn_frame]
@[simp] theorem State.raiseErrorIn_fuses : (s.raiseErrorIn w e).fuses = s.fuses := by rw [State.raiseErrorIn_frame]
@[simp] theorem State.raiseErrorIn_pins : (s.raiseErrorIn w e).pins = s.pins := by rw [State.raiseErrorIn_frame]
@[simp] theorem State.raiseErrorIn_hbm : (s.raiseErrorIn w e).hbm = s.hbm := by rw [State.raiseErrorIn_frame]
@[simp] theorem State.raiseErrorIn_link : (s.raiseErrorIn w e).link = s.link := by rw [State.raiseErrorIn_frame]
@[simp] theorem State.raiseErrorIn_rings : (s.raiseErrorIn w e).rings = s.rings := by rw [State.raiseErrorIn_frame]
@[simp] theorem State.raiseErrorIn_reqs : (s.raiseErrorIn w e).reqs = s.reqs := by rw [State.raiseErrorIn_frame]
@[simp] theorem State.raiseErrorIn_passes : (s.raiseErrorIn w e).passes = s.passes := by rw [State.raiseErrorIn_frame]
@[simp] theorem State.raiseErrorIn_tiles : (s.raiseErrorIn w e).tiles = s.tiles := by rw [State.raiseErrorIn_frame]
@[simp] theorem State.raiseErrorIn_macros : (s.raiseErrorIn w e).macros = s.macros := by rw [State.raiseErrorIn_frame]
@[simp] theorem State.raiseErrorIn_stuck : (s.raiseErrorIn w e).stuck = s.stuck := by rw [State.raiseErrorIn_frame]
@[simp] theorem State.raiseErrorIn_mesh : (s.raiseErrorIn w e).mesh = s.mesh := by rw [State.raiseErrorIn_frame]
@[simp] theorem State.raiseErrorIn_th : (s.raiseErrorIn w e).th = s.th := by rw [State.raiseErrorIn_frame]
@[simp] theorem State.raiseErrorIn_audit : (s.raiseErrorIn w e).audit = s.audit := by rw [State.raiseErrorIn_frame]
@[simp] theorem State.raiseErrorIn_park : (s.raiseErrorIn w e).park = s.park := by rw [State.raiseErrorIn_frame]
@[simp] theorem State.raiseErrorIn_ix : (s.raiseErrorIn w e).ix = s.ix := by rw [State.raiseErrorIn_frame]
@[simp] theorem State.raiseErrorIn_power : (s.raiseErrorIn w e).power = s.power := by rw [State.raiseErrorIn_frame]
@[simp] theorem State.raiseErrorIn_sleep : (s.raiseErrorIn w e).sleep = s.sleep := by rw [State.raiseErrorIn_frame]
@[simp] theorem State.raiseErrorIn_sec : (s.raiseErrorIn w e).sec = s.sec := by rw [State.raiseErrorIn_frame]
@[simp] theorem State.raiseErrorIn_out : (s.raiseErrorIn w e).out = s.out := by rw [State.raiseErrorIn_frame]
@[simp] theorem State.raiseErrorIn_free : (s.raiseErrorIn w e).free = s.free := by rw [State.raiseErrorIn_frame]
@[simp] theorem State.raiseErrorIn_pending : (s.raiseErrorIn w e).pending = s.pending := by rw [State.raiseErrorIn_frame]
end

section
variable (s : State) (ws : List Nat) (e : ErrRec)
@[simp] theorem State.fileError_latches : (s.fileError ws e).latches = s.latches := by rw [State.fileError_frame]
@[simp] theorem State.fileError_holds : (s.fileError ws e).holds = s.holds := by rw [State.fileError_frame]
@[simp] theorem State.fileError_mem : (s.fileError ws e).mem = s.mem := by rw [State.fileError_frame]
@[simp] theorem State.fileError_host : (s.fileError ws e).host = s.host := by rw [State.fileError_frame]
@[simp] theorem State.fileError_hostBad : (s.fileError ws e).hostBad = s.hostBad := by rw [State.fileError_frame]
@[simp] theorem State.fileError_regWrites : (s.fileError ws e).regWrites = s.regWrites := by rw [State.fileError_frame]
@[simp] theorem State.fileError_flash : (s.fileError ws e).flash = s.flash := by rw [State.fileError_frame]
@[simp] theorem State.fileError_clock : (s.fileError ws e).clock = s.clock := by rw [State.fileError_frame]
@[simp] theorem State.fileError_fuses : (s.fileError ws e).fuses = s.fuses := by rw [State.fileError_frame]
@[simp] theorem State.fileError_pins : (s.fileError ws e).pins = s.pins := by rw [State.fileError_frame]
@[simp] theorem State.fileError_hbm : (s.fileError ws e).hbm = s.hbm := by rw [State.fileError_frame]
@[simp] theorem State.fileError_link : (s.fileError ws e).link = s.link := by rw [State.fileError_frame]
@[simp] theorem State.fileError_rings : (s.fileError ws e).rings = s.rings := by rw [State.fileError_frame]
@[simp] theorem State.fileError_reqs : (s.fileError ws e).reqs = s.reqs := by rw [State.fileError_frame]
@[simp] theorem State.fileError_passes : (s.fileError ws e).passes = s.passes := by rw [State.fileError_frame]
@[simp] theorem State.fileError_tiles : (s.fileError ws e).tiles = s.tiles := by rw [State.fileError_frame]
@[simp] theorem State.fileError_macros : (s.fileError ws e).macros = s.macros := by rw [State.fileError_frame]
@[simp] theorem State.fileError_stuck : (s.fileError ws e).stuck = s.stuck := by rw [State.fileError_frame]
@[simp] theorem State.fileError_mesh : (s.fileError ws e).mesh = s.mesh := by rw [State.fileError_frame]
@[simp] theorem State.fileError_th : (s.fileError ws e).th = s.th := by rw [State.fileError_frame]
@[simp] theorem State.fileError_audit : (s.fileError ws e).audit = s.audit := by rw [State.fileError_frame]
@[simp] theorem State.fileError_park : (s.fileError ws e).park = s.park := by rw [State.fileError_frame]
@[simp] theorem State.fileError_ix : (s.fileError ws e).ix = s.ix := by rw [State.fileError_frame]
@[simp] theorem State.fileError_power : (s.fileError ws e).power = s.power := by rw [State.fileError_frame]
@[simp] theorem State.fileError_sleep : (s.fileError ws e).sleep = s.sleep := by rw [State.fileError_frame]
@[simp] theorem State.fileError_sec : (s.fileError ws e).sec = s.sec := by rw [State.fileError_frame]
@[simp] theorem State.fileError_out : (s.fileError ws e).out = s.out := by rw [State.fileError_frame]
@[simp] theorem State.fileError_free : (s.fileError ws e).free = s.free := by rw [State.fileError_frame]
@[simp] theorem State.fileError_pending : (s.fileError ws e).pending = s.pending := by rw [State.fileError_frame]
end

section
variable (s : State) 
@[simp] theorem State.judgeService_latches : (s.judgeService).latches = s.latches := by rw [State.judgeService_frame]
@[simp] theorem State.judgeService_holds : (s.judgeService).holds = s.holds := by rw [State.judgeService_frame]
@[simp] theorem State.judgeService_mem : (s.judgeService).mem = s.mem := by rw [State.judgeService_frame]
@[simp] theorem State.judgeService_host : (s.judgeService).host = s.host := by rw [State.judgeService_frame]
@[simp] theorem State.judgeService_hostBad : (s.judgeService).hostBad = s.hostBad := by rw [State.judgeService_frame]
@[simp] theorem State.judgeService_regWrites : (s.judgeService).regWrites = s.regWrites := by rw [State.judgeService_frame]
@[simp] theorem State.judgeService_flash : (s.judgeService).flash = s.flash := by rw [State.judgeService_frame]
@[simp] theorem State.judgeService_clock : (s.judgeService).clock = s.clock := by rw [State.judgeService_frame]
@[simp] theorem State.judgeService_fuses : (s.judgeService).fuses = s.fuses := by rw [State.judgeService_frame]
@[simp] theorem State.judgeService_pins : (s.judgeService).pins = s.pins := by rw [State.judgeService_frame]
@[simp] theorem State.judgeService_hbm : (s.judgeService).hbm = s.hbm := by rw [State.judgeService_frame]
@[simp] theorem State.judgeService_link : (s.judgeService).link = s.link := by rw [State.judgeService_frame]
@[simp] theorem State.judgeService_rings : (s.judgeService).rings = s.rings := by rw [State.judgeService_frame]
@[simp] theorem State.judgeService_reqs : (s.judgeService).reqs = s.reqs := by rw [State.judgeService_frame]
@[simp] theorem State.judgeService_passes : (s.judgeService).passes = s.passes := by rw [State.judgeService_frame]
@[simp] theorem State.judgeService_tiles : (s.judgeService).tiles = s.tiles := by rw [State.judgeService_frame]
@[simp] theorem State.judgeService_macros : (s.judgeService).macros = s.macros := by rw [State.judgeService_frame]
@[simp] theorem State.judgeService_stuck : (s.judgeService).stuck = s.stuck := by rw [State.judgeService_frame]
@[simp] theorem State.judgeService_mesh : (s.judgeService).mesh = s.mesh := by rw [State.judgeService_frame]
@[simp] theorem State.judgeService_th : (s.judgeService).th = s.th := by rw [State.judgeService_frame]
@[simp] theorem State.judgeService_audit : (s.judgeService).audit = s.audit := by rw [State.judgeService_frame]
@[simp] theorem State.judgeService_errs : (s.judgeService).errs = s.errs := by rw [State.judgeService_frame]
@[simp] theorem State.judgeService_park : (s.judgeService).park = s.park := by rw [State.judgeService_frame]
@[simp] theorem State.judgeService_ix : (s.judgeService).ix = s.ix := by rw [State.judgeService_frame]
@[simp] theorem State.judgeService_power : (s.judgeService).power = s.power := by rw [State.judgeService_frame]
@[simp] theorem State.judgeService_sleep : (s.judgeService).sleep = s.sleep := by rw [State.judgeService_frame]
@[simp] theorem State.judgeService_sec : (s.judgeService).sec = s.sec := by rw [State.judgeService_frame]
@[simp] theorem State.judgeService_out : (s.judgeService).out = s.out := by rw [State.judgeService_frame]
@[simp] theorem State.judgeService_free : (s.judgeService).free = s.free := by rw [State.judgeService_frame]
@[simp] theorem State.judgeService_pending : (s.judgeService).pending = s.pending := by rw [State.judgeService_frame]
end

section
variable (s : State) (k i c : Nat)
@[simp] theorem State.setReady_latches : (s.setReady k i c).latches = s.latches := by rw [State.setReady_frame]
@[simp] theorem State.setReady_holds : (s.setReady k i c).holds = s.holds := by rw [State.setReady_frame]
@[simp] theorem State.setReady_mem : (s.setReady k i c).mem = s.mem := by rw [State.setReady_frame]
@[simp] theorem State.setReady_hostBad : (s.setReady k i c).hostBad = s.hostBad := by rw [State.setReady_frame]
@[simp] theorem State.setReady_regWrites : (s.setReady k i c).regWrites = s.regWrites := by rw [State.setReady_frame]
@[simp] theorem State.setReady_flash : (s.setReady k i c).flash = s.flash := by rw [State.setReady_frame]
@[simp] theorem State.setReady_clock : (s.setReady k i c).clock = s.clock := by rw [State.setReady_frame]
@[simp] theorem State.setReady_fuses : (s.setReady k i c).fuses = s.fuses := by rw [State.setReady_frame]
@[simp] theorem State.setReady_pins : (s.setReady k i c).pins = s.pins := by rw [State.setReady_frame]
@[simp] theorem State.setReady_hbm : (s.setReady k i c).hbm = s.hbm := by rw [State.setReady_frame]
@[simp] theorem State.setReady_reqs : (s.setReady k i c).reqs = s.reqs := by rw [State.setReady_frame]
@[simp] theorem State.setReady_passes : (s.setReady k i c).passes = s.passes := by rw [State.setReady_frame]
@[simp] theorem State.setReady_tiles : (s.setReady k i c).tiles = s.tiles := by rw [State.setReady_frame]
@[simp] theorem State.setReady_macros : (s.setReady k i c).macros = s.macros := by rw [State.setReady_frame]
@[simp] theorem State.setReady_stuck : (s.setReady k i c).stuck = s.stuck := by rw [State.setReady_frame]
@[simp] theorem State.setReady_mesh : (s.setReady k i c).mesh = s.mesh := by rw [State.setReady_frame]
@[simp] theorem State.setReady_th : (s.setReady k i c).th = s.th := by rw [State.setReady_frame]
@[simp] theorem State.setReady_audit : (s.setReady k i c).audit = s.audit := by rw [State.setReady_frame]
@[simp] theorem State.setReady_errs : (s.setReady k i c).errs = s.errs := by rw [State.setReady_frame]
@[simp] theorem State.setReady_park : (s.setReady k i c).park = s.park := by rw [State.setReady_frame]
@[simp] theorem State.setReady_ix : (s.setReady k i c).ix = s.ix := by rw [State.setReady_frame]
@[simp] theorem State.setReady_power : (s.setReady k i c).power = s.power := by rw [State.setReady_frame]
@[simp] theorem State.setReady_sleep : (s.setReady k i c).sleep = s.sleep := by rw [State.setReady_frame]
@[simp] theorem State.setReady_sec : (s.setReady k i c).sec = s.sec := by rw [State.setReady_frame]
@[simp] theorem State.setReady_free : (s.setReady k i c).free = s.free := by rw [State.setReady_frame]
@[simp] theorem State.setReady_pending : (s.setReady k i c).pending = s.pending := by rw [State.setReady_frame]
end

end Sys2Proof.Machine
end

