-- ==== Sys2Proof/Tests/Slice0.lean ====
section
/-! SUPPORT. Tests: a smoke test of well-formedness; the spec's worked examples and single steps; and, for every
obligation with hypotheses, one theorem that shows for each of its clauses a state and operands that meet all the
hypotheses of that clause together. -/

set_option linter.unusedVariables false
set_option Elab.async false

namespace Sys2Proof.Tests

open Sys2Proof Sys2Proof.Machine

/-! ### Well-formedness: an ill-formed command for each check -/

theorem test_wf_ring : (Instr.descriptorAccept 4160 ⟨[], [], [], []⟩).wf = false := by decide
theorem test_wf_surroundings : (Instr.descriptorAccept 0 ⟨[], [(0x300000000, true)], [], []⟩).wf = false := by decide
theorem test_wf_cell : (Instr.scrubRowRead 0 0 [⟨256, 0, false, false⟩]).wf = false := by decide
theorem test_wf_enumeration : (Instr.linkReady 255 0 0 0 0 ⟨1, 0, 0, 0, false⟩).wf = false := by decide
theorem test_wf_request : (Instr.copy 262144).wf = false := by decide
theorem test_wf_request_named : (Instr.scratchpadAccess false 0 0 4 [] false (some 262144) [] 0).wf = false := by decide
theorem test_wf_tile : (Instr.seam 1024 0).wf = false := by decide
theorem test_wf_macro : (Instr.macroReload 0 64).wf = false := by decide
theorem test_wf_unit : (Instr.toeheelEntryStart 16).wf = false := by decide
theorem test_wf_causeway : (Instr.chunkDeal 4).wf = false := by decide
theorem test_wf_stack : (Instr.stackFailed 24).wf = false := by decide
theorem test_wf_port : (Instr.signalDetect 16).wf = false := by decide
theorem test_wf_device : (Instr.lossNotice [1024]).wf = false := by decide
theorem test_wf_module : (Instr.laneError 8).wf = false := by decide
theorem test_wf_pin : (Instr.evtStuck 8).wf = false := by decide
theorem test_wf_out_pin : (Instr.evtOutPulse 4).wf = false := by decide
theorem test_wf_rail : (Instr.telemStale 10).wf = false := by decide
theorem test_wf_world : (Instr.mailboxCommandDone 2).wf = false := by decide
theorem test_wf_tread : (Instr.railArrived 2).wf = false := by decide
theorem test_wf_data : (Instr.bar4Access true 0 4 [1, 2] false .clean).wf = false := by decide
theorem test_wf_ring_of_world : (Instr.ringEnable (.evq 2) 1 false).wf = false := by decide
theorem test_wf_window_range : (Instr.weightWindowWrite 0 [1] false none).wf = false := by decide
theorem test_wf_fuse : (Instr.secureBootComplete [4096]).wf = false := by decide
theorem test_wf_hello : (Instr.hello 0 ⟨0, [], 0, false, false, false, 0, 0, false, 0, 0, 0, 0, 0, 0, 0⟩).wf = false := by decide
theorem test_wf_link : (Instr.mapUpdate 0 ⟨[], [], [⟨0, 16, 1, 0, false, true⟩], false⟩).wf = false := by decide
theorem test_wf_lanes : (Instr.portTrained 0 0 0 [4]).wf = false := by decide
theorem test_wf_flit : (Instr.flitReceived 0 [1] 0 true []).wf = false := by decide

/-! ### Worked examples of the spec -/

/-- A row of three weights for outputs 0 and 1 of a stuck-cell example's macro (spec/02, "a stuck cell"). -/
def exCells : State := (State.reset.setMemBytes (cimBase 5) [0x7D]).setMemBytes (cimBase 5 + 64) [0x82]
  |>.setMemBytes (cimBase 5 + 128) [0x4F]
/-- A CIM step with 4-bit signed weights and 3-bit inputs. -/
def exStep : Nat := 3 * 2 ^ 16 + 2 * 2 ^ 24 + 2 ^ 26
/-- 5·(−3) + 3·2 + 6·(−1) = −15 and 5·7 + 3·(−8) + 6·4 = 35. -/
theorem test_dot_stuck_cell_example : (exCells.dot 5 0 exStep [(0, 5), (1, 3), (2, 6)]).take 2 = [-15, 35] := by
  decide +kernel
/-- Table 7 of spec/02: the bound of output 17 holds after plane 5 and not before. -/
theorem test_bound_spreader_example :
    boundHolds [(9600, true)] [0] [-2100] 7 0 = false ∧ boundHolds [(9600, true)] [0] [-7250] 6 0 = false ∧
    boundHolds [(9600, true)] [0] [-14090] 5 0 = true := by decide
/-- spec/03, "a reefer-stack thermal row": mean 1,211.0 and variance 263.25 as FP32. -/
theorem test_moments_thermal_example :
    groupInt 2 [1200, 1210, 1195, 1230, 1205, 1190, 1240, 1218] = natLe 4 0x44976000 ++ natLe 4 0x4383A000 := by
  decide +kernel
/-- spec/03, "one twistlock-detector weight": −G = 1,234,567, k = 20, draw 150,000 moves the weight by 2; a draw of
185,991 or more moves it by 1. -/
theorem test_stochastic_weight_example :
    stochRound 1234567 20 150000 = 2 ∧ stochRound 1234567 20 185991 = 1 := by decide

/-- An identity table at table 3 and the scale entry of spec/04's floodlight example: NL = 1, BITS = 2, SMODE = STREAM. -/
def exPat : List Nat :=
  List.replicate 768 0 ++ ((List.range 16).map (fun i => i + i * 2 ^ 16 + (if i = 0 then 2 ^ 31 else 0)))
def exScale : Nat := 2 ^ 30 + 2 * 2 ^ 45 + 2 * 2 ^ 48
/-- m = 1,940,000 gives s = 40 and M = 8,501,378; m = 2,318,000 gives s = 41 and M = 14,230,090. -/
theorem test_scale_floodlight_example :
    deriveScale exPat 3 exScale 1940000 2 = ⟨8501378, 40, 2⟩ ∧ deriveScale exPat 3 exScale 2318000 2 = ⟨14230090, 41, 2⟩ := by
  decide +kernel
/-- Table 6 of spec/04: codes and clips of the three conversions. -/
theorem test_codes_floodlight_example :
    [1325400, 2100000, -40000].map (requantOne exPat 3 exScale ⟨8501378, 40, 2⟩) =
      [(10, false, false), (15, false, true), (0, false, false)] := by decide +kernel
/-- T_b = 64,666. -/
theorem test_bound_floodlight_example : boundOf exPat 3 exScale ⟨8501378, 40, 2⟩ = 64666 := by decide +kernel

/-- spec/05, "a container-code character": the block 03 23 FA E2 00. -/
def exChar : List Nat := (List.range 32).map (fun c => if c = 3 then 5 else if c = 17 then 12 else if c = 30 then 1 else 0)
theorem test_block_character_example :
    blockBytes 4 [(3, 5), (17, 12), (30, 1)] exChar = [0x03, 0x23, 0xFA, 0xE2, 0x00] := by decide +kernel
/-- Its line: three positions at columns 812, 813 and 1,407, padded to 28 bytes. -/
theorem test_line_character_example :
    lineBytes 4 false ([812, 813, 1407].map (fun c => ⟨c, exChar.map (fun v => (v, decide (v ≠ 0)))⟩)) =
      [3, 0, 0, 0, 0x2C, 3, 3, 0x23, 0xFA, 0xE2, 0, 0, 0, 3, 0x23, 0xFA, 0xE2, 0, 0x51, 2, 3, 0x23, 0xFA, 0xE2, 0, 0, 0, 0] := by
  decide +kernel
/-- spec/07, layer 214: c₊ = 2, c₋ = 17, q = 16, MARGIN = 40, GUARD = 3 and T_b = 0 make the output off. -/
theorem test_awl_apron_example : sigmaOf (256 * 991) 64 = 63 ∧ judgeOutput 64 8 3 256 16 40 0 2 17 = (true, false) := by
  decide +kernel
/-- Table 2 of spec/10: an address over 24 stacks, and over 23 with stack 19 failed. -/
theorem test_address_decode_example :
    (((State.reset.setReg (Off.mem 4) 24).setReg (Off.mem 8) 0xFFFFFF).stackOf 0x001234567ABC = (19, 0xC22E4ABC)) ∧
    (((State.reset.setReg (Off.mem 4) 23).setReg (Off.mem 8) 0xF7FFFF).stackOf 0x001234567ABC = (8, 0xCA9F9ABC)) ∧
    pseudoChannel 0x001234567ABC = 42 := by decide +kernel

/-! ### States the tests are about -/

def wRun : State := { State.reset with pins := { State.reset.pins with porstLow := false } }
def wBooted : State := { wRun with sec := { wRun.sec with stage := .booted }, pins := { wRun.pins with live := true } }
def wTile : State := ({ wRun with passes := { wRun.passes with tileMap := [(5, 5)] } })
def wDoze : State := ({ wTile with clock.ns := 1000000 }).setTile 5 { Tile.empty with sleep := .doze }
def wNap : State := ({ wTile with clock.ns := 1000000 }).setTile 5 { Tile.empty with sleep := .nap }
def wRing : State := ((({ wRun with link := { wRun.link with up := true } }).setReg (Off.sq 3 8) (sqWord true 4 3 2 false)).setReg64 (Off.sq 3 0) (2 ^ 62 + 0x10000)
  |>.setReg (Off.cq 3 8) (1 + 2 * 4 + 64 * 7)).setReg64 (Off.cq 3 0) (2 ^ 62 + 0x20000)
def wReq (op : Nat) : Request := { ring := 3, cq := 3, num := 0, order := 1, desc := padTo 64 (natLe 1 op), phase := .accepted, status := .ok, held := false, pos := 0, total := 0, lastMile := none, mileMarks := 0, gen := 0, stream := none, frame := 0, key := false, tilesLeft := [], stepsDone := 0, skipped := 0, audited := 0, misses := 0, corrTiles := [], varied := false, digested := false, digestA := [], digestB := [], layers := [], energy := 0, reconciled := false, epoch := 0, awlDef := 0, wrote := false, aux := 0, keepKey := false, moved := false, driftCfg := 0, after := false, guards := [], layerDone := [], rqDone := [], scaleDone := [], mags := [], awlCounts := [], dealt := [], scaleTile := [], fromGen := 0, units := [], stop := none, lost := none }
def wDesc (op : Nat) (l : List (Nat × Nat × Nat)) : List Byte := l.foldl (fun b e => overlay b e.1 (natLe e.2.1 e.2.2)) (padTo 64 (natLe 1 op))
def wHbm : State := ((wRing.setReg (Off.mem 4) 1).setReg (Off.mem 8) 1).setMemBytes 0x1010 ((List.range 200).map (BitVec.ofNat 8 ·))
def wEvt : State := ({ wBooted with clock.ns := 5000 }).setReg (Off.evt 2 0) 0x16
def wDeepPin : State := { wEvt with sleep.pkg := .deep }
def wOver : State := (wEvt.setEvtPin 2 { EvtPin.empty with overruns := [3, 6] })
def wStuck : State := (({ wBooted with clock.ns := 5000000 }).setRegBits (Off.evt 2 0) 16 16 5).setEvtPin 2 {EvtPin.empty with level := true}
def wUnstuck : State := (({ wBooted with clock.ns := 5000000 }).setRegBit (Off.evt 2 0) 5 true)
def wOut : State := (({ wBooted with clock.ns := 5000000 }).setReg (Off.evto 1 0) 0x1401).setReg64 (Off.evto 1 8) 5000010
def wOutHigh : State := { wOut with sleep.outHigh := [1], sleep.outStart := [(1, 4000000)] }
def wRestReady : State := (({ wRun with clock.ns := 5000000 }).setReg (Off.rdy 0) 4)
def wRest : State := { wRun with clock.ns := 50000000, sleep.pkg := .rest }
def wDeepReady : State := ({ wRest with clock.ns := 20000000000 }).setRegBit (Off.ms 0x30) 17 true
def wLatched : State := (wRest.setRegBit (Off.evt 2 0) 2 true).setEvtPin 2 {EvtPin.empty with latched := true}
def wDeep : State := {wRest with sleep.pkg := .deep, link.up := true}
def wDeepEdge : State := (wDeep.setRegBit (Off.evt 2 0) 2 true).setEvtPin 2 {EvtPin.empty with latched := true, deepEdge := true, lastEdge := some 40}
def wHeldLow : State := {wRun with holds := [(Off.sq 3 0, 0x1000)]}
def wRingOff : State := wRing.setReg (Off.sq 3 8) 0
def wInflight : State := (wRing.setReq 9 (wReq 0)).setReg (Off.sq 3 0x18) 1
def wPlaced : State := (wRing.setReg (Off.sq 3 0xC) 18 |>.setReg (Off.sq 3 0x10) 15).setHostBytes (0x10000 + 15*64) [1,2,3]
def wCoal : State := ({wRing with clock.ns := 9000000}.setReg (Off.cq 3 0xC) 100).setCoal (.cq 3) 2 5
def wEnv : Surroundings := {hostBad := [7], flips := [(3, false)], bridgeRetries := [2], eccReports := []}
def wFetched : State := {wRing with rings.fetched := [{ring := 3, num := 7, bytes := padTo 64 (natLe 1 Dop.nop), bad := false}]}
def wDone : State := (({wRing with clock.ns := 555}.setReq 9 { wReq Dop.nop with phase := .finished, desc := padTo 64 [19,2,0x34,0x12] }).setReg (Off.sq 3 0x18) 1).setReg (Off.cq 3 0x18) 1 |>.setReg Off.rqInuse 1
def wLeafFull : State := {(wDone.setReq 9 { wReq Dop.streamOpen with phase := .finished }).setReg (Off.dig 0 8) 9 with audit.ns := {AuditWorld.empty with buffer := List.replicate 4096 []}}
def wCopyReq : Request := { wReq Dop.copy with desc := wDesc Dop.copy [(0x10,8,0x1010),(0x18,8,0x2003),(0x20,4,150)] }
def wFillReq : Request := { wReq Dop.fill with desc := wDesc Dop.fill [(0x10,8,0x1010),(0x18,8,0x123456789ABCDEF),(0x20,4,150)] }
def wDigReq : Request := { wReq Dop.digest with desc := wDesc Dop.digest [(0x10,8,0x1010),(0x18,8,0x2003),(0x20,4,150)] }
def wCopyReg : Request := { wReq Dop.copy with desc := wDesc Dop.copy [(0x10,8,0x030000000000),(0x18,8,0x2000),(0x20,4,4)] }
def wFrameReq : Request := { wReq Dop.run with phase := .finished, stream := some 7, order := 4 }
def wFrame : State := (((wDone.setReq 9 wFrameReq).setReg (Off.dig 0 8) 9).setReg64 (Off.memBase 0) 0x100000).setCtx 7 Cx.inflight 4 2
def wFillEnd : Request := { wReq Dop.fill with desc := wDesc Dop.fill [(0x10,8,0x7FFFFFF90),(0x18,8,0x123456789ABCDEF),(0x20,4,152)] }
def wArea : State := ((((wRing.setReg (Off.mem 4) 1).setReg (Off.mem 8) 1).setReg64 (Off.memBase 4) 0x1000000).setReg64 (Off.memSize 4) 0x800000).setHostBytes 0x300010 (natLe 8 0x1040)
def wLoad : Request := { wReq Dop.loadPass with desc := wDesc Dop.loadPass [(8,4,5),(0x10,8,2^62+0x300000),(0x18,8,0x2000)] }
def wPass : PassInfo := { stagingInfo 4 0x1000000 0x1040 false with tileUse := [5] }
def wLoadFrom : Request := { wReq Dop.loadPass with desc := wDesc Dop.loadPass [(8,4,5),(0x0C,4,4)] }
def wStaged : State := {wArea with passes.slots := [(2, wPass)]}
def wStg : PassInfo := stagingInfo 5 0x1000000 0x1040 false
def wLoad2 : Request := {wLoad with phase := .running, aux := 3}
def wAct : Activation := {req := 9, gen := 4, slot := 2, phase := .waiting}
def wPend : State := {wStaged with passes.pending := [wAct], passes.tileMap := [(5,5)]}.setReq 9 wLoad2 |>.setReg (Off.rdy 0x10) 1
def wSecs : List Section := [{typ := 4, sflags := 0, tile := 5, index := 0, offset := 0x1000, length := 64, digest := []}, {typ := 5, sflags := 0, tile := 5, index := 0, offset := 0x2000, length := 32, digest := []},{typ := 1, sflags := 0, tile := 5, index := 0, offset := 0x3000, length := 48, digest := []}]
def wPass2 : PassInfo := {wPass with sections := wSecs}
def wDrain : State := (({wPend with passes.pending := [{wAct with phase := .draining}], passes.slots := [(2, wPass2)]}.setTile 7 {Tile.empty with steps := [3#256]} |>.setMemBytes 0x1001000 (List.replicate 64 0x11)).setMemBytes 0x1002000 (List.replicate 32 0x12)).setMemBytes 0x1003000 (List.replicate 48 0x13)
def wDrop : Request := { wReq Dop.dropPass with desc := wDesc Dop.dropPass [(8,4,4)] }
def wSpill : Section := {typ := 7, sflags := 0, tile := 5, index := 0, offset := 0x3000, length := 16384, digest := []}
def wPass3 : PassInfo := {wPass with sections := wSpill :: wSecs, rotating := [5]}
def wRot : State := ({wStaged with passes.slots := [(2, wPass3)]}.setReg Off.genActive 4).setTile 5 {Tile.empty with steps := [BitVec.ofNat 256 0x201], queue := [9]} |>.setMemBytes 0x1003000 (List.replicate 40 0x11)
def wLoadW : Request := { wReq Dop.loadPass with desc := wDesc Dop.loadPass [(1,1,1),(8,4,5),(0x10,8,2^62+0x300000),(0x18,8,0x2000)] }
def wFull : State := {wArea with passes.slots := (List.range 8).map (fun k => (k, stagingInfo (10 + k) (0x1000000 + 0x10000 * k) 0x1040 false))}
def wPass4 : PassInfo := {wPass3 with batch := 1}
def wRot2 : State := {wRot with passes.slots := [(2, wPass4)]}.setTile 5 {Tile.empty with steps := [BitVec.ofNat 256 0x201], queue := [9, 8], rotReady := [8]}
def wLoadM : Request := { wReq Dop.loadPass with desc := wDesc Dop.loadPass [(8,4,5),(0x10,8,0x300000),(0x18,8,0x2000)] }
def wAreas : State := ((((((((wRing.setReg (Off.mem 4) 1).setReg (Off.mem 8) 1).setReg64 (Off.memBase 0) 0x4000000).setReg64 (Off.memSize 0) 0x2000000).setReg64 (Off.memBase 2) 0x8000000).setReg64 (Off.memSize 2) 0x10000000).setReg64 (Off.memBase 7) 0x20000000).setReg64 (Off.memSize 7) 0x800000)
def wPassT07 : PassInfo := { stagingInfo 4 0x1000000 0x1040 false with tileUse := [5] }
def wOpen : Request := { wReq Dop.streamOpen with desc := wDesc Dop.streamOpen [(8,4,77),(0x0C,4,4),(0x10,2,3),(0x12,1,9),(0x20,8,2^62)] }
def wSt : State := {wAreas with passes.slots := [(2, wPassT07)]}
def wStream : State := (((wSt.setCtx 77 0 4 1).setCtx 77 Cx.base 8 0x20000000).setCtx 77 Cx.units 4 1).setCtx 77 Cx.generation 4 4
def wClose : Request := { wReq Dop.streamClose with desc := wDesc Dop.streamClose [(8,4,77)] }
def wKey : Request := { wReq Dop.keyframe with desc := wDesc Dop.keyframe [(8,4,77)] }
def wSave : Request := { wReq Dop.save with desc := wDesc Dop.save [(8,1,0),(0x0C,4,77),(0x10,8,2^62+0x700000),(0x18,8,0x4000)] }
def wSaveH : Request := {wSave with held := true, phase := .running, aux := 44}
def wSaveP : Request := {wSaveH with desc := wDesc Dop.save [(8,1,2),(0x0C,4,4),(0x10,8,2^62+0x700000),(0x18,8,0x4000)]}
def wRestore : Request := {wSaveH with desc := wDesc Dop.restore [(8,1,0),(0x0C,4,78),(0x10,8,2^62+0x700000),(0x18,8,0x4000)]}
def wImage : State := ({wSt with passes.slots := [(2, {wPassT07 with passDigest := List.replicate 32 0})]}.setHostBytes 0x700000 (natLe 4 0x45564153 ++ natLe 2 1)).setHostBytes 0x700010 (natLe 8 0x2000) |>.setHostBytes 0x701010 [1]
def wPlan : List (BitVec 128) := [BitVec.ofNat 128 (2 + 2^4*16 + 2^13*16)]
def wActive : State := ({wSt with passes.tileMap := [(5,5)]}.setReg Off.genActive 4).setTile 5 {Tile.empty with plan := wPlan, queue := [2]} |>.setReg (Off.rdy 0x10) 1 |>.setReg (Off.tile 5 0x900) 2
def wRunNo : Request := {wReq Dop.run with gen := 4, desc := wDesc Dop.run [(8,4,4),(0x0C,4,2^31),(0x34,4,3)]}
def wRunIn : Request := {wReq Dop.run with gen := 4, desc := wDesc Dop.run [(8,4,4),(0x0C,4,2^31),(0x18,8,2^62+0x700000),(0x20,4,72),(0x24,2,320)]}
def wRunOut : Request := {wReq Dop.run with gen := 4, phase := .running, desc := wDesc Dop.run [(8,4,4),(0x0C,4,2^31),(0x28,8,2^62+0x700000),(0x30,4,72),(0x26,2,320)]}
def wSaveT : Request := {wSaveH with desc := wDesc Dop.save [(8,1,1),(0x0C,4,5),(0x10,8,2^62+0x700000),(0x18,8,0x181000)]}
def wSaveTS : State := (({wSt with passes.tileMap := [(5,5)]}.setReq 9 wSaveT).setReg (Off.rdy 0x10) 1)
def wStepT (l : List (Nat × Nat × Nat)) : BitVec 256 := BitVec.ofNat 256 (l.foldl (fun a x => putBits a x.1 x.2.1 x.2.2) 0)
def wPassT08 : PassInfo := { stagingInfo 4 0x1000000 0x1040 false with tileUse := [5] }
def wRunReq : Request := {wReq Dop.run with gen := 4, phase := .running, tilesLeft := [5], desc := wDesc Dop.run [(8,4,4),(0x0C,4,2^31)]}
def wSeq (steps : List (BitVec 256)) (plan : List (BitVec 128)) : State := (({wRing with passes := {wRing.passes with tileMap := [(5,5)], slots := [(2, wPassT08)]}}.setReg Off.genActive 4).setTile 5 {Tile.empty with steps := steps, plan := plan, queue := [9]}).setReq 9 wRunReq
def wWait : Nat := (wStepT [(0,8,0x0C),(32,16,320),(112,16,3)]).toNat
def wWaitS : State := (wSeq [wStepT [(0,8,0x0C),(32,16,320),(112,16,3)]] []).updTile 5 (fun t => {t with arrivals := [{region := 0, req := 9, count := 2},{region := 0, req := 8, count := 2}]})
def wSeam : Nat := (wStepT [(0,8,0x0D),(28,4,6),(112,16,3)]).toNat
def wShk : BitVec 256 := wStepT [(0,8,Op.shank),(32,16,320),(48,16,384),(64,16,321),(112,16,3)]
def wFin : RStep := {idx := 2, req := 9, word := wShk, next := 0, aux := 0, finished := true}
def wFinS : State := ((wSeq [] []).updTile 5 (fun t => {t with running := [wFin], sb := [{step := 2, req := 9, lo := 0, hi := 64, reads := false, writes := true}]})).setTile 6 {Tile.empty with plan := [BitVec.ofNat 128 (1+2^13*4)]}
def wMk : Marker := {dst := 5, region := 3, req := 9, ord := 1}
def wSlot : Slot := {region := 1, index := 0, position := 8, req := 9, terms := 3, finals := 0, imported := false, first := 100, size := 8}
def wDr : Drain := {src := 6, dst := 5, region := 1, layer := 3, position := 8, block := 1, slice := 0, terms := 4, tag := 2, req := 9, ord := 1, final := false, values := [5, -7]}
def wDrS : State := {(wSeq [] []).updTile 5 (fun t => {t with slots := [wSlot], ledger := [(102, {value := 10#80, tag := 2})]}) with mesh.drains := [wDr]}
def wCon : Contribution := {dst := 5, req := 9, ord := 1, layer := 3, position := 4, group := 1, tag := 2, limit := 9, sums := [1,2,3]}
def wEnt : ScatEntry := {set := scatSet 4 1, position := 4, group := 1, tag := 2, count := 3, used := 1, sums := [10,20,-30]}
def wConS : State := {(wSeq [] []).updTile 5 (fun t => {t with scat := [wEnt], scatOwner := some (9, 3)}) with mesh.contribs := [wCon]}
def wCirc : CircRec := {cq := 2, num := 6, req := 9, landed := false}
def wCircRest : List CircRec := [{wCirc with num := 7, landed := true}, {wCirc with num := 8}]
def wStepTT09 (l : List (Nat × Nat × Nat)) : BitVec 256 := BitVec.ofNat 256 (l.foldl (fun a x => putBits a x.1 x.2.1 x.2.2) 0)
def wEntryT (l : List (Nat × Nat × Nat)) : BitVec 128 := BitVec.ofNat 128 (l.foldl (fun a x => putBits a x.1 x.2.1 x.2.2) 0)
def wPassT09 : PassInfo := { stagingInfo 4 0x1000000 0x1040 false with tileUse := [5] }
def wRunReqT09 : Request := {wReq Dop.run with gen := 4, phase := .running, tilesLeft := [5], desc := wDesc Dop.run [(8,4,4),(0x0C,4,2^31)]}
def wSeqT09 (steps : List (BitVec 256)) (plan : List (BitVec 128)) : State := (({wRing with passes := {wRing.passes with tileMap := [(5,5)], slots := [(2, wPassT09)]}}.setReg Off.genActive 4).setTile 5 {Tile.empty with steps := steps, plan := plan, queue := [9]}).setReq 9 wRunReqT09
def wPlan3 : List (BitVec 128) := [wEntryT [(0,4,1),(4,9,16),(13,9,2)], wEntryT [(0,4,1),(4,9,18),(13,9,2)], wEntryT [(0,4,1),(4,9,20),(13,9,2)]]
def wGo (w : BitVec 256) : RStep := {idx := 0, req := 9, word := w, next := 0, aux := 0, finished := false}
def wWork (w : BitVec 256) (plan : List (BitVec 128)) : State := ((wSeqT09 [] plan).updTile 5 (fun t => {t with running := [{idx := 4, req := 9, word := 0x0C#256, next := 0, aux := 0, finished := true}, wGo w]})).setReg (Off.tile 5 0x900) 6 |>.setMemBytes (spBase 5 + 0x10000) [1,2,3,4,250,6,7,8] |>.setMemBytes (spBase 5 + 0x12000) [1,1,1,1,250,6,7,8]
def wAdd : BitVec 256 := wStepTT09 [(0,8,Op.shank),(32,16,320),(48,16,322),(64,16,321),(112,16,3),(128,32,4),(160,32,2),(224,32,2)]
def wRed : BitVec 256 := wStepTT09 [(0,8,Op.reduce),(32,16,320),(48,16,322),(112,16,3),(128,32,8),(224,32,4 * 2^16)]
def wRedOut : List Byte := natLe 16 10 ++ natLe 16 15
def wReqt : BitVec 256 := wStepTT09 [(0,8,Op.requant),(32,16,320),(48,16,322),(112,16,3),(128,32,2)]
def wReqS : State := (wWork wReqt wPlan3).updTile 5 (fun t => {t with scales := [BitVec.ofNat 64 (3 + 2^24*4)]})
def wReqOut : List Byte := (wReqS.reqWords wReqt.toNat).map (fun x => BitVec.ofNat 8
      (requantOne (wReqS.tile 5).pat (Step.ptab wReqt.toNat) ((wReqS.tile 5).scaleOf wReqt.toNat) (Sc.fixed ((wReqS.tile 5).scaleOf wReqt.toNat)) x).1)
def wEy : List (BitVec 128) := [wEntryT [(0,4,1),(4,9,16),(13,9,2)], wEntryT [(0,4,1),(4,9,18),(13,9,2)], wEntryT [(0,4,4),(4,9,20),(13,9,2),(26,2,3),(28,16,4),(44,16,2)]]
def wCmp : BitVec 256 := wStepTT09 [(0,8,Op.compress),(32,16,320),(48,16,322),(112,16,3),(128,32,1)]
def wCmpS : State := wWork wCmp wEy
def wCmpOut : List Byte := (wCmpS.segOut 5 wCmp.toNat).bytes ((wCmpS.segOut 5 wCmp.toNat).plainLines
      ((wCmpS.viewBytes (Step.src wCmp.toNat) 0 ((wCmpS.segOut 5 wCmp.toNat).rows * Rg.width (wCmpS.segOut 5 wCmp.toNat).e * Rg.channels (wCmpS.segOut 5 wCmp.toNat).e)).map (·.toNat)))
def wCol : BitVec 256 := wStepTT09 [(0,8,Op.collect),(32,16,321),(48,16,322),(112,16,3),(128,32,1)]
def wColPlan : List (BitVec 128) := [wEntryT [(0,4,1),(4,9,16),(13,9,2)], wEntryT [(0,4,5),(22,12,100),(34,13,64)], wEntryT [(0,4,1),(4,9,20),(13,9,2)]]
def wColSlot : Slot := {region := 1, index := 0, position := 0, req := 9, terms := 3, finals := 0, imported := false, first := 100, size := 2}
def wColS : State := (wWork wCol wColPlan).updTile 5 (fun t => {t with slots := [{wColSlot with position := 1}, wColSlot], ledger := [(100, {value := 10#80, tag := 2}), (108, {value := 10#80, tag := 2})]})
def wColOut : List Byte := ((wColS.tile 5).slotEntries wColSlot 0).flatMap (fun e => recordOf e.value e.tag wColSlot.terms)
def wMer : BitVec 256 := wStepTT09 [(0,8,Op.scatterMerge),(48,16,322),(112,16,3),(128,32,1)]
def wMerQ : Request := {wRunReqT09 with stream := some 77}
def wMerPlan : List (BitVec 128) := [wEntryT [(0,4,1),(4,9,16),(13,9,2)], wEntryT [(0,4,4),(4,9,18),(13,9,2),(26,2,3),(28,16,40),(44,16,2)], wEntryT [(0,4,3),(4,9,20),(13,9,2),(22,4,6),(26,10,33)]]
def wMerS : State := (((((wWork wMer wMerPlan).setReq 9 wMerQ).setReg64 (Off.memBase 0) 0x4000000).setCtx 77 Cx.layers 2 1).setCtx 77 Cx.base 8 0x20000000).setMemBytes 0x20000000 (natLe 2 3 ++ natLe 1 2 ++ [0,0,0,0,0] ++ natLe 4 0x100 ++ natLe 4 0x800)
def wVr : VergeRec := {position := 2, group := 0, layer := 3, req := 9, tag := 0, place := 0x3000, sums := (List.range 64).map (fun k => Int.ofNat k * 1000 - 3)}
def wMerV : State := (wMerS.updTile 5 (fun t => {t with verge := [wVr], steps := [wStepTT09 [(0,8,Op.compress),(12,1,1),(48,16,321),(112,16,3)]], pc := 1})).setMemBytes 0x20000944 [1,2,3,4]
def wStepTT10 (l : List (Nat × Nat × Nat)) : BitVec 256 := BitVec.ofNat 256 (l.foldl (fun a x => putBits a x.1 x.2.1 x.2.2) 0)
def wEntryTT10 (l : List (Nat × Nat × Nat)) : BitVec 128 := BitVec.ofNat 128 (l.foldl (fun a x => putBits a x.1 x.2.1 x.2.2) 0)
def wPassT10 : PassInfo := { stagingInfo 4 0x1000000 0x1040 false with tileUse := [5] }
def wRunReqT10 : Request := {wReq Dop.run with gen := 4, phase := .running, tilesLeft := [5], desc := wDesc Dop.run [(8,4,4),(0x0C,4,2^31)]}
def wSeqT10 (steps : List (BitVec 256)) (plan : List (BitVec 128)) : State := (({wRing with passes := {wRing.passes with tileMap := [(5,5)], slots := [(2, wPassT10)]}}.setReg Off.genActive 4).setTile 5 {Tile.empty with steps := steps, plan := plan, queue := [9]}).setReq 9 wRunReqT10
def wPlan3T10 : List (BitVec 128) := [wEntryTT10 [(0,4,1),(4,9,16),(13,9,2)], wEntryTT10 [(0,4,1),(4,9,18),(13,9,2)], wEntryTT10 [(0,4,1),(4,9,20),(13,9,2)]]
def wGoT10 (w : BitVec 256) : RStep := {idx := 0, req := 9, word := w, next := 0, aux := 0, finished := false}
def wBanks (s : State) : State := s.setReg (Off.tile 5 0x900) 6 |>.setMemBytes (spBase 5 + 0x10000) [1,2,3,4,250,6,7,8]
def wDense (op : Nat) : BitVec 256 := wStepTT10 [(0,8,op),(16,5,8),(21,1,1),(24,2,3),(26,1,1),(32,16,320),(48,16,6*64+2),(112,16,3),(128,32,2),(160,32,1)]
def wCimS (op : Nat) : State := wBanks (wSeqT10 [wDense op] wPlan3T10)
def wCimR : State := (wBanks (wSeqT10 [] wPlan3T10)).updTile 5 (fun t => {t with running := [wGoT10 (wDense 1)]})
def wJob : CimJob := {n := 5, idx := 0, i := 9, q := wRunReqT10, w := (wDense 1).toNat, e := (wPlan3T10.getD 0 0).toNat, pat := (Tile.empty).pat, seg := none, twin := none}
def wGo2 : RStep := {wGoT10 (wDense 1) with next := 2}
def wInv : State := ((wBanks (wSeqT10 [] wPlan3T10)).updTile 5 (fun t => {t with running := [wGo2]})).updMac 5 0 (fun x => {x with step := some 0, workReq := 9, work := [5, 6]}) |>.setMemBytes (cimBase 5) [1,0xFE,3] |>.setMemBytes (cimBase 5 + 64*4) [1,2,255] |>.updMac 5 0 (fun x => {x with wcode := Step.wcode (wDense 1).toNat, wsigned := Step.wsigned (wDense 1).toNat}) |>.finishMacro 5 0
def wSwap : State := wInv.updMac 5 0 (fun x => {x with swapDue := true, finalDue := true, workTag := 3, position := 1})
def wOwnW : BitVec 256 := wStepTT10 [(0,8,1),(16,5,8),(21,1,1),(24,2,3),(26,1,1),(32,16,320),(48,16,5*64+2),(112,16,3),(128,32,2),(160,32,1)]
def wOwnGo : RStep := {wGo2 with word := wOwnW}
def wOwnJob : CimJob := {wJob with w := wOwnW.toNat}
def wOwnSlot : Slot := {region := 2, index := 0, position := 1, req := 9, terms := 3, finals := 0, imported := false, first := 100, size := 8}
def wOwn : State := (wSwap.updMac 5 0 (fun x => {x with finalDue := false})).updTile 5 (fun t => {t with running := [wOwnGo], slots := [wOwnSlot], ledger := [(101, {value := 10#80, tag := Step.tag wOwnW.toNat})]})
def wScanStep : BitVec 256 := wStepTT10 [(0,8,Op.awlScan),(16,5,8),(32,16,320),(48,16,322),(112,16,3),(128,32,2)]
def wPair : BitVec 256 := putBits (wDense 1).toNat 10 2 2
def wScanS : State := (wBanks (wSeqT10 [wScanStep, wPair] wPlan3T10)).updTile 5 (fun t => {t with pc := 2, running := [{wGoT10 wScanStep with next := 1}]})
def wScan : Scan := {j := {n := 5, idx := 1, i := 9, q := wRunReqT10, w := wPair.toNat, e := (wPlan3T10.getD 0 0).toNat, pat := (Tile.empty).pat, seg := none, twin := none}, a := 8, store := [], len := 64, guard := 0, auditLog := 0, phase := 0, seed := [], nonce := 0}
def wThStep : BitVec 256 := wStepTT10 [(0,8,Op.toeheel),(32,16,320),(48,16,322),(112,16,3),(128,32,1),(224,32,0x19 + 2^8*6 + 2^14*1)]
def wThS : State := wBanks (wSeqT10 [wThStep] wPlan3T10)
def wThE : ThEntry := {tile := 5, idx := 0, req := 9, word := wThStep}
def wThQ : State := wThS.setTh 6 {ThUnit.empty with queue := [wThE, wThE]}
def wThR : State := (wThS.setTh 6 {ThUnit.empty with running := some wThE}).updTile 5 (fun t => {t with running := [wGoT10 wThStep]})
def wDig : DigestRun := {engine := 0, req := 9, layer := 3, form := 0, widthCode := 3, width := 2, channels := 4, next := 0, message := [1], waiting := [], chunks := [(1,[5]),(0,[7,8])], total := 2}
def wCmpD : BitVec 256 := wStepTT10 [(0,8,Op.compress),(13,1,1),(32,16,320),(48,16,322),(112,16,3),(128,32,2)]
def wDigS : State := {wSeqT10 [wCmpD] [wEntryTT10 [(0,4,1),(4,9,16),(13,9,2)], wEntryTT10 [(0,4,1),(4,9,18),(13,9,2)], wEntryTT10 [(0,4,4),(4,9,20),(13,9,2),(26,2,3),(28,16,4),(44,16,2)]] with audit.digests := [wDig]}
def wReqStep : BitVec 256 := wStepTT10 [(0,8,Op.requant),(32,16,320),(48,16,322),(112,16,3),(128,32,2)]
def wScaleS : State := (((((((((wSeqT10 [] []).setReg64 (Off.memBase 0) 0x4000000).setReg64 (Off.memBase 2) 0x8000000).setCtx 77 Cx.layers 2 1).setCtx 77 Cx.base 8 0x20000000).setMemBytes 0x20000000 (natLe 2 3 ++ natLe 1 1 ++ [0,0,0,0,0] ++ natLe 4 0x100 ++ natLe 4 0x800)).setMemBytes 0x10000A0 [0x20]).setMemBytes 0x1000018 [1]).setMemBytes 0x1001000 ([4,0] ++ natLe 2 5 ++ [0,0,0,0] ++ natLe 8 0x2000 ++ natLe 8 32)).setMemBytes 0x1002000 (natLe 32 wReqStep.toNat) |>.setMemBytes 0x20000108 [63] 
def wScaleQ : Request := {wRunReqT10 with stream := some 77, rqDone := [(3,1,5)], mags := [(3, 99)]}
def wBalPlan : List (BitVec 128) := [wEntryTT10 [(0,4,Kind.eyelet),(4,9,16),(13,9,2),(26,2,1),(28,16,32),(44,16,2),(126,1,1)]]
def wBalW : BitVec 256 := wStepTT10 [(0,8,1),(16,5,8),(32,16,320),(48,16,322),(112,16,3),(128,32,2),(160,32,1)]
def wBal : State := ((wSeqT10 [wBalW] wBalPlan).updTile 5 (fun t => {t with running := [wGoT10 wBalW]})).setReg (Off.tile 5 0x900) 6 |>.setMemBytes (spBase 5 + 0x10000) (segmentBytes 0 2 32 1 false (some 0) [lineBytes (wBits 1) true [⟨0, (5,true) :: List.replicate 31 (0,false)⟩]])
def wBalSeg : EyeSeg := match wBal.segmentOf [] 320 with
  | .ok g => g
  | .error _ => { first := 0, lines := [], delta := false }
-- Host ring and stack registers, then those of the Irxia block: written out so that the kernel reads them at once.
def wIx : State := { wHbm with ix.uplink := some 2, regs := [(8388800, 65536#32), (8388804, 1073741824#32), (8388808, 2097553#32), (8782016, 131072#32), (8782020, 1073741824#32), 
    (8782024, 457#32), (9633796, 1#32), (9633800, 1#32), (9895936, 16#32), (9895940, 4101#32), (9901056, 3#32), 
    (9901124, 100#32), (9901188, 100#32), (9901568, 3#32), (9901576, 7#32), (9901700, 300#32)] }
def wMgr : State := { wIx with regs := [(8388800, 65536#32), (8388804, 1073741824#32), (8388808, 2097553#32), (8782016, 131072#32), (8782020, 1073741824#32), 
    (8782024, 457#32), (9633796, 1#32), (9633800, 1#32), (9895936, 19#32), (9895940, 4096#32), (9901056, 3#32), 
    (9901064, 5#32), (9901124, 100#32), (9901188, 100#32), (9901568, 3#32), (9901576, 7#32), (9901700, 300#32), 
    (9961632, 1#32), (9961696, 1#32)] }
def wBar : Request := {wReq Dop.barrier with desc := wDesc Dop.barrier [(8,4,77),(0xC,2,9)]}
def wInst : GroupInst := {group := 9, number := 0, isBarrier := true, kind := 77, len := 0, joined := [5], firstAt := 3, req := none, done := 0, acc := [], got := []}
def wMgrB : State := { wMgr with ix.uplink := none, ix.insts := [wInst], clock.ns := 50, regs := [(8388800, 65536#32), (8388804, 1073741824#32), (8388808, 2097553#32), (8782016, 131072#32), (8782020, 1073741824#32), 
    (8782024, 457#32), (9633796, 1#32), (9633800, 1#32), (9895936, 19#32), (9895940, 4096#32), (9901056, 3#32), 
    (9901064, 5#32), (9901124, 100#32), (9901188, 100#32), (9901568, 3#32), (9901576, 7#32), (9901700, 300#32), 
    (9961632, 1#32), (9961696, 1#32), (9995392, 33#32)] }
def wBarR : Request := {wBar with phase := .running}
def wColl (k : Nat) : Request := {wReq Dop.collective with desc := wDesc Dop.collective [(8,1,k),(0xA,2,9),(0x10,8,0x1010),(0x18,8,0x2000),(0x20,4,64)], phase := .accepted}
def wIxG : State := { wIx with regs := [(8388800, 65536#32), (8388804, 1073741824#32), (8388808, 2097553#32), (8782016, 131072#32), (8782020, 1073741824#32), 
    (8782024, 457#32), (9633796, 1#32), (9633800, 1#32), (9895936, 16#32), (9895940, 4101#32), (9901056, 3#32), 
    (9901124, 100#32), (9901188, 100#32), (9901568, 3#32), (9901576, 7#32), (9901700, 300#32), (9995392, 161#32)] }
def wInC (k : Nat) : GroupInst := {group := 9, number := 2, isBarrier := false, kind := k, len := 64, joined := [5], firstAt := 3, req := some 9, done := 64, acc := [], got := []}
def wCollR (k : Nat) : Request := {wColl k with phase := .running}
def wChunkS (k : Nat) : State := ({wIxG with ix.insts := [wInC k]}.setReq 9 (wCollR k)).setMemBytes 0x2000 ((List.range 64).map (fun i => BitVec.ofNat 8 (i*7+255)))
def wLossS : State := {(((wIx.setReg (Off.win 3 0) (2 + 16*7)).setReg (Off.win 3 0x28) 100).setReg (Off.win 3 0x24) 5).setReg (Off.win 3 0x3C) 9 |>.setReg (Off.grp 9 0) 0xA1 with ix.inbound := [{src := 7, window := 1, epoch := 1, incarnation := 0, base := 0, size := 0, access := 3, secure := false, opened := true},{src := 6, window := 1, epoch := 1, incarnation := 0, base := 0, size := 0, access := 3, secure := false, opened := true}]}
def wLink (a b : Nat) : IxLink := {near := a, nearPort := 1, far := b, farPort := 2, secure := false, tree := true}
def wMgrL : State := ({wMgr with ix := {wMgr.ix with uplink := none, links := [wLink 0 5, wLink 0 7, wLink 5 8, wLink 5 9, wLink 7 9]}}.setReg (Off.map 8 0) (1 + 16 * 5)).setReg (Off.map 9 0) (1 + 16*5)
def wLedR : Request := {wCollR 8 with desc := wDesc Dop.collective [(8,1,8),(0xA,2,9),(0x10,8,0x1010),(0x18,8,0x3000),(0x20,4,64)]}
def wIxT12 : State := { wIx with regs := [(8388800, 65536#32), (8388804, 1073741824#32), (8388808, 2097553#32), (8782016, 131072#32), (8782020, 1073741824#32), 
    (8782024, 457#32), (9633796, 1#32), (9633800, 1#32), (9895936, 16#32), (9895940, 4101#32), (9901056, 3#32), 
    (9901124, 100#32), (9901188, 100#32), (9901568, 3#32), (9901576, 7#32), (9901668, 300#32), (9901700, 300#32)] }
def wWo : Request := {wReq Dop.windowOpen with desc := wDesc Dop.windowOpen [(8,1,3),(9,1,3),(0xA,2,7),(0x10,8,0x200000),(0x18,8,0x10000)]}
def wWoR : Request := {wWo with phase := .running, epoch := 6}
def wOpening : State := ((wIxT12.setReg (Off.win 3 4) 6).setReg (Off.win 3 0) (1 + 16*7 + 3 * 2^14)).setReq 9 wWoR
def wWc : Request := {wReq Dop.windowClose with desc := wDesc Dop.windowClose [(8,1,3)], order := 5}
def wRc : Request := {wReq Dop.remoteCopy with desc := wDesc Dop.remoteCopy [(0x10,8,0x1010),(0x18,8,2^63+3*2^40+0x400),(0x20,4,100)], epoch := 6}
def wRcR : Request := {wRc with phase := .running, aux := 100}
def wOpenW : State := (wIxT12.setReg (Off.win 3 4) 6).setReg (Off.win 3 0) (2 + 16*7 + 3 * 2^14)
def wTxn : Txn := {txn := 44, window := 3, epoch := 6, write := true, len := 100, req := 8, order := 1, local_ := 0x1010}
def wWcR : Request := {wWc with phase := .running, epoch := 6}
def wClosing : State := ((wOpenW.setReg (Off.win 3 0) (3 + 16*7)).setReq 9 wWcR)
def wRr : Request := {wRc with desc := wDesc Dop.remoteCopy [(0x10,8,2^63+3*2^40+0x400),(0x18,8,0x1010),(0x20,4,5000)]}
def wHdr : WinHdr := {secure := false, src := 7, dst := 5, window := 3, epoch := 6, incarnation := 0, offset := 0, len := 100, txn := 44}
def wAns : State := {wOpenW.setReq 8 wRcR with ix.txns := [wTxn]}
def wRrR : Request := {wRr with phase := .running, aux := 5000}
def wOr : OpenReq := {src := 7, window := 3, epoch := 6, incarnation := 0, base := 0x200000, size := 0x10000, access := 3, secure := false}
def wTgt : State := wIxT12.setReg64 (Off.region 0) (1 + 8 * 2^27 + 2^47 + 2^63)
def wEn : Inbound := {src := 7, window := 3, epoch := 6, incarnation := 0, base := 0x200000, size := 0x10000, access := 3, secure := false, opened := true}
def wFar : State := {wTgt with ix.inbound := [{wEn with base := 2^46}]}
def wIxT13 : State := { wIx with regs := [(8388800, 65536#32), (8388804, 1073741824#32), (8388808, 2097553#32), (8782016, 131072#32), (8782020, 1073741824#32), 
    (8782024, 457#32), (9633796, 1#32), (9633800, 1#32), (9895936, 16#32), (9895940, 4101#32), (9901056, 3#32), 
    (9901124, 100#32), (9901188, 100#32), (9901568, 3#32), (9901576, 7#32), (9901668, 300#32), (9901700, 300#32)] }
def wMgrT13 : State := { wIxT13 with ix.uplink := none, regs := [(8388800, 65536#32), (8388804, 1073741824#32), (8388808, 2097553#32), (8782016, 131072#32), (8782020, 1073741824#32), 
    (8782024, 457#32), (9633796, 1#32), (9633800, 1#32), (9895936, 19#32), (9895940, 4096#32), (9901056, 3#32), 
    (9901064, 5#32), (9901124, 100#32), (9901188, 100#32), (9901568, 3#32), (9901576, 7#32), (9901668, 300#32), 
    (9901700, 300#32), (9961632, 1#32), (9961696, 1#32)] }
def wHello : Hello := {part := 1, keyDigest := [], portsUp := 3, device := 7, port := 3, gradeB := false, manager := true, confirmed := true, submanager := false, chiplet := 0, incarnation := 1, feature := 5, loss := 9, txLatency := 70, rxLatency := 100, echo := 368}
def wAdm : Admit := {port := 2, secure := false, depth := 1, parent := 0, parentPort := 4, number := 0, ringPorts := 2, gradeB := true, chiplet := 3, feature := 5, incarnation := 4, refused := false}
def wGreet (s : State) : State := (s.setReg (Off.ixp 4 0) 2).setPort 4 {IxPort.empty with partner := some {wHello with manager := false}, rtts := List.replicate 64 360}
def wFlitBody : List Byte := padTo 248 [0x1 + 4, 0, 0, 0, 0, 0x51, 0x02]
def wFlit : List Byte := wFlitBody ++ natLe 8 (crc64 wFlitBody).toNat
def wFw : FwdPacket := {dst := 7, vl := 1, src := 0, incarnation := 0, secure := false, foreman := false, bytes := [1,2,3]}
def wScr : State := ({wTile with clock.ns := 5000}.setMac 5 3 {Macro.empty with scrubRow := 7}).setReg (Off.tile 5 0x220) 0xFFFFFFF0 |>.setReg (Off.tile 5 0x224) 0xFFFFFFFF
def wPassT14 : PassInfo := { stagingInfo 4 0x1000000 0x1040 false with tileUse := [5], sections := [{typ := 1, sflags := 0, tile := 5, index := 0, offset := 0x2000, length := 0xC123, digest := []}] }
def wScrEnd : State := ((((wScr.setMac 5 3 {Macro.empty with scrubRow := 255}).setMac 5 0 {Macro.empty with scrubRow := 256}).setMac 5 1 {Macro.empty with scrubRow := 256}).setMac 5 2 {Macro.empty with scrubRow := 300}).updTile 5 (fun t => {t with doneRuns := [(1,2)]})
def wRow (x : Row) (s : State) : State := s.putRow 5 3 7 x
def wFresh : Row := Row.fresh 4 true 0x123456789ABCDEF0F
def wBit1 : Row := { wFresh with data := wFresh.data ^^^ 16 }
def wBit2 : Row := { wFresh with data := wFresh.data ^^^ (2^64 + 2^67) }
def wRel : State := (({wScr with passes.slots := [(2,wPassT14)]}.setReg Off.genActive 4).setMac 5 3 {Macro.empty with reload := true, scrubStart := 77}).setMemBytes (0x1002000+0xC000) [1,2,3] |>.setMemBytes (cimBase 5 + 0xC010) [9] |>.updTile 5 (fun t => {t with doneRuns := [(100,2)]})
def wSp : State := wDoze.setReg (Off.tile 5 0x900) 1
def wSpPlan : State := wSp.updTile 5 (fun t => {t with plan := [BitVec.ofNat 128 (2 + 16 * 1 + 2^13)]})
def wLeaf : List Byte := padTo 160 ([1,2,3,4,5,6,7,8] ++ natLe 8 77)
def wBat : State := {wRing with clock.ns := 900000000, audit.sec := {AuditWorld.empty with openLeaves := [wLeaf, wLeaf], openedAt := 7, nextBatch := 4}}
def wBatR : State := ({wBat with sec.treeReady := true, sec.sigEpoch := 3, sec.sigC := 9}.setReg (Off.dig 1 0x30) 0x9).setReg64 (Off.dig 1 0x28) (2^62+0x700000) |>.setReg (Off.dig 1 0x34) 1
def wBefore : State := {wRun with sec.stage := .beforeBoot}
def wAllBut : State := ({wBefore with hbm.prevStacks := 5, hbm.poison := [3]}.setReg (Off.rdy 8) (0x55555555 - 2^14)).setReg (Off.rdy 12) 0xAAAA |>.setMemBytes 0x1000 [1]
def wFix : State := {wHbm.setReg (Off.rdy 8) 1 with hbm.usableFixed := true}
def wHdrT15 : WinHdr := {secure := false, src := 7, dst := 5, window := 3, epoch := 6, incarnation := 0, offset := 0, len := 2, txn := 44}
def wLinkT16 : State := ({wHbm with clock.ns := 33}.setReg (Off.hl 0) (0xFF + 2^19)) |> fun s => {s with sec := {s.sec with stage := .booted}}
def wRw (r : RingId) : RecWrite := {ring := r, tail := 6, addr := 0x20000, old := [0,1,2,0]}
def wSecR : State := wLinkT16.setReg64 (Off.region 0) (1 + 8 * 2^27 + 2^46 + 2^63)
def wProtB : State := wLinkT16.setReg64 (Off.memProt 3) (2^39+2^38+2^19)
def wParkS : State := {wHbm.setReg64 (Off.memSize 5) (4*2^30+384*2^20) with clock.ns := 50000000}
def wRunning : RStep := {idx := 2, req := 9, word := 5, next := 0, aux := 0, finished := false}
def wStuckT17 : State := ((wParkS.setReg (Off.park 0) 1).setReq 9 {wReq Dop.run with phase := .running}).setTile 5 {Tile.empty with running := [wRunning]}
def wParkW : State := ({((wHbm.setReg (Off.park 0) 3).setReg Off.genActive 4).setMemBytes 0x1000100 [1,2,3] with passes := {wHbm.passes with slots := [(2, { stagingInfo 4 0x1000000 0x1040 false with tileUse := [5], sections := [{typ := 1, sflags := 0, tile := 5, index := 0, offset := 0x100, length := 70, digest := []}] })]}})
def wParkP : State := {(wParkS.setReg (Off.park 0) 3).setReg (Off.rdy 4) 0 with park.records := [5], hbm.poison := [(wParkS.tileRecord 5)/64 + 3]}
def wGov : GovInput := {acts := [{req := some 9, tread := 0, counts := [20000000000000, 5, 7, 0, 1, 2, 3, 4]}, {req := some 8, tread := 1, counts := [20000000000000, 5, 7, 0, 1, 2, 3, 4]}, {req := none, tread := 2, counts := [0,0,0,0,0,100,100,100]}], ballastA := 1000, ballastB := 1000, tempA := 60, tempB := 70, stretches := 3, slackLowA := false, slackLowB := false}
def wPwr : State := (((({wHbm with clock.ns := 900000000, power.haveR := true}.setReg (Off.pwr 0) 1400).setReg (Off.pwr 8) (7 + 15*8 + 7*2^7+15*2^10)).setReq 9 (wReq Dop.run)).setReq 8 (wReq Dop.run))
def wHot (t : Nat) : List Reading := [{kind := 0, index := 1, temp := t, limit := 0}, {kind := 4, index := 2, temp := 70, limit := 95}]
def wMg : State := ((((wPwr.setReg (Off.ix 0) 0x13).setReg (Off.ix 4) (2^12)).setReg (Off.ixp 2 8) 5).setReg (Off.ixp 2 0) 3).setReg (Off.pwr 0x20) 3000
def wTread : State := {(wRun.setReady 0 5 1 |>.setReg (Off.pwr 8) (7+15*8+7*2^7+15*2^10)).setReg (Off.pwr 0) 3000 with passes.batchesDone := [(0,0)]}
def wSettle : State := {wRun with passes.batchesDone := (List.range 9).flatMap (fun b => [(0,b),(1,b)])}.setReg (Off.rdy 4) 0xFFFFFF |>.setReg (Off.rdy 8) 0xFFFFFFFF |>.setReg (Off.rdy 0xC) 0xFFFFFFFF |>.setReg (Off.rdy 0x20) 0xFFFFFFFF
def wMs : State := wRun.setReady 0 1 1
def wPre : State := {wMs with sec.stage := .beforeBoot}
def wMb : State := {wRing.setReg (Off.pwr 8) (7+15*8+7*2^7+15*2^10) with sec.stage := .booted, fuses.owners := [padTo 32 []], errs.repairs := [{kind := 1, tread := 0, phys := 7, unit := 2, line := 9, spare := 1, time := 99}]}.setReg64 (Off.mb 1 8) (2^62 + 0x30000) |>.setReg64 (Off.mb 0 8) (2^62 + 0x40000)
def wAnsT20 : State := {wMb with sec.mbox := [{world := 1, command := 7, arg := 2^62 + 0x30000, result := 0, response := [1,2,3]}]}
def wHostB : State := { wMb with hostBad := [0xC01] }
def wSec (n : Nat) (v : Nat) (s : State) : State := s.setReg64 (Off.region n) v
def rgv2 (b n fl : Nat) : Nat := b + 2^27*n + 2^63 + fl
def wWant : State := {wHbm.setMemBytes 0x20000a80010 [7] with sec.wantMap := [(7, true)]}
def wErr (e : ErrRec) : State := {wRing with errs.queue := [ErrRec.of .doorbell, e, ErrRec.of .spRow], errs.onDieNs := [e]}
def wLb : State := wDoze.setReg (Off.err 4) 1
def wRet : State := wTile.updTile 5 (fun t => {t with retired := true, moveDue := true})
def wTest (k t : Nat) : Request := {wReq 0x12 with units := (match k with | 2 => [(3,64)] | 5 => [(1,544)] | _ => [(1,t)]), total := 1, desc := wDesc 0x12 [(8,1,k),(0xC,4,t),(0x10,8,0x2000)]}
def wTst (k t : Nat) : State := {(wHbm.setReg (Off.pwr 8) (7+15*8+7*2^7+15*2^10)).setReg (Off.pwr 0) 3000 with reqs := [(0, wTest k t)], passes.tileMap := [(5,5)]}
def wChg2 : State := {(wSec 3 (rgv2 17 1 (2^46)) (wHbm.setMemBytes (16*2^21+5) [7,8] |>.setMemBytes (17*2^21+5) [9])) with sec.change := [{n := 3, old := BitVec.ofNat 64 (rgv2 16 2 (2^46)), new := BitVec.ofNat 64 (rgv2 17 1 (2^46))}]}
def wLowHalf : State := match exec (.registerWrite (Off.pwr 0) 4 ((0x1F400000258 : DWord) &&& 0xFFFFFFFF) true false) wRun with | .next t => t | _ => wRun

/-! ### Single steps -/

/-- Ring 17 of spec/12's gate-lane example: LOG_SIZE 8, SQ_HEAD = SQ_TAIL = 0x1FE. -/
def exRing : State := ((wRun.setReg (Off.sq 17 8) (sqWord true 8 17 2 false)).setReg (Off.sq 17 0xC) 0x1FE).setReg (Off.sq 17 0x10) 0x1FE
/-- What a step leaves of a state, read by `f`; none where it stops. -/
def after {α : Type} (c : Instr) (s : State) (f : State → α) : Option α :=
  match step { s with pending := [c] } with
  | .next t => some (f t)
  | _ => none

/-- One usable stack, twelve bytes to copy and a byte behind the destination. -/
def exCopy : State := (((wRing.setReg (Off.mem 4) 1).setReg (Off.mem 8) 1).setMemBytes 0x1010 [1, 2, 3, 4, 5, 6, 7, 8, 9, 10, 11, 12]).setMemBytes
  0x200F [77]

/-- The doorbell 0x202 passes R276 and becomes SQ_TAIL; 0x300 is more than 256 entries ahead and is discarded. -/
theorem test_doorbell_gate_lane_example :
    after (.doorbell (4096 * 17) 4 0x202 false) exRing (fun t => t.reg (Off.sq 17 0xC)) = some 0x202 ∧
    after (.doorbell (4096 * 17) 4 0x300 false) exRing (fun t => t.reg (Off.sq 17 0xC)) = some 0x1FE := by decide +kernel
/-- A COPY of 12 bytes (R284) leaves the source's bytes at the destination and the byte after them alone. -/
theorem test_copy :
    after (.copy 9) (exCopy.setReq 9 { wReq Dop.copy with desc := wDesc Dop.copy [(0x10, 8, 0x1010), (0x18, 8, 0x2003), (0x20, 4, 12)] })
      (fun t => (t.memBytes 0x2003 12, t.memBytes 0x200F 1)) = some ([1, 2, 3, 4, 5, 6, 7, 8, 9, 10, 11, 12], [77]) := by
  decide +kernel
/-- FILL repeats its VALUE little-endian (R284). -/
theorem test_fill :
    after (.fill 9) (exCopy.setReq 9 { wFillReq with desc := wDesc Dop.fill [(0x10, 8, 0x1010), (0x18, 8, 0x123456789ABCDEF), (0x20, 4, 10)] }) (fun t => t.memBytes 0x1010 10) =
      some [0xEF, 0xCD, 0xAB, 0x89, 0x67, 0x45, 0x23, 0x01, 0xEF, 0xCD] := by decide +kernel
/-- An empty queue: one tick of the reference clock passes and nothing is left to do (log entry 1). -/
theorem test_idle_step : step wRun = .next wRun.idleTick := rfl
/-- A stopped device takes no command but those of its pins (log entry 2): with PORST_N low the queue only shortens. -/
theorem test_stopped : after .linkDown State.reset (fun t => decide (t = State.reset)) = some true := by decide +kernel
/-- No word spells a command (log entry 3). -/
theorem test_no_words (n w : Nat) : decodeTableWord n w = none ∧ State.reset.withFetchWord n w = State.reset := ⟨rfl, rfl⟩

/-- The macro of spec/02's "a stuck cell": bit 1 of the weight at row 1, output 0 is stuck at 0. -/
def exStuck : State :=
  ({ wTile with stuck := [{ phys := 5, unit := 0, row := 1, col := 1, value := false }] }.updMac 5 0 (fun x => { x with wcode := 2, wsigned := true })).storeRow 5 0 1 (Row.fresh 4 true 0x82)
/-- Its checksum words are 4, −6 and 3 mod 2^16 (R51). -/
theorem test_checksum_stuck_cell_example : [0x7D, 0x82, 0x4F].map (rowSum 4 true) = [4, 65530, 3] := by decide +kernel
/-- Driven, row 1 moves the check of its plane by −2; diagnosis fills spare 0 with column 1, and the row agrees again (R54). -/
theorem test_diagnosis_stuck_cell_example :
    exStuck.rowGap 5 0 1 % 65536 = 65534 ∧ ((exStuck.diagnose 5 0).1.mac 5 0).spares = [1] ∧ (exStuck.diagnose 5 0).1.rowGap 5 0 1 % 65536 = 0 := by
  decide +kernel
/-- One wrong bit of a word is given back, two are only detected (R56). -/
theorem test_check_word_example :
    checkRead 64 7 (0xDEADBEEF ^^^ 2 ^ 40) (checkWord 64 7 0xDEADBEEF) = .fixed 0xDEADBEEF ∧
    checkRead 64 7 (0xDEADBEEF ^^^ 0x11) (checkWord 64 7 0xDEADBEEF) = .bad ∧
    checkRead 16 5 (0x1234 ^^^ 0x8000) (checkWord 16 5 0x1234) = .fixed 0x1234 := by decide +kernel

/-! ### The hypotheses of every obligation are met -/

theorem flit_crc_of (b : List Byte) (c : BitVec 64) (h : b.length = 248) (hc : crc64 b = c) :
    crc64 ((b ++ natLe 8 c.toNat).take 0xF8) = BitVec.ofNat 64 (fieldAt (b ++ natLe 8 c.toNat) 0xF8 8) := by
  have h1 : (b ++ natLe 8 c.toNat).take 0xF8 = b := by simp [← h]
  have h2 : (b ++ natLe 8 c.toNat).drop 0xF8 = natLe 8 c.toNat := by simp [← h]
  have h3 : (natLe 8 c.toNat).take 8 = natLe 8 c.toNat := List.take_of_length_le (by simp [natLe])
  rw [h1, hc, fieldAt, h2, h3, leNat_natLe]
  apply BitVec.eq_of_toNat_eq
  rw [BitVec.toNat_ofNat]
  have := c.isLt
  omega

theorem flit_crc : crc64 (wFlit.take 0xF8) = BitVec.ofNat 64 (fieldAt wFlit 0xF8 8) :=
  flit_crc_of wFlitBody (crc64 wFlitBody) (by decide +kernel) rfl

/-- No row of the napping tile's macros holds anything. -/
theorem nap_row (m r : Nat) : wNap.cellRow 5 m r = { data := 0, sum := 0, ecc := 0 } := by
  have hm (a : Nat) : Memory.readBytes zeroByte [] a 64 = List.replicate 64 0 := rfl
  have h2 : (wNap.mac 5 m).rows = [] := rfl
  have h1 : wNap.mem = [] := rfl
  rw [State.cellRow, h2, State.rowWord, State.memNat, h1, hm]
  rfl

/-- So every row of it checks clean (R58). -/
theorem nap_row_clean (m r : Nat) : (wNap.cellRow 5 m r).fixes = [] ∧ (wNap.cellRow 5 m r).badWords = 0 := by
  rw [nap_row]
  decide +kernel

theorem witness_StepRunsTheFrontCommand :
    (∃ (c : Instr) (rest : List Instr) (s : State), s.pending = c :: rest) :=
  ⟨.porst, [], { State.reset with pending := [.porst] }, rfl⟩

theorem witness_EmptyQueueTicksTheReferenceClock :
    (∃ s : State, s.pending = [] ∧ s.pins.porstLow = false ∧ s.clock.frac < 2 ^ 32) :=
  ⟨wRun, by decide +kernel⟩

theorem witness_TimeIsDisciplinedFromOneSource :
    (∃ (after : Nat) (s : State) (error : Int), (s.stopped = false) ∧ (s.follows = false) ∧ (s.pinsLive = true) ∧ (-500000000 ≤ error) ∧ (error < 500000000) ∧ (((s.stamp after : Int) + error) % 1000000000 = 0) ∧ (s.clock.rate ≤ nominalRate + nominalRate / 20000) ∧ (nominalRate - nominalRate / 20000 ≤ s.clock.rate)) ∧
    (∃ s : State, (s.stopped = false) ∧ (s.regBits (Off.ms 0x10) 0 2 = 1) ∧ (s.clock.ppsLast + 1500000000 ≤ s.now)) ∧
    (∃ (v : DWord) (s : State), (s.stopped = false) ∧ (s.sleep.pkg = .awake)) ∧
    (∃ s : State, (s.stopped = false) ∧ (s.clock.refOk = true)) :=
  ⟨⟨25, {wBooted with clock.ns := 999999980}, (ppsError 1000000005), by decide +kernel⟩,
   ⟨(({wBooted with clock.ns := 1500000000}).setReg (Off.ms 0x10) 5), by decide +kernel⟩,
   ⟨(0x123456789ABC : DWord), {wBooted with clock.ns := 1500000000}, by decide +kernel⟩,
   ⟨wBooted, by decide +kernel⟩⟩

theorem witness_TilesDozeNapWakeAndScrub :
    (∃ (n : Nat) (s : State), (s.stopped = false) ∧ (s.unbacked n = false) ∧ ((s.tile n).sleep = .awake) ∧ (s.tileIdle n = true) ∧ (s.sleep.pkg = .awake) ∧ (s.cycles64 (n / 512) (max (s.tile n).lastStep (s.tile n).sleepSince) = true)) ∧
    (∃ (n : Nat) (s : State), (s.stopped = false) ∧ ((s.tile n).sleep = .doze) ∧ (s.napUs ≠ 0) ∧ ((s.tile n).sleepSince + s.napUs * 1000 ≤ s.now) ∧ ((s.tile n).testing = false) ∧ (s.sleep.pkg = .awake)) ∧
    (∃ (n : Nat) (s : State), (s.stopped = false) ∧ ((s.tile n).sleep ≠ .awake) ∧ (s.sleep.pkg = .awake)) ∧
    (∃ (n : Nat) (s : State), (n < 1024) ∧ (s.stopped = false) ∧ ((s.tile n).sleep = .nap) ∧ (s.unbacked n = false) ∧ (s.sleep.pkg = .awake) ∧ ((∀ m, m < 64 → s.macRetired n m = false ∧ (s.mac n m).passCorr = 0)) ∧ ((∀ m, m < 64 → ∀ r, r < 256 → (s.cellRow n m r).fixes = [] ∧ (s.cellRow n m r).badWords = 0))) ∧
    (∃ (n : Nat) (s : State), (n < 1024) ∧ (s.stopped = false) ∧ ((s.tile n).sleep = .nap) ∧ (s.unbacked n = false) ∧ (s.sleep.pkg = .awake)) :=
  ⟨⟨5, {wTile with clock.ns := 1000000}, by decide +kernel⟩,
   ⟨5, wDoze, by decide +kernel⟩,
   ⟨5, wNap, by decide +kernel⟩,
   ⟨5, wNap, by decide, rfl, rfl, by decide +kernel, rfl, by decide +kernel, fun m _ r _ => nap_row_clean m r⟩,
   ⟨5, wNap, by decide +kernel⟩⟩

theorem witness_CountedEdgesAndOverrunsAreCounted :
    (∃ (i after : Nat) (rising : Bool) (s : State), (i < 8) ∧ (s.stopped = false) ∧ (s.pinsLive = true) ∧ (s.inDeep = false) ∧ (s.evtCounts i rising = true)) ∧
    (∃ (i after : Nat) (rising : Bool) (s : State), (s.stopped = false) ∧ (s.pinsLive = true) ∧ (s.evtCounts i rising = false)) ∧
    (∃ (i after : Nat) (rising : Bool) (s : State), (s.stopped = false) ∧ (s.pinsLive = true) ∧ (s.inDeep = true) ∧ (s.evtCounts i rising = true)) ∧
    (∃ (i w : Nat) (rest : List Nat) (s : State), (i < 8) ∧ (s.stopped = false) ∧ (s.inDeep = false) ∧ ((s.evtPin i).overruns = w :: rest) ∧ (1000 * (w + 1) ≤ s.now) ∧ (((s.evtPin i).lastOverrun.map (· + 1000000)).getD 0 ≤ 1000 * w) ∧ (s.parkState ≠ 2)) ∧
    (∃ (i w last : Nat) (rest : List Nat) (s : State), (i < 8) ∧ (s.stopped = false) ∧ (s.inDeep = false) ∧ ((s.evtPin i).overruns = w :: rest) ∧ (1000 * (w + 1) ≤ s.now) ∧ ((s.evtPin i).lastOverrun = some last) ∧ (1000 * w < last + 1000000)) :=
  ⟨⟨2, 7, true, wEvt, by decide +kernel⟩,
   ⟨2, 7, false, (wEvt.setReg (Off.evt 2 0) 4), by decide +kernel⟩,
   ⟨2, 7, true, wDeepPin, by decide +kernel⟩,
   ⟨2, 3, [6], wOver, by decide +kernel⟩,
   ⟨2, 3, 1000, [6], (wOver.setEvtPin 2 { EvtPin.empty with overruns := [3, 6], lastOverrun := some 1000 }), by decide +kernel⟩⟩

theorem witness_StuckPinsAreMaskedUntilTheyRest :
    (∃ (i : Nat) (s : State), (i < 8) ∧ (s.stopped = false) ∧ (s.regBits (Off.evt i 0) 16 16 ≠ 0) ∧ (s.regBit (Off.evt i 0) 5 = false) ∧ ((s.evtPin i).level = s.regBit (Off.evt i 0) 3) ∧ ((s.evtPin i).levelSince + s.regBits (Off.evt i 0) 16 16 * 1000000 ≤ s.now) ∧ (s.parkState ≠ 2)) ∧
    (∃ (i : Nat) (s : State), (i < 8) ∧ (s.stopped = false) ∧ (s.regBit (Off.evt i 0) 5 = true) ∧ ((s.evtPin i).level = !s.regBit (Off.evt i 0) 3) ∧ ((s.evtPin i).levelSince + 1000000 ≤ s.now)) ∧
    (∃ (i : Nat) (s : State), (s.stopped = false) ∧ (s.regBits (Off.evt i 0) 16 16 = 0)) ∧
    (∃ (i after : Nat) (rising : Bool) (s : State), (s.stopped = false) ∧ (s.pinsLive = true) ∧ (s.regBit (Off.evt i 0) 5 = true)) :=
  ⟨⟨2, wStuck, by decide +kernel⟩,
   ⟨2, wUnstuck, by decide +kernel⟩,
   ⟨2, wBooted, by decide +kernel⟩,
   ⟨2, 5, false, wUnstuck, by decide +kernel⟩⟩

theorem witness_EvtOutPulsesFollowTheProgrammedTime :
    (∃ (j k : Nat) (s : State), (s.stopped = false) ∧ (s.pinsLive = true) ∧ ((s.regBits (Off.evto j 0) 0 2 = 1 ∧ k = 0 ∨ s.regBits (Off.evto j 0) 0 2 = 2)) ∧ (s.pulses j ≤ k) ∧ (s.now ≤ s.reg64 (Off.evto j 8) + k * (max 1 (s.reg (Off.evto j 4)) * 1000)) ∧ (s.reg64 (Off.evto j 8) + k * (max 1 (s.reg (Off.evto j 4)) * 1000) < s.now + s.tickNs) ∧ (k = s.pulses j ∨ s.reg64 (Off.evto j 8) + (k - 1) * (max 1 (s.reg (Off.evto j 4)) * 1000) < s.now)) ∧
    (∃ (j start : Nat) (s : State), (s.stopped = false) ∧ (j ∈ s.sleep.outHigh) ∧ (s.regBits (Off.evto j 0) 0 2 ≠ 0) ∧ (tget s.sleep.outStart j = some start) ∧ (start + s.regBits (Off.evto j 0) 8 24 < s.now + s.tickNs)) ∧
    (∃ (j : Nat) (s : State), (s.stopped = false) ∧ (s.regBits (Off.evto j 0) 0 2 = 0)) :=
  ⟨⟨1, 0, wOut, by decide +kernel⟩,
   ⟨1, 4000000, wOutHigh, by decide +kernel⟩,
   ⟨1, (wOutHigh.setReg (Off.evto 1 0) 4), by decide +kernel⟩⟩

theorem witness_PackageEntersRestAndDeep :
    (∃ s : State, (s.stopped = false) ∧ (s.sleep.pkg = .awake) ∧ (s.restEn = true) ∧ (s.regBit (Off.rdy 0) 2 = true) ∧ (s.reg Off.rqInuse = 0) ∧ (s.parkState = 0) ∧ (s.sleep.idleSince + s.restMs * 1000000 ≤ s.now)) ∧
    (∃ s : State, (s.stopped = false) ∧ (s.sleep.pkg = .rest) ∧ (s.deepEn = true) ∧ (s.sleep.since + s.deepS * 1000000000 ≤ s.now) ∧ (s.reg (Off.ix 0xC) = 0)) :=
  ⟨⟨wRestReady, by decide +kernel⟩,
   ⟨wDeepReady, by decide +kernel⟩⟩

theorem witness_WakeCausesEndRestAndDeep :
    (∃ (c : Instr) (x : HeldAccess) (s : State), (s.stopped = false) ∧ (s.sleep.pkg = .rest) ∧ (s.waitsAs c = some x)) ∧
    (∃ s : State, s.sleep.pkg = .rest) ∧
    (∃ s : State, (s.stopped = false) ∧ (s.sleep.pkg = .rest) ∧ ((∃ i, i < 8 ∧ (s.evtPin i).latched = true ∧ s.evtWakes i = true))) ∧
    (∃ (cause : Nat) (s : State), (s.stopped = false) ∧ (cause ≠ 3) ∧ (s.sleep.deepWrites = []) ∧ (s.link.waiting = [])) ∧
    (∃ (c : Instr) (x : HeldAccess) (s : State), (s.stopped = false) ∧ (s.sleep.pkg = .deep) ∧ (s.waitsAs c = some x)) ∧
    (∃ s : State, (s.stopped = false) ∧ (s.sleep.pkg = .deep)) ∧
    (∃ (cause : Nat) (s : State), (s.stopped = false) ∧ (s.sleep.pkg = .deep) ∧ (s.causeStands cause = true)) ∧
    (∃ s : State, (s.stopped = false) ∧ (s.sleep.pkg = .deep) ∧ (s.sleep.deepWrites = []) ∧ (s.link.waiting = []) ∧ (s.genActive = 0) ∧ ((∃ i, i < 8 ∧ (s.evtPin i).latched = true ∧ s.evtWakes i = true))) ∧
    (∃ (v : Word) (s : State), (s.stopped = false) ∧ (s.sleep.pkg = .rest) ∧ (v.getLsbD 0 = true)) ∧
    (∃ (since : Nat) (s : State), (s.stopped = false) ∧ (s.sleep.pkg = .rest) ∧ (s.sleep.stacksWoken = some since) ∧ (since + 1000000 ≤ s.now)) :=
  ⟨⟨(.sqEnable 3 1 false), {kind := .bar0, addr := Off.sq 3 8, data := [1,0,0,0], secure := false}, wLatched, by decide +kernel⟩,
   ⟨wRest, by decide +kernel⟩,
   ⟨wLatched, by decide +kernel⟩,
   ⟨4, wRest, by decide +kernel⟩,
   ⟨(.sqEnable 3 1 false), {kind := .bar0, addr := Off.sq 3 8, data := [1,0,0,0], secure := false}, wDeep, by decide +kernel⟩,
   ⟨wDeep, by decide +kernel⟩,
   ⟨0, {wDeep with sleep := {wDeep.sleep with deepWrites := [{kind := .bar0, addr := Off.sq 3 8, data := [1,0,0,0], secure := false}]}}, by decide +kernel⟩,
   ⟨wDeepEdge, by decide +kernel⟩,
   ⟨(1:Word), wRest, by decide +kernel⟩,
   ⟨4, {wRest with sleep.stacksWoken := some 4}, by decide +kernel⟩⟩

theorem witness_RegisterWritesAreAlignedAndHeldByHalves :
    (∃ (off size : Nat) (v : DWord) (secure : Bool) (s : State), (s.stopped = false) ∧ (s.sleep.pkg = .awake) ∧ ((size ≠ 4 ∧ size ≠ 8 ∨ off % size ≠ 0))) ∧
    (∃ (off size : Nat) (v : DWord) (secure : Bool) (s : State), (s.stopped = false) ∧ (s.sleep.pkg = .awake) ∧ ((size ≠ 4 ∨ off % 4 ≠ 0 ∨ i3cReach off = false))) ∧
    (∃ (off : Nat) (v : DWord) (secure : Bool) (s : State), (s.stopped = false) ∧ (s.sleep.pkg = .awake) ∧ (off % 4 = 0) ∧ (rw64 off = true) ∧ ((secure = true ∨ s.secureReg off = false))) ∧
    (∃ (r : Nat) (low : Word) (v : DWord) (secure : Bool) (s : State), (s.stopped = false) ∧ (s.sleep.pkg = .awake) ∧ (r < 4160) ∧ (s.sqOn r = false) ∧ ((secure = true ∨ r < 4096)) ∧ (tget s.holds (Off.sq r 0) = some low)) ∧
    (∃ (r : Nat) (v : DWord) (secure : Bool) (s : State), (s.stopped = false) ∧ (s.sleep.pkg = .awake) ∧ (r < 4160) ∧ (s.sqOn r = false) ∧ ((secure = true ∨ r < 4096))) ∧
    (∃ (off : Nat) (v : DWord) (secure : Bool) (s t : State), (s.stopped = false) ∧ (s.sleep.pkg = .awake) ∧ (off % 8 = 0) ∧ (rw64 off = false) ∧ (s.regWrites = []) ∧ exec (.registerWrite off 4 (v &&& 0xFFFFFFFF) secure false) s = .next t) :=
  ⟨⟨0x20, 2, (1:DWord), true, wRun, by decide +kernel⟩,
   ⟨0x20, 4, (1:DWord), true, wRun, by decide +kernel⟩,
   ⟨(Off.sq 3 0), (0x123456789AB:DWord), false, wRun, by decide +kernel⟩,
   ⟨3, (0x1000:Word), (7:DWord), false, wHeldLow, by decide +kernel⟩,
   ⟨3, (0x123456789AB:DWord), false, wRun, by decide +kernel⟩,
   ⟨Off.pwr 0, 0x1F400000258, true, wRun, wLowHalf, by decide +kernel, by decide +kernel, by decide +kernel, by decide +kernel, rfl, rfl⟩⟩

theorem witness_NonSecureWritesOfSecureRegistersOnlyCount :
    (∃ (off size : Nat) (v : DWord) (s : State), (s.stopped = false) ∧ (s.sleep.pkg = .awake) ∧ ((size = 4 ∨ size = 8 ∧ rw64 off = true)) ∧ (off % size = 0) ∧ (off < Off.limit) ∧ (s.secureReg off = true)) :=
  ⟨(Off.region 2), 8, (0x123456789AB:DWord), wRun, by decide +kernel⟩

theorem witness_SnapshotsLatchesAndTestPort :
    (∃ (w : Nat) (v : DWord) (secure : Bool) (s : State), (s.stopped = false) ∧ (s.sleep.pkg = .awake) ∧ (w < 2) ∧ ((w = 1 → secure = true)) ∧ (v.toNat % 256 = 0) ∧ (v.toNat < Off.limit)) ∧
    (∃ (off : Nat) (secure : Bool) (s : State), (s.stopped = false) ∧ (s.sleep.pkg = .awake) ∧ (off % 4 = 0) ∧ (isLow64 off = true) ∧ ((secure = true ∨ s.secureReg off = false))) ∧
    (∃ (b : Nat) (s : State), s.pins.porstLow = false) ∧
    (∃ (off : Nat) (secure : Bool) (s : State), (s.stopped = false) ∧ (s.sleep.pkg = .awake) ∧ (off % 4 ≠ 0)) ∧
    (∃ (off : Nat) (s : State), (s.stopped = false) ∧ (s.sleep.pkg = .awake) ∧ (off % 4 = 0) ∧ (off < Off.limit) ∧ (s.secureReg off = true) ∧ (s.secureReg (off + 4) = true)) :=
  ⟨⟨0, (0x9B0000:DWord), false, {wRun with clock.ns := 0x123456789AB}, by decide +kernel⟩,
   ⟨(Off.ms 0), false, {wRun with clock.ns := 0x123456789AB}, by decide +kernel⟩,
   ⟨1, {wRun with pins := {wRun.pins with ibi := [1,2]}}, by decide +kernel⟩,
   ⟨6, false, wRun, by decide +kernel⟩,
   ⟨(Off.region 2), wRun, by decide +kernel⟩⟩

theorem witness_DoorbellsMoveTheTailOrAreDiscarded :
    (∃ (r size : Nat) (v : DWord) (secure : Bool) (s : State), (s.stopped = false) ∧ (s.sleep.pkg = .awake) ∧ (s.postedWaits = false) ∧ (r < 4160) ∧ ((size = 4 ∨ size = 8)) ∧ ((secure = true ∨ r < 4096)) ∧ (s.sqOn r = true) ∧ ((v.toNat % 2 ^ 32 + 2 ^ 32 - s.reg (Off.sq r 0x10)) % 2 ^ 32 ≤ s.sqSize r) ∧ ((v.toNat % 2 ^ 32 + 2 ^ 32 - s.reg (Off.sq r 0xC)) % 2 ^ 32 ≤ s.sqSize r)) ∧
    (∃ (r size : Nat) (v : DWord) (secure : Bool) (s : State), (s.stopped = false) ∧ (s.sleep.pkg = .awake) ∧ (s.postedWaits = false) ∧ (r < 4160) ∧ ((size = 4 ∨ size = 8)) ∧ ((secure = true ∨ r < 4096)) ∧ ((s.sqOn r = false ∨ s.sqSize r < (v.toNat % 2 ^ 32 + 2 ^ 32 - s.reg (Off.sq r 0x10)) % 2 ^ 32 ∨ s.sqSize r < (v.toNat % 2 ^ 32 + 2 ^ 32 - s.reg (Off.sq r 0xC)) % 2 ^ 32))) ∧
    (∃ (off size : Nat) (v : DWord) (secure : Bool) (s : State), (s.stopped = false) ∧ (s.sleep.pkg = .awake) ∧ (s.postedWaits = false) ∧ ((4160 ≤ off / 4096 ∨ off % 4096 ≠ 0 ∨ size ≠ 4 ∧ size ≠ 8))) ∧
    (∃ (r size : Nat) (v : DWord) (s : State), (s.stopped = false) ∧ (s.sleep.pkg = .awake) ∧ (s.postedWaits = false) ∧ (4096 ≤ r) ∧ (r < 4160) ∧ ((size = 4 ∨ size = 8))) ∧
    (∃ (off size : Nat) (v : DWord) (secure : Bool) (s : State), (s.stopped = false) ∧ (s.sleep.pkg = .awake) ∧ (s.postedWaits = true)) ∧
    (∃ (off size : Nat) (v : DWord) (secure : Bool) (s : State), (s.stopped = false) ∧ (s.inDeep = true)) :=
  ⟨⟨3, 4, (5:DWord), false, wRing, by decide +kernel⟩,
   ⟨3, 4, (50:DWord), false, wRing, by decide +kernel⟩,
   ⟨5, 4, (50:DWord), false, wRing, by decide +kernel⟩,
   ⟨4097, 4, (50:DWord), wRing, by decide +kernel⟩,
   ⟨0x3000, 4, (50:DWord), false, {wRing with link.waiting := [{ cxl := false, write := true, door := false, addr := 0, len := 1, data := [1], secure := false, found := .clean }]}, by decide +kernel⟩,
   ⟨4096, 4, (50:DWord), false, {wRing with sleep.pkg := .deep}, by decide +kernel⟩⟩

theorem witness_SubmissionRingsEnableDisableAndAbort :
    (∃ (r : Nat) (v : Word) (secure : Bool) (s : State), (s.stopped = false) ∧ (s.sleep.pkg = .awake) ∧ (r < 4160) ∧ ((secure = true ∨ r < 4096)) ∧ (v.getLsbD 0 = true) ∧ (v.getLsbD 1 = false) ∧ (s.sqOn r = false) ∧ (s.sqMayEnable r (sqCq v.toNat) = true)) ∧
    (∃ (r : Nat) (v : Word) (secure : Bool) (s : State), (s.stopped = false) ∧ (s.sleep.pkg = .awake) ∧ (r < 4160) ∧ ((secure = true ∨ r < 4096)) ∧ (v.getLsbD 0 = true) ∧ (v.getLsbD 1 = false) ∧ (s.sqOn r = false) ∧ (s.sqMayEnable r (sqCq v.toNat) = false)) ∧
    (∃ (r : Nat) (v : Word) (secure : Bool) (s : State), (s.stopped = false) ∧ (s.sleep.pkg = .awake) ∧ (r < 4160) ∧ ((secure = true ∨ r < 4096)) ∧ (v.getLsbD 0 = true) ∧ (v.getLsbD 1 = false) ∧ (s.sqOn r = true)) ∧
    (∃ (r : Nat) (v : Word) (c : Instr) (s : State), (s.stopped = false) ∧ (s.sleep.pkg = .awake) ∧ (4096 ≤ r) ∧ (r < 4160) ∧ ((c = .sqEnable r v false ∧ v.getLsbD 0 = true ∧ v.getLsbD 1 = false ∨ c = .sqDisable r v false ∧ v.getLsbD 0 = false ∧ v.getLsbD 1 = false ∨ c = .sqAbort r v false ∧ v.getLsbD 1 = true))) ∧
    (∃ (r : Nat) (v : Word) (secure : Bool) (s : State), (s.stopped = false) ∧ (s.sleep.pkg = .awake) ∧ (r < 4160) ∧ ((secure = true ∨ r < 4096)) ∧ (v.getLsbD 0 = false) ∧ (v.getLsbD 1 = false)) ∧
    (∃ (r : Nat) (v : Word) (secure : Bool) (s : State), (s.stopped = false) ∧ (s.sleep.pkg = .awake) ∧ (r < 4160) ∧ ((secure = true ∨ r < 4096)) ∧ (v.getLsbD 1 = true)) :=
  ⟨⟨3, (BitVec.ofNat 32 (sqWord true 4 3 2 false)), false, wRingOff, by decide +kernel⟩,
   ⟨3, (BitVec.ofNat 32 (sqWord true 4 4 2 false)), false, wRingOff, by decide +kernel⟩,
   ⟨3, (BitVec.ofNat 32 (sqWord true 9 4 7 false)), false, wRing, by decide +kernel⟩,
   ⟨4097, 1, (.sqEnable 4097 1 false), wRing, by decide +kernel⟩,
   ⟨3, (BitVec.ofNat 32 (sqWord false 4 4 2 false)), false, {wRing with rings.fetched := [{ring := 3, num := 0, bytes := [], bad := false}]}, by decide +kernel⟩,
   ⟨3, (2:Word), false, wInflight, by decide +kernel⟩⟩

theorem witness_WrittenRingsEnableDisableAndFreeTheirEntries :
    (∃ (ring : RingId) (v : Word) (secure : Bool) (s : State), (s.stopped = false) ∧ (s.sleep.pkg = .awake) ∧ (ring.wf = true) ∧ ((secure = true ∨ ring.world = 0)) ∧ (v.getLsbD 0 = true) ∧ (s.ringOn ring = false) ∧ (baseGood (s.reg64 ring.baseOff) = true)) ∧
    (∃ (c : Nat) (v : Word) (secure : Bool) (s : State), (s.stopped = false) ∧ (s.sleep.pkg = .awake) ∧ (c < 4160) ∧ ((secure = true ∨ c < 4096)) ∧ (v.getLsbD 0 = true) ∧ (s.ringOn (.cq c) = false) ∧ (baseGood (s.reg64 (Off.cq c 0)) = true)) ∧
    (∃ (ring : RingId) (v : Word) (secure : Bool) (s : State), (s.stopped = false) ∧ (s.sleep.pkg = .awake) ∧ (ring.wf = true) ∧ ((secure = true ∨ ring.world = 0)) ∧ (v.getLsbD 0 = false) ∧ (s.ringOn ring = true) ∧ (s.cqHeld ring = false)) ∧
    (∃ (c : Nat) (v : Word) (secure : Bool) (s : State), (s.stopped = false) ∧ (s.sleep.pkg = .awake) ∧ (c < 4160) ∧ ((secure = true ∨ c < 4096)) ∧ (v.getLsbD 0 = false) ∧ (s.ringOn (.cq c) = true) ∧ (s.cqHeld (.cq c) = true)) ∧
    (∃ (ring : RingId) (v : Word) (secure : Bool) (s : State), (s.stopped = false) ∧ (s.sleep.pkg = .awake) ∧ (ring.wf = true) ∧ ((secure = true ∨ ring.world = 0)) ∧ ((v.toNat + 2 ^ 32 - s.reg ring.headOff) % 2 ^ 32 ≤ s.ringUsed ring)) ∧
    (∃ (c : Nat) (v : Word) (secure : Bool) (s : State), (s.stopped = false) ∧ (s.sleep.pkg = .awake) ∧ (c < 4160) ∧ ((secure = true ∨ c < 4096)) ∧ (s.ringUsed (.cq c) < (v.toNat + 2 ^ 32 - s.reg (Off.cq c 0x14)) % 2 ^ 32)) ∧
    (∃ (ring : RingId) (v : Word) (secure : Bool) (s : State), (s.stopped = false) ∧ (s.sleep.pkg = .awake) ∧ (ring.wf = true) ∧ ((secure = true ∨ ring.world = 0)) ∧ (ring ∈ [.evq 0, .evq 1, .erq 0, .erq 1, .plog 0, .plog 1, .pbat 0, .pbat 1, .dlog 0, .dlog 1]) ∧ (s.ringUsed ring < (v.toNat + 2 ^ 32 - s.reg ring.headOff) % 2 ^ 32)) ∧
    (∃ (ring : RingId) (v : Word) (secure : Bool) (s : State), (s.stopped = false) ∧ (s.sleep.pkg = .awake) ∧ (ring.wf = true) ∧ ((secure = true ∨ ring.world = 0)) ∧ (v.getLsbD 0 = true) ∧ ((s.ringOn ring = true ∨ baseGood (s.reg64 ring.baseOff) = false))) ∧
    (∃ (ring : RingId) (v : Word) (c : Instr) (s : State), (s.stopped = false) ∧ (s.sleep.pkg = .awake) ∧ (ring.wf = true) ∧ (ring.world = 1) ∧ ((c = .ringEnable ring v false ∧ v.getLsbD 0 = true ∨ c = .ringDisable ring v false ∧ v.getLsbD 0 = false ∨ c = .ringHeadWrite ring v false))) :=
  ⟨⟨(.cq 3), (1+2*5+64*9:Word), false, (wRing.setReg (Off.cq 3 8) 0), by decide +kernel⟩,
   ⟨3, (1+2*5+64*9:Word), false, (wRing.setReg (Off.cq 3 8) 0), by decide +kernel⟩,
   ⟨(.cq 3), (2*5+64*9:Word), false, wRingOff, by decide +kernel⟩,
   ⟨3, (2*5+64*9:Word), false, wRing, by decide +kernel⟩,
   ⟨(.cq 3), (2:Word), false, (wRing.setReg (Off.cq 3 0x10) 5), by decide +kernel⟩,
   ⟨3, (6:Word), false, (wRing.setReg (Off.cq 3 0x10) 5), by decide +kernel⟩,
   ⟨(.erq 1), 6, true, wRing, by decide +kernel⟩,
   ⟨(.evq 1), 65, true, wRing, by decide +kernel⟩,
   ⟨(.dlog 1), 65, (.ringEnable (.dlog 1) 65 false), wRing, by decide +kernel⟩⟩

theorem witness_FetchTurnReadsTheRingInSlotOrder :
    (∃ (bad : List Nat) (r : Nat) (s : State), (s.stopped = false) ∧ (s.parkState = 0) ∧ (s.link.up = true) ∧ (s.inDeep = false) ∧ (s.nextRing = some r) ∧ (s.reqRoom ≠ 0) ∧ (0 < sqWeight (s.sqCtrl r))) ∧
    (∃ (bad : List Nat) (r : Nat) (s : State), (s.stopped = false) ∧ (s.parkState = 0) ∧ (s.link.up = true) ∧ (s.inDeep = false) ∧ (s.nextRing = some r) ∧ (s.reqRoom = 0)) :=
  ⟨⟨[], 3, wPlaced, by decide +kernel⟩,
   ⟨[], 3, (wPlaced.setReg Off.rqInuse 262144), by decide +kernel⟩⟩

theorem witness_MessagesGoOutWhenDueAndWhenUnmasked :
    (∃ (ring : RingId) (off : Nat) (s : State), (s.stopped = false) ∧ (ring.coalOff = some off) ∧ (0 < (s.coalOf ring).count) ∧ (0 < s.regBits off 0 16) ∧ ((s.coalOf ring).since + s.regBits off 0 16 * 1000 ≤ s.now)) ∧
    (∃ (v : Nat) (s : State), (s.stopped = false) ∧ (s.sleep.pkg = .awake) ∧ (v < 2048)) ∧
    (∃ (v : Nat) (s : State), (s.stopped = false) ∧ (s.sleep.pkg = .awake)) ∧
    (∃ (v : Nat) (s : State), (s.stopped = false) ∧ (s.sleep.pkg = .awake)) :=
  ⟨⟨(.cq 3), (Off.cq 3 0xC), wCoal, by decide +kernel⟩,
   ⟨7, (wRing.setReg (Off.pba 7) 128), by decide +kernel⟩,
   ⟨7, wRing, by decide +kernel⟩,
   ⟨7, {((wRing.setReg (Off.pba 7) 384).setReg (Off.msix 7 12) 0) with link.funcMask := true}, by decide +kernel⟩⟩

theorem witness_AcceptedDescriptorsTakeAnEntryAndAReservation :
    (∃ (r : Nat) (f : Fetched) (env : Surroundings) (s : State), (s.stopped = false) ∧ (r < 4160) ∧ (s.rings.fetched.find? (fun f => decide (f.ring = r)) = some f) ∧ (s.parkState = 0) ∧ (s.inDeep = false) ∧ (lowestFree s.reqs 0 < 262144)) :=
  ⟨3, {ring := 3, num := 7, bytes := padTo 64 (natLe 1 Dop.nop), bad := false}, wEnv, wFetched, by decide +kernel⟩

theorem witness_CompletionWritesOneFinalRecord :
    (∃ (i : Nat) (q : Request) (s : State), (s.stopped = false) ∧ (s.req? i = some q) ∧ (q.phase = .finished) ∧ (s.link.up = true) ∧ (s.parkState ≠ 2) ∧ (q.ring < 4160) ∧ (q.cq < 4160) ∧ (s.leafDue q = false) ∧ (q.stream = none)) ∧
    (∃ (i : Nat) (q : Request) (s : State), (s.stopped = false) ∧ (s.req? i = some q) ∧ (q.phase = .finished) ∧ (s.link.up = true) ∧ (s.parkState ≠ 2) ∧ (s.leafDue q = true) ∧ (s.leafRoom (worldNum q.secure) = false)) ∧
    (∃ (i : Nat) (q : Request) (s : State), (s.stopped = false) ∧ (s.req? i = some q) ∧ (q.phase = .finished) ∧ (s.link.up = true) ∧ (s.parkState ≠ 2) ∧ (q.ring < 4160) ∧ (q.cq < 4160) ∧ ((s.leafDue q = true → s.leafRoom (worldNum q.secure) = true)) ∧ ((q.status.isOk = true ∨ ∀ st ∈ q.stream, s.framesBefore q st = false ∧ s.behindHold q = false))) ∧
    (∃ (i st : Nat) (q : Request) (s : State), (s.stopped = false) ∧ (s.req? i = some q) ∧ (q.phase = .finished) ∧ (s.link.up = true) ∧ ((s.leafDue q = true → s.leafRoom (worldNum q.secure) = true)) ∧ (q.stream = some st) ∧ (q.status.isOk = false) ∧ ((s.framesBefore q st || s.behindHold q) = true)) :=
  ⟨⟨9, { wReq Dop.nop with phase := .finished, desc := padTo 64 [19,2,0x34,0x12] }, wDone, by decide +kernel⟩,
   ⟨9, { wReq Dop.streamOpen with phase := .finished }, wLeafFull, by decide +kernel⟩,
   ⟨9, wFrameReq, wFrame, by decide +kernel⟩,
   ⟨9, 7, {wFrameReq with status := .aborted}, ((wFrame.setReq 9 {wFrameReq with status := .aborted}).setReq 4 {wFrameReq with order := 1}), by decide +kernel⟩⟩

theorem witness_MoversStoreExactlyTheirDestination :
    (∃ (i src dst n : Nat) (q : Request) (s : State), (s.stopped = false) ∧ (s.regWrites = []) ∧ (s.req? i = some q) ∧ (q.opcode = Dop.copy) ∧ ((s.mayStart q || s.goesOn q) = true) ∧ (q.fld 0x10 8 = src) ∧ (q.fld 0x18 8 = dst) ∧ (q.fld 0x20 4 = n) ∧ (LinesOpen s q.secure false true src n) ∧ (LinesOpen s q.secure true false dst n)) ∧
    (∃ (i dst n : Nat) (q : Request) (s : State), (s.stopped = false) ∧ (s.regWrites = []) ∧ (s.req? i = some q) ∧ (q.opcode = Dop.fill) ∧ ((s.mayStart q || s.goesOn q) = true) ∧ (q.fld 0x10 8 = dst) ∧ (q.fld 0x20 4 = n) ∧ (LinesOpen s q.secure true false dst n)) ∧
    (∃ (i src out n : Nat) (q : Request) (s : State), (s.stopped = false) ∧ (s.regWrites = []) ∧ (s.req? i = some q) ∧ (q.opcode = Dop.digest) ∧ ((s.mayStart q || s.goesOn q) = true) ∧ (q.fld 0x10 8 = src) ∧ (q.fld 0x18 8 = out) ∧ (q.fld 0x20 4 = n) ∧ (LinesOpen s q.secure false false src n) ∧ (LinesOpen s q.secure true false out 32)) ∧
    (∃ (i off dst : Nat) (q : Request) (s : State), (s.stopped = false) ∧ (s.regWrites = []) ∧ (s.req? i = some q) ∧ (q.opcode = Dop.copy) ∧ ((s.mayStart q || s.goesOn q) = true) ∧ (q.mileposts = false) ∧ (off % 4 = 0) ∧ (off < Off.limit) ∧ (q.fld 0x10 8 = 0x030000000000 + off) ∧ (q.fld 0x18 8 = dst) ∧ (q.fld 0x20 4 = 4) ∧ (s.toll q.secure false false true (0x030000000000 + off) 4 = .bar0) ∧ ((q.secure = true ∨ s.secureReg off = false)) ∧ (LinesOpen s q.secure true false dst 4)) ∧
    (∃ (i dst n m : Nat) (q : Request) (s : State), (s.stopped = false) ∧ (s.regWrites = []) ∧ (s.req? i = some q) ∧ (q.opcode = Dop.fill) ∧ ((s.mayStart q || s.goesOn q) = true) ∧ (q.mileposts = false) ∧ (q.fld 0x10 8 = dst) ∧ (q.fld 0x20 4 = n) ∧ (m < n) ∧ ((m = 0 ∨ (dst + m) % 64 = 0)) ∧ (LinesOpen s q.secure true false dst m) ∧ ((∀ p ∈ (linePieces dst n).filter (fun p => decide (p.1 = dst + m)), s.toll q.secure false true false p.1 p.2 ∈ [.world, .memRange]))) :=
  ⟨⟨9, 0x1010, 0x2003, 150, wCopyReq, (wHbm.setReq 9 wCopyReq), by decide +kernel⟩,
   ⟨9, 0x1010, 150, wFillReq, (wHbm.setReq 9 wFillReq), by decide +kernel⟩,
   ⟨9, 0x1010, 0x2003, 150, wDigReq, (wHbm.setReq 9 wDigReq), by decide +kernel⟩,
   ⟨9, 0, 0x2000, wCopyReg, (wHbm.setReq 9 wCopyReg), by decide +kernel⟩,
   ⟨9, 0x7FFFFFF90, 152, 112, wFillEnd, (wHbm.setReq 9 wFillEnd), by decide +kernel⟩⟩

theorem witness_FencesWaitForEarlierDescriptors :
    (∃ (i : Nat) (q : Request) (s : State), (s.stopped = false) ∧ (s.req? i = some q) ∧ (q.opcode = Dop.nop) ∧ (s.mayStart q = true)) ∧
    (∃ (i : Nat) (q : Request) (s : State), (s.stopped = false) ∧ (s.req? i = some q) ∧ (q.opcode = Dop.fence) ∧ ((s.mayStart q || s.goesOn q) = true) ∧ ((s.earlier q).any (fun e => if q.fld 8 1 = 0 then decide (e.2.ring = q.ring) else e.2.secure == q.secure) = false)) ∧
    (∃ (i : Nat) (q : Request) (s : State), (s.stopped = false) ∧ (s.req? i = some q) ∧ (q.opcode = Dop.fence) ∧ ((s.mayStart q || s.goesOn q) = true) ∧ ((s.earlier q).any (fun e => if q.fld 8 1 = 0 then decide (e.2.ring = q.ring) else e.2.secure == q.secure) = true)) :=
  ⟨⟨9, (wReq Dop.nop), (wRing.setReq 9 (wReq Dop.nop)), by decide +kernel⟩,
   ⟨9, (wReq Dop.fence), (wRing.setReq 9 (wReq Dop.fence)), by decide +kernel⟩,
   ⟨9, (wReq Dop.fence), ((wRing.setReq 9 (wReq Dop.fence)).setReq 4 {wReq Dop.nop with order := 0}), by decide +kernel⟩⟩

theorem witness_StagingPlacesChecksAndRefusesImages :
    (∃ (i k base : Nat) (q : Request) (s : State), (s.stopped = false) ∧ (s.req? i = some q) ∧ (q.opcode = Dop.loadPass) ∧ (s.mayStart q = true) ∧ (q.mileposts = false) ∧ (q.fld 0x0C 4 = 0) ∧ (ptrSpace (q.fld 0x10 8) = 1) ∧ (lengthBad (leNat (s.hostBytes (ptrAddr (q.fld 0x10 8) + 0x10) 8)) (leNat (s.hostBytes (ptrAddr (q.fld 0x10 8) + 0x18) 4)) (q.fld 0x18 8) = false) ∧ (s.hostStop (ptrAddr (q.fld 0x10 8)) (max 4096 (leNat (s.hostBytes (ptrAddr (q.fld 0x10 8) + 0x10) 8))) = none) ∧ (s.slotFor i (leNat (s.hostBytes (ptrAddr (q.fld 0x10 8) + 0x10) 8)) = some (k, base)) ∧ (k < 8)) ∧
    (∃ (i k base src n : Nat) (q : Request) (s : State), (s.stopped = false) ∧ (s.req? i = some q) ∧ (q.opcode = Dop.loadPass) ∧ (s.mayStart q = true) ∧ (q.fld 0x0C 4 = 0) ∧ (q.fld 0x10 8 = src) ∧ (leNat (s.memBytes (src + 0x10) 8) = n) ∧ (lengthBad n (leNat (s.memBytes (src + 0x18) 4)) (q.fld 0x18 8) = false) ∧ (LinesOpen s q.secure false false src (max 4096 n)) ∧ (s.slotFor i n = some (k, base)) ∧ (k < 8)) ∧
    (∃ (i k : Nat) (p : PassInfo) (q : Request) (s : State), (s.stopped = false) ∧ (s.req? i = some q) ∧ (q.opcode = Dop.loadPass) ∧ (s.mayStart q = true) ∧ (q.mileposts = false) ∧ (q.fld 0x0C 4 ≠ 0) ∧ (s.slotOf (q.fld 0x0C 4) = some (k, p)) ∧ (s.staged (q.fld 0x0C 4) = true) ∧ (s.actPending (q.fld 0x0C 4) = false)) ∧
    (∃ (i k : Nat) (p : PassInfo) (q : Request) (s : State), (s.stopped = false) ∧ (s.req? i = some q) ∧ (q.opcode = Dop.loadPass) ∧ (s.goesOn q = true) ∧ (q.aux = k + 1) ∧ (s.slot? k = some p) ∧ (p.staging = true) ∧ (s.hbm.flips = []) ∧ (s.poisonIn p.base p.length = none) ∧ ((s.imgSecs p.base).findSome? (fun x => s.sectionStop p.base x) = none)) ∧
    (∃ (i k b : Nat) (p : PassInfo) (q : Request) (s : State), (s.stopped = false) ∧ (s.req? i = some q) ∧ (q.opcode = Dop.loadPass) ∧ (s.goesOn q = true) ∧ (q.aux = k + 1) ∧ (s.slot? k = some p) ∧ (p.staging = true) ∧ (s.hbm.flips = []) ∧ (s.poisonIn p.base p.length = some b)) ∧
    (∃ (i : Nat) (q : Request) (s : State), (s.stopped = false) ∧ (s.req? i = some q) ∧ (q.opcode = Dop.loadPass) ∧ (s.mayStart q = true) ∧ (q.fld 0x0C 4 = 0) ∧ (ptrSpace (q.fld 0x10 8) = 1) ∧ (q.wait = true) ∧ (s.passes.slotWait.any (fun w => decide (w.req = i)) = false) ∧ (lengthBad (leNat (s.hostBytes (ptrAddr (q.fld 0x10 8) + 0x10) 8)) (leNat (s.hostBytes (ptrAddr (q.fld 0x10 8) + 0x18) 4)) (q.fld 0x18 8) = false) ∧ (s.hostStop (ptrAddr (q.fld 0x10 8)) 4096 = none) ∧ (s.slotFor i (leNat (s.hostBytes (ptrAddr (q.fld 0x10 8) + 0x10) 8)) = none)) :=
  ⟨⟨9, 0, 0x1000000, wLoad, ((wArea.setHostBytes 0x300100 [1,2,3]).setReq 9 wLoad), by decide +kernel⟩,
   ⟨9, 0, 0x1000000, 0x300000, 0x1040, wLoadM, ((wArea.setMemBytes 0x300010 (natLe 8 0x1040)).setReq 9 wLoadM), by decide +kernel⟩,
   ⟨9, 2, wPass, wLoadFrom, (wStaged.setReq 9 wLoadFrom), by decide +kernel⟩,
   ⟨9, 2, wStg, wLoad2, ({wArea with passes.slots := [(2, wStg)]}.setReq 9 wLoad2), by decide +kernel⟩,
   ⟨9, 2, 0x1000040, wStg, wLoad2, ({wArea with passes.slots := [(2, wStg)], hbm.poison := [0x40001]}.setReq 9 wLoad2), by decide +kernel⟩,
   ⟨9, wLoadW, (wFull.setReq 9 wLoadW), by decide +kernel⟩⟩

theorem witness_ActivationDrainsWritesAndSwitches :
    (∃ (a : Activation) (rest : List Activation) (q : Request) (p : PassInfo) (s : State), (s.stopped = false) ∧ (s.passes.pending = a :: rest) ∧ (s.req? a.req = some q) ∧ (s.slot? a.slot = some p) ∧ (a.phase = .waiting) ∧ (s.parkState = 0) ∧ ((∀ n ∈ p.tileUse, s.tileReady n = 1))) ∧
    (∃ (a : Activation) (rest : List Activation) (p : PassInfo) (s : State), (s.stopped = false) ∧ (s.passes.pending = a :: rest) ∧ (s.slot? a.slot = some p) ∧ (a.phase = .draining) ∧ (s.parkState = 0) ∧ ((s.genActive = 0 ∨ s.pinned s.genActive = [])) ∧ ((∀ o, s.activePass = some o → ∀ n ∈ o.tileUse, s.atSeam n = true)) ∧ (p.tileUse.Nodup) ∧ ((∀ n ∈ p.tileUse, n < 1024)) ∧ ((∀ x ∈ p.sections, p.base + x.offset + x.length ≤ 0x00C000000000)) ∧ ((∀ q, s.req? a.req = some q → s.behindHold q = false)) ∧ (s.hbm.flips = []) ∧ ((p.sections.filter (fun x => decide (x.typ ≤ 6))).findSome? (fun x => s.sectionStop p.base x) = none) ∧ (p.tileUse.any (fun n => s.tileLost (s.writePass p) n) = false)) ∧
    (∃ (n : Nat) (a : Activation) (rest : List Activation) (q : Request) (p : PassInfo) (s : State), (s.stopped = false) ∧ (s.passes.pending = a :: rest) ∧ (s.slot? a.slot = some p) ∧ (s.req? a.req = some q) ∧ (q.phase = .running) ∧ (n ∈ p.tileUse) ∧ (s.hbm.flips = []) ∧ ((p.sections.filter (fun x => decide (x.typ ≤ 6))).findSome? (fun x => s.sectionStop p.base x) = none) ∧ (a.phase = .draining) ∧ (s.parkState = 0) ∧ ((s.genActive = 0 ∨ s.pinned s.genActive = [])) ∧ ((∀ o, s.activePass = some o → ∀ n ∈ o.tileUse, s.atSeam n = true)) ∧ (s.behindHold q = false)) ∧
    (∃ (a : Activation) (rest : List Activation) (q : Request) (p : PassInfo) (s : State), (s.stopped = false) ∧ (s.passes.pending = a :: rest) ∧ (s.slot? a.slot = some p) ∧ (s.req? a.req = some q) ∧ (q.phase = .running) ∧ (a.phase = .written) ∧ (a.gen < 2 ^ 32) ∧ (s.passes.slotWait = [])) :=
  ⟨⟨wAct, [], wLoad2, wPass, wPend, by decide +kernel⟩,
   ⟨{wAct with phase := .draining}, [], wPass2, wDrain, by decide +kernel⟩,
   ⟨5, {wAct with phase := .draining}, [], wLoad2, wPass2, wDrain, by decide +kernel⟩,
   ⟨{wAct with phase := .written}, [], wLoad2, wPass2, {wDrain with passes.pending := [{wAct with phase := .written}]}, by decide +kernel⟩⟩

theorem witness_DroppedPassesFreeTheirSlotsAndRotationsWriteTheCells :
    (∃ (i k : Nat) (p : PassInfo) (q : Request) (s : State), (s.stopped = false) ∧ (s.req? i = some q) ∧ (q.opcode = Dop.dropPass) ∧ ((s.mayStart q || s.goesOn q) = true) ∧ (s.actPending (q.fld 8 4) = false) ∧ (q.fld 8 4 ≠ s.genActive) ∧ (s.slotOf (q.fld 8 4) = some (k, p)) ∧ (p.staging = false) ∧ (s.passes.slotWait = [])) ∧
    (∃ (i : Nat) (p : PassInfo) (q : Request) (s : State), (s.stopped = false) ∧ (s.req? i = some q) ∧ (q.opcode = Dop.dropPass) ∧ ((s.mayStart q || s.goesOn q) = true) ∧ (s.actPending (q.fld 8 4) = false) ∧ (q.fld 8 4 ≠ 0) ∧ (q.fld 8 4 = s.genActive) ∧ (s.activePass = some p) ∧ (s.pinned (q.fld 8 4) = []) ∧ ((∀ n ∈ p.tileUse, s.atSeam n = true))) ∧
    (∃ (i : Nat) (q : Request) (s : State), (s.stopped = false) ∧ (s.req? i = some q) ∧ (q.opcode = Dop.dropPass) ∧ ((s.mayStart q || s.goesOn q) = true) ∧ ((s.actPending (q.fld 8 4) = true ∨ ((q.fld 8 4 = 0 ∨ q.fld 8 4 ≠ s.genActive) ∧ s.slotOf (q.fld 8 4) = none)))) ∧
    (∃ (n f r : Nat) (x : Section) (rest : List Nat) (p : PassInfo) (s : State), (s.stopped = false) ∧ (s.activePass = some p) ∧ ((s.tile n).queue = f :: rest) ∧ (p.rotating.contains n = true) ∧ ((s.tile n).rotReady.contains f = false) ∧ (s.atSeam n = true) ∧ (s.parkState = 0) ∧ ((∀ q ∈ (s.tile n).queue.take (p.batch + 1), (s.tile n).atFlag q = true ∧ (s.tile n).rotReady.contains q = false)) ∧ ((p.sections.filter (fun x => decide (x.typ = 7) && decide (x.tile = n))).length ≠ 0) ∧ (r = (s.tile n).rotation % (p.sections.filter (fun x => decide (x.typ = 7) && decide (x.tile = n))).length) ∧ (findSec p.sections 7 n r = some x) ∧ (x.length ≤ 0x100000) ∧ (s.stuck = []) ∧ (s.hbm.flips = []) ∧ ((s.rotationSections p n).findSome? (fun x => s.sectionStop p.base x) = none)) ∧
    (∃ (n f m : Nat) (rest : List Nat) (p : PassInfo) (s : State), (s.stopped = false) ∧ (s.activePass = some p) ∧ ((s.tile n).queue = f :: rest) ∧ (p.rotating.contains n = true) ∧ ((s.tile n).atFlag f = true) ∧ ((s.tile n).rotReady.contains f = false) ∧ (s.atSeam n = true) ∧ (s.parkState = 0) ∧ (((s.tile n).queue.take (p.batch + 1)).find? (fun q => !(s.tile n).atFlag q || (s.tile n).rotReady.contains q) = some m)) :=
  ⟨⟨9, 2, wPass, wDrop, (wStaged.setReq 9 wDrop), by decide +kernel⟩,
   ⟨9, wPass, wDrop, (((wStaged.setReq 9 wDrop).setReg Off.genActive 4).setTile 7 {Tile.empty with steps := [3#256]}), by decide +kernel⟩,
   ⟨9, wDrop, (wArea.setReq 9 wDrop), by decide +kernel⟩,
   ⟨5, 9, 0, wSpill, [], wPass3, wRot, by decide +kernel⟩,
   ⟨5, 9, 8, [8], wPass4, wRot2, by decide +kernel⟩⟩

theorem witness_StreamsOpenCloseAndTakeKeyframes :
    (∃ (i base : Nat) (q : Request) (e : Nat × PassInfo) (s : State), (s.stopped = false) ∧ (s.req? i = some q) ∧ (q.opcode = Dop.streamOpen) ∧ ((s.mayStart q || s.goesOn q) = true) ∧ (s.slotOf (q.fld 0x0C 4) = some e) ∧ (e.2.secure = q.secure) ∧ (e.2.staging = false) ∧ (q.fld 0x0C 4 ≠ 0) ∧ (s.streamState q.streamNo = 0) ∧ (ptrSpace (q.fld 0x20 8) = 1) ∧ (s.hostStop (ptrAddr (q.fld 0x20 8)) (4 * q.fld 0x1A 2) = none) ∧ (s.fitUnits q.secure (stateUnits (s.needFor (q.fld 0x0C 4) (if (s.genProg (q.fld 0x0C 4)).pixel then frameBytes (q.fld 0x13 1) (q.fld 0x14 2) (q.fld 0x16 2) else 0))) q.streamNo = some base) ∧ ((s.guardAddr q.streamNo + 1024 ≤ s.ctxAddr q.streamNo ∨ s.ctxAddr q.streamNo + 128 ≤ s.guardAddr q.streamNo))) ∧
    (∃ (i : Nat) (q : Request) (s : State), (s.stopped = false) ∧ (s.req? i = some q) ∧ (q.opcode = Dop.streamClose) ∧ ((s.mayStart q || s.goesOn q) = true) ∧ (s.streamState q.streamNo = 1) ∧ (s.streamSecure q.streamNo = q.secure) ∧ (s.ctx q.streamNo Cx.inflight 4 = 0) ∧ ((s.readContext q.streamNo).2 = none)) ∧
    (∃ (i : Nat) (q : Request) (s : State), (s.stopped = false) ∧ (s.req? i = some q) ∧ (q.opcode = Dop.keyframe) ∧ ((s.mayStart q || s.goesOn q) = true) ∧ (s.streamState q.streamNo = 1) ∧ (s.streamSecure q.streamNo = q.secure) ∧ ((s.readContext q.streamNo).2 = none)) ∧
    (∃ (i b : Nat) (q : Request) (s : State), (s.stopped = false) ∧ (s.req? i = some q) ∧ (q.opcode = Dop.keyframe) ∧ ((s.mayStart q || s.goesOn q) = true) ∧ (s.streamState q.streamNo = 1) ∧ (s.streamSecure q.streamNo = q.secure) ∧ ((s.readContext q.streamNo).2 = some b)) :=
  ⟨⟨9, 0x20000000, wOpen, (2, wPassT07), (wSt.setReq 9 wOpen), by decide +kernel⟩,
   ⟨9, wClose, (wStream.setReq 9 wClose), by decide +kernel⟩,
   ⟨9, wKey, (wStream.setReq 9 wKey), by decide +kernel⟩,
   ⟨9, 0x4002680, wKey, {(wStream.setReq 9 wKey) with hbm.poison := [0x4002680/64]}, by decide +kernel⟩⟩

theorem witness_SavedImagesAreWrittenWholeAndRestoredWhenTheyAgree :
    (∃ (i : Nat) (q : Request) (s : State), (s.stopped = false) ∧ (s.req? i = some q) ∧ (q.saves = true) ∧ (s.mayStart q = true) ∧ (s.holdFree q = true)) ∧
    (∃ (i : Nat) (q : Request) (s : State), (s.req? i = some q) ∧ (s.holdFree q = false)) ∧
    (∃ (i a : Nat) (q : Request) (s : State), (s.stopped = false) ∧ (s.regWrites = []) ∧ (s.hbm.flips = []) ∧ (s.req? i = some q) ∧ (q.opcode = Dop.save) ∧ (q.held = true) ∧ (s.goesOn q = true) ∧ (q.mileposts = false) ∧ (q.secureToHost = false) ∧ (q.scope = 0) ∧ (s.streamState q.object = 1) ∧ (s.streamSecure q.object = q.secure) ∧ (0x1000 + (s.streamBody q).length ≤ q.fld 0x18 8) ∧ (s.poisonIn (s.ctxAddr q.object) 128 = none) ∧ (s.poisonIn (s.guardAddr q.object) 1024 = none) ∧ (s.poisonIn (s.ctx q.object Cx.base 8) (s.needFor (s.savedGen q) (s.streamFrame q.object)) = none) ∧ (q.fld 0x10 8 = 2 ^ 62 + a) ∧ (a + 0x1000 < 2 ^ 52) ∧ (s.hostStop a (4096 + (s.streamBody q).length) = none)) ∧
    (∃ (i a : Nat) (q : Request) (s : State), (s.stopped = false) ∧ (s.regWrites = []) ∧ (s.hbm.flips = []) ∧ (s.req? i = some q) ∧ (q.opcode = Dop.save) ∧ (q.held = true) ∧ (s.goesOn q = true) ∧ (q.mileposts = false) ∧ (q.secureToHost = false) ∧ (q.scope = 1) ∧ (q.object < 1024) ∧ (s.present q.object = true) ∧ (s.unbacked q.object = false) ∧ (0x181000 ≤ q.fld 0x18 8) ∧ ((∀ b ∈ s.banksOn q.object, BankLinesOpen s q.secure false (spBase q.object + 0x10000 * b) 0x10000)) ∧ ((∀ b ∈ s.banksOn q.object, (s.tile q.object).sleep = .awake)) ∧ (q.fld 0x10 8 = 2 ^ 62 + a) ∧ (a + 0x1000 < 2 ^ 52) ∧ ((∀ l ∈ s.hostBad, 64 * l + 64 ≤ a ∨ a + 0x181000 ≤ 64 * l))) ∧
    (∃ (i a k : Nat) (p : PassInfo) (q : Request) (s : State), (s.stopped = false) ∧ (s.regWrites = []) ∧ (s.hbm.flips = []) ∧ (s.req? i = some q) ∧ (q.opcode = Dop.save) ∧ (q.held = true) ∧ (s.goesOn q = true) ∧ (q.mileposts = false) ∧ (q.secureToHost = false) ∧ (1 < q.scope) ∧ (s.slotOf q.object = some (k, p)) ∧ (p.secure = q.secure) ∧ (p.staging = false) ∧ (q.object ≠ 0) ∧ (p.length ≤ q.fld 0x18 8) ∧ (s.poisonIn p.base p.length = none) ∧ (q.fld 0x10 8 = 2 ^ 62 + a) ∧ (a < 2 ^ 52) ∧ (s.hostStop a p.length = none)) ∧
    (∃ (i a g base : Nat) (q : Request) (s : State), (s.stopped = false) ∧ (s.req? i = some q) ∧ (q.opcode = Dop.restore) ∧ (q.held = true) ∧ (s.goesOn q = true) ∧ (q.mileposts = false) ∧ (q.secureToHost = false) ∧ (q.scope = 0) ∧ (q.fld 0x10 8 = 2 ^ 62 + a) ∧ (a + 0x1000 < 2 ^ 52) ∧ (4096 ≤ q.fld 0x18 8) ∧ (s.hostStop a (max 4096 (leNat (s.hostBytes (a + 0x10) 8))) = none) ∧ (headerBad q (s.hostBytes a 4096) = false) ∧ (leNat (s.hostBytes (a + 7) 1) = worldNum q.secure) ∧ (leNat (s.hostBytes (a + 0xC) 4) ≤ s.sec.feature) ∧ (s.bindImage q.secure (s.hostBytes (a + 0x20) 32) = some g) ∧ (s.streamState q.object = 0) ∧ (s.fitUnits q.secure (leNat (s.hostBytes (a + 4096 + Cx.units) 4)) q.object = some base)) :=
  ⟨⟨9, wSave, (wStream.setReq 9 wSave), by decide +kernel⟩,
   ⟨9, wSave, ((wStream.setReq 9 wSave).setReq 4 {wKey with order := 0}), by decide +kernel⟩,
   ⟨9, 0x700000, wSaveH, (wStream.setReq 9 wSaveH), by decide +kernel⟩,
   ⟨9, 0x700000, wSaveT, wSaveTS, by decide +kernel⟩,
   ⟨9, 0x700000, 2, wPassT07, wSaveP, ((wStream.setReq 9 wSaveP).setMemBytes 0x1000003 [1,2,3]), by decide +kernel⟩,
   ⟨9, 0x700000, 4, 0x20000000, wRestore, (wImage.setReq 9 wRestore), by decide +kernel⟩⟩

theorem witness_RunsCopyTheirInputEnterTheirTilesAndCopyTheirOutput :
    (∃ (i : Nat) (q : Request) (s : State), (s.stopped = false) ∧ (s.regWrites = []) ∧ (s.req? i = some q) ∧ (q.opcode = Dop.run) ∧ (s.mayStart q = true) ∧ (s.genActive = q.gen) ∧ (s.frameWaiting q = false) ∧ ((s.tilesOf q).Nodup) ∧ ((∀ n ∈ s.tilesOf q, s.tileReady n = 1)) ∧ ((q.stream = none ∨ q.moved = false)) ∧ (q.noInput = true)) ∧
    (∃ (i a dst n : Nat) (q : Request) (s : State), (s.stopped = false) ∧ (s.regWrites = []) ∧ (s.req? i = some q) ∧ (q.opcode = Dop.run) ∧ (s.mayStart q = true) ∧ (s.genActive = q.gen) ∧ (s.frameWaiting q = false) ∧ ((∀ n ∈ s.tilesOf q, s.tileReady n = 1)) ∧ ((q.stream = none ∨ q.moved = false)) ∧ (q.noInput = false) ∧ (ptrSpace (q.fld 0x18 8) = 1) ∧ (ptrAddr (q.fld 0x18 8) = a) ∧ (q.fld 0x20 4 = n) ∧ (spBase (hTile (q.fld 0x24 2)) + Rg.lo (s.entryOf (q.fld 0x24 2)) = dst) ∧ (ptrSpace dst = 0) ∧ (ptrAddr dst = dst) ∧ (s.hostStop a n = none) ∧ (BankLinesOpen s q.secure true dst n)) ∧
    (∃ (i : Nat) (q : Request) (s : State), (s.stopped = false) ∧ (s.regWrites = []) ∧ (s.req? i = some q) ∧ (q.opcode = Dop.run) ∧ (q.phase = .running) ∧ (s.goesOn q = true) ∧ (s.runDone i q = true) ∧ (q.noOutput = true) ∧ (q.fld 0x38 8 = 0)) ∧
    (∃ (i a src n : Nat) (q : Request) (s : State), (s.stopped = false) ∧ (s.regWrites = []) ∧ (s.req? i = some q) ∧ (q.opcode = Dop.run) ∧ (q.phase = .running) ∧ (s.goesOn q = true) ∧ (s.runDone i q = true) ∧ (q.noOutput = false) ∧ (q.fld 0x38 8 = 0) ∧ (ptrSpace (q.fld 0x28 8) = 1) ∧ (ptrAddr (q.fld 0x28 8) = a) ∧ (q.fld 0x30 4 = n) ∧ (spBase (hTile (q.fld 0x26 2)) + Rg.lo (s.entryOf (q.fld 0x26 2)) = src) ∧ (ptrSpace src = 0) ∧ (ptrAddr src = src) ∧ (s.hostStop a n = none) ∧ (BankLinesOpen s q.secure false src n)) ∧
    (∃ (i : Nat) (q : Request) (s : State), (s.stopped = false) ∧ (s.regWrites = []) ∧ (s.req? i = some q) ∧ (q.opcode = Dop.run) ∧ (q.phase = .stopping) ∧ (s.parkState < 2)) :=
  ⟨⟨9, wRunNo, (wActive.setReq 9 wRunNo), by decide +kernel⟩,
   ⟨9, 0x700000, 0x20000A10000, 72, wRunIn, ((wActive.setReq 9 wRunIn).setHostBytes 0x700000 [1,2,3,4]), by decide +kernel⟩,
   ⟨9, {wRunNo with phase := .running}, (wActive.setReq 9 {wRunNo with phase := .running}), by decide +kernel⟩,
   ⟨9, 0x700000, 0x20000A10000, 72, wRunOut, ((wActive.setReq 9 wRunOut).setMemBytes 0x20000A10004 [1,2,3,4]), by decide +kernel⟩,
   ⟨9, {wRunNo with phase := .stopping}, (wActive.setReq 9 {wRunNo with phase := .stopping}), by decide +kernel⟩⟩

theorem witness_ListsPassWaitsSeamsAndEnds :
    (∃ (n i waits w : Nat) (q : Request) (s : State), (s.stopped = false) ∧ (s.ready n Op.waitRange i q w = true) ∧ (q.opcode = Dop.run) ∧ (s.rangeFree n i w = true)) ∧
    (∃ (n i waits w : Nat) (q : Request) (s : State), (s.ready n Op.waitRange i q w = true) ∧ (s.rangeFree n i w = false)) ∧
    (∃ (n i waits w : Nat) (q : Request) (s : State), (s.stopped = false) ∧ (s.ready n Op.seam i q w = true) ∧ (q.opcode = Dop.run)) ∧
    (∃ (n i w : Nat) (q : Request) (s : State), (s.stopped = false) ∧ (s.ready n Op.end_ i q w = true) ∧ (q.opcode = Dop.run) ∧ ((s.tile n).running.any (fun r => decide (r.req = i)) = false)) ∧
    (∃ (n idx : Nat) (r : RStep) (q : Request) (s : State), (s.stopped = false) ∧ ((s.tile n).running.find? (fun r => decide (r.idx = idx) && r.finished) = some r) ∧ (s.parkState < 2) ∧ (s.req? r.req = some q) ∧ (q.opcode = Dop.run) ∧ (q.phase ≠ .stopping)) ∧
    (∃ (n idx : Nat) (r : RStep) (q : Request) (s : State), (s.stopped = false) ∧ ((s.tile n).running.find? (fun r => decide (r.idx = idx) && r.finished) = some r) ∧ (s.parkState < 2) ∧ (s.req? r.req = some q) ∧ (q.phase = .stopping) ∧ ((s.updTile n (fun t => { t with running := t.running.filter (fun x => decide (x ≠ r)) })).midStep r.req = false)) :=
  ⟨⟨5, 9, 7, wWait, wRunReq, wWaitS, by decide +kernel⟩,
   ⟨5, 9, 7, wWait, wRunReq, (wWaitS.updTile 5 (fun t => {t with sb := [{step := 0, req := 9, lo := 0, hi := 64, reads := false, writes := true}], plan := [BitVec.ofNat 128 (1+2^13*4)]})), by decide +kernel⟩,
   ⟨5, 9, 7, wSeam, wRunReq, (wSeq [BitVec.ofNat 256 wSeam] []), by decide +kernel⟩,
   ⟨5, 9, Op.end_, wRunReq, (wSeq [BitVec.ofNat 256 Op.end_] []), by decide +kernel⟩,
   ⟨5, 2, wFin, wRunReq, wFinS, by decide +kernel⟩,
   ⟨5, 2, wFin, {wRunReq with phase := .stopping}, (wFinS.setReq 9 {wRunReq with phase := .stopping}), by decide +kernel⟩⟩

theorem witness_MeshTrafficIsTakenOneByOne :
    (∃ (n : Nat) (m : Marker) (s : State), (s.stopped = false) ∧ (s.mesh.held.any (fun h => decide (h.2.dst = n) && !s.markerHeld h.2) = false) ∧ (s.mesh.markers.find? (fun m => decide (m.dst = n) && s.takesMarker m) = some m) ∧ (s.liveAs m.req m.ord = true)) ∧
    (∃ (n : Nat) (m : Marker) (s : State), (s.stopped = false) ∧ (s.mesh.held.any (fun h => decide (h.2.dst = n) && !s.markerHeld h.2) = false) ∧ (s.mesh.markers.find? (fun m => decide (m.dst = n) && s.takesMarker m) = some m) ∧ (s.liveAs m.req m.ord = false)) ∧
    (∃ (n k : Nat) (m : Marker) (s : State), (s.stopped = false) ∧ (s.mesh.markers = []) ∧ (s.mesh.held = [(k, m)]) ∧ (m.dst = n)) ∧
    (∃ (n stalls : Nat) (d : Drain) (x : Slot) (s : State), (s.stopped = false) ∧ (s.mesh.drains.find? (fun d => decide (d.dst = n) && (s.arriveDrain d).isSome) = some d) ∧ (s.liveAs d.req d.ord = true) ∧ (d.region < 64) ∧ ((s.tile n).slot? d.region d.req d.position = some x) ∧ (s.prog.floatRange (64 * n + d.region) = false) ∧ (x.terms + d.terms < 2 ^ 40) ∧ (tagClash (s.tile n).ledger d.tag ((macroPlaces d.block d.values).map (fun v => x.first + v.1)) = none)) ∧
    (∃ (n stalls : Nat) (d : Drain) (s : State), (s.stopped = false) ∧ (s.mesh.drains.find? (fun d => decide (d.dst = n) && (s.arriveDrain d).isSome) = some d) ∧ (s.liveAs d.req d.ord = false)) ∧
    (∃ (n stalls : Nat) (c : Contribution) (e : ScatEntry) (s : State), (s.stopped = false) ∧ (s.mesh.contribs.find? (fun c => decide (c.dst = n) && s.takesContribution c) = some c) ∧ (s.liveAs c.req c.ord = true) ∧ ((s.tile n).scat.find? (fun e => decide (e.position = c.position) && decide (e.group = c.group)) = some e) ∧ (e.tag = c.tag) ∧ (e.count + 1 < c.limit)) ∧
    (∃ (n stalls : Nat) (c : Contribution) (s : State), (s.stopped = false) ∧ (s.mesh.contribs.find? (fun c => decide (c.dst = n) && s.takesContribution c) = some c) ∧ (s.liveAs c.req c.ord = false)) ∧
    (∃ (n cq k : Nat) (x : CircRec) (rest : List CircRec) (s : State), (s.stopped = false) ∧ ((s.tile n).circ = x :: rest) ∧ (x.cq = cq) ∧ (x.num = k) ∧ (x.landed = false) ∧ ((∀ y ∈ rest, y.cq = cq ∧ y ≠ x)) ∧ (s.reg (circOcc n cq) = 0) ∧ (cq < 16)) :=
  ⟨⟨5, wMk, {wWaitS with mesh.markers := [{dst := 6, region := 3, req := 9, ord := 1}, wMk]}, by decide +kernel⟩,
   ⟨5, {wMk with req := 44}, {wWaitS with mesh.markers := [{dst := 6, region := 3, req := 9, ord := 1}, {wMk with req := 44}]}, by decide +kernel⟩,
   ⟨5, 6, wMk, {wWaitS with mesh.held := [(6, wMk)]}, by decide +kernel⟩,
   ⟨5, 3, wDr, wSlot, wDrS, by decide +kernel⟩,
   ⟨5, 3, {wDr with req := 7}, {wDrS with mesh.drains := [{wDr with req := 7}]}, by decide +kernel⟩,
   ⟨5, 3, wCon, wEnt, wConS, by decide +kernel⟩,
   ⟨5, 3, {wCon with req := 2}, {wConS with mesh.contribs := [{wCon with req := 2}]}, by decide +kernel⟩,
   ⟨5, 2, 6, wCirc, wCircRest, (((wSeq [] []).updTile 5 (fun t => {t with circ := wCirc :: wCircRest})).setReg (circTail 5 2) 6), by decide +kernel⟩⟩

theorem witness_VectorStepsWriteTheirResultsWhole :
    (∃ (n waits cycles : Nat) (r : RStep) (q : Request) (s : State), (s.stopped = false) ∧ (s.runsOnly n Op.shank r q = true) ∧ (s.shkRefusal q r.w = none) ∧ (Rg.kind (s.entryOf (Step.dst r.w)) ≠ Kind.ledger) ∧ (Shk.func r.w ≠ 9) ∧ (Shk.func r.w ≠ 0xC) ∧ (Step.vary r.w = false) ∧ (s.dstOpen q.secure (Step.dst r.w) 0 (elemBytes (s.shkResult r.w).1 (s.shkResult r.w).2).length = true)) ∧
    (∃ (n waits cycles : Nat) (r : RStep) (q : Request) (out : List Byte) (s : State), (s.stopped = false) ∧ (s.runsOnly n Op.reduce r q = true) ∧ (s.redRefusal q r.w = none) ∧ (Red.kind r.w ≤ 2) ∧ (Red.inf r.w ≠ 3) ∧ (Red.float r.w = false) ∧ (Step.vary r.w = false) ∧ (out = (groupsOf (Red.group r.w) ((s.redElems r.w).2.map (elemInt (s.redElems r.w).1))).flatMap (groupInt (Red.kind r.w))) ∧ (s.dstOpen q.secure (Step.dst r.w) 0 out.length = true)) ∧
    (∃ (n waits : Nat) (r : RStep) (q : Request) (out : List Byte) (s : State), (s.stopped = false) ∧ (s.runsOnly n Op.requant r q = true) ∧ (q.stream = none) ∧ (Step.delta r.w = false) ∧ (Sc.smode ((s.tile n).scaleOf r.w) ≠ 1) ∧ (Rg.kind (s.entryOf (Step.src r.w)) ≠ Kind.ledger) ∧ (s.stepReadBad q.secure (Step.src r.w) 0 (4 * Step.count0 r.w) = none) ∧ (out = (s.reqWords r.w).map (fun x => BitVec.ofNat 8 (requantOne (s.tile n).pat (Step.ptab r.w) ((s.tile n).scaleOf r.w) (Sc.fixed ((s.tile n).scaleOf r.w)) x).1)) ∧ (s.dstOpen q.secure (Step.dst r.w) 0 out.length = true)) :=
  ⟨⟨5, 0, 7, (wGo wAdd), wRunReqT09, (wWork wAdd wPlan3), by decide +kernel⟩,
   ⟨5, 0, 7, (wGo wRed), wRunReqT09, wRedOut, (wWork wRed wPlan3), by decide +kernel⟩,
   ⟨5, 0, (wGo wReqt), wRunReqT09, wReqOut, wReqS, by decide +kernel⟩⟩

theorem witness_SegmentsCollectionsAndMergesAreWritten :
    (∃ (n waits : Nat) (r : RStep) (q : Request) (out : List Byte) (s : State), (s.stopped = false) ∧ (s.runsOnly n Op.compress r q = true) ∧ (Step.delta r.w = false) ∧ (s.stepReadBad q.secure (Step.src r.w) 0 ((s.segOut n r.w).rows * Rg.width (s.segOut n r.w).e * Rg.channels (s.segOut n r.w).e) = none) ∧ ((s.viewBytes (Step.src r.w) 0 ((s.segOut n r.w).rows * Rg.width (s.segOut n r.w).e * Rg.channels (s.segOut n r.w).e)).any (fun c => decide (2 ^ (s.segOut n r.w).b ≤ c.toNat)) = false) ∧ (out = (s.segOut n r.w).bytes ((s.segOut n r.w).plainLines ((s.viewBytes (Step.src r.w) 0 ((s.segOut n r.w).rows * Rg.width (s.segOut n r.w).e * Rg.channels (s.segOut n r.w).e)).map (·.toNat)))) ∧ (s.dstOpen q.secure (Step.dst r.w) 0 out.length = true)) ∧
    (∃ (n waits : Nat) (r : RStep) (q : Request) (x : Slot) (out : List Byte) (s : State), (s.stopped = false) ∧ (s.runsOnly n Op.collect r q = true) ∧ (r.next + 1 = Step.count0 r.w) ∧ (s.readySlot (Step.src r.w) r.req = some x) ∧ (Rg.kind (s.entryOf (Step.dst r.w)) ≠ Kind.ledger) ∧ (out = ((s.tile (hTile (Step.src r.w))).slotEntries x 0).flatMap (fun e => recordOf e.value e.tag x.terms)) ∧ (s.dstOpen q.secure (Step.dst r.w) (16 * x.size * r.next) out.length = true)) ∧
    (∃ (n waits st pre : Nat) (r : RStep) (q : Request) (s : State), (s.stopped = false) ∧ (s.runsOnly n Op.scatterMerge r q = true) ∧ (q.stream = some st) ∧ (q.key = false) ∧ (s.preactAt st (Step.layer r.w) = some pre) ∧ ((s.tile n).scatOwner ≠ some (r.req, Step.layer r.w)) ∧ ((s.tile n).vergeOf r.req (Step.layer r.w) = []) ∧ (s.mayPut n r.req (Step.dst r.w) = true) ∧ (recordOpen s q.secure (Step.dst r.w) 0 264 = true)) ∧
    (∃ (n waits st pre next : Nat) (k : Nat × Nat) (recs : List VergeRec) (r : RStep) (q : Request) (s : State), (s.stopped = false) ∧ (s.runsOnly n Op.scatterMerge r q = true) ∧ (q.stream = some st) ∧ (s.preactAt st (Step.layer r.w) = some pre) ∧ ((s.tile n).scatOwner ≠ some (r.req, Step.layer r.w)) ∧ (s.mergeKey n r q = some (k, next)) ∧ (recs = ((s.tile n).vergeOf r.req (Step.layer r.w)).filter (fun v => decide (v.position = k.1) && decide (v.group = k.2))) ∧ (recs.all (fun v => decide (v.tag = s.prog.layerTag (Step.layer r.w))) = true) ∧ ((s.updTile n (fun t => { t with verge := t.verge.filter (fun v => !recs.contains v) })).mergeKey n { r with next := next } q = none) ∧ (s.mayPut n r.req (Step.dst r.w) = true) ∧ (1 < Rg.cap (s.entryOf (Step.dst r.w))) ∧ ((∀ x, ((s.tile (hTile (Step.dst r.w))).circOf (Rg.cq (s.entryOf (Step.dst r.w)))).head? = some x → x.num < 2 ^ 32 ∧ (s.circNext (hTile (Step.dst r.w)) (Rg.cq (s.entryOf (Step.dst r.w))) + 2 ^ 32 - x.num) % 2 ^ 32 + 1 < Rg.cap (s.entryOf (Step.dst r.w)))) ∧ (recordOpen s q.secure (Step.dst r.w) 0 264 = true) ∧ (recordOpen s q.secure (Step.dst r.w) 1 264 = true) ∧ (pre + 4 * (k.1 * s.prog.cout (Step.layer r.w) + 64 * k.2) + 256 ≤ 0x00C000000000) ∧ ((∀ j, j < min 64 (s.prog.cout (Step.layer r.w) - 64 * k.2) → -(2 ^ 31) ≤ mergedSum s q pre k recs (Step.layer r.w) j ∧ mergedSum s q pre k recs (Step.layer r.w) j ≤ 2 ^ 31 - 1))) ∧
    (∃ (n waits st pre next j : Nat) (k : Nat × Nat) (recs : List VergeRec) (r : RStep) (q : Request) (s : State), (s.stopped = false) ∧ (s.runsOnly n Op.scatterMerge r q = true) ∧ (q.stream = some st) ∧ (s.preactAt st (Step.layer r.w) = some pre) ∧ ((s.tile n).scatOwner ≠ some (r.req, Step.layer r.w)) ∧ (s.mergeKey n r q = some (k, next)) ∧ (recs = ((s.tile n).vergeOf r.req (Step.layer r.w)).filter (fun v => decide (v.position = k.1) && decide (v.group = k.2))) ∧ (recs.all (fun v => decide (v.tag = s.prog.layerTag (Step.layer r.w))) = true) ∧ (s.mayPut n r.req (Step.dst r.w) = true) ∧ (j < min 64 (s.prog.cout (Step.layer r.w) - 64 * k.2)) ∧ ((mergedSum s q pre k recs (Step.layer r.w) j < -(2 ^ 31) ∨ 2 ^ 31 - 1 < mergedSum s q pre k recs (Step.layer r.w) j))) :=
  ⟨⟨5, 0, (wGo wCmp), wRunReqT09, wCmpOut, wCmpS, by decide +kernel⟩,
   ⟨5, 0, (wGo wCol), wRunReqT09, wColSlot, wColOut, wColS, by decide +kernel⟩,
   ⟨5, 0, 77, 0x20000800, (wGo wMer), wMerQ, wMerS, by decide +kernel⟩,
   ⟨5, 0, 77, 0x20000800, 1, (2,0), [wVr], (wGo wMer), wMerQ, wMerV, by decide +kernel⟩,
   ⟨5, 0, 77, 0x20000800, 1, 5, (2,0), [{wVr with sums := List.replicate 64 (2^31)}], (wGo wMer), wMerQ, (wMerV.updTile 5 (fun t => {t with verge := [{wVr with sums := List.replicate 64 (2^31)}]})), by decide +kernel⟩⟩

theorem witness_CimStepsIssueHoldTheirMacrosAndWalk :
    (∃ (n waits i w op : Nat) (c : Instr) (q : Request) (j : CimJob) (s : State), ((c, op) ∈ [(Instr.cimDense n waits, Op.cimDense), (Instr.cimMatch n waits, Op.cimMatch), (Instr.cimScatter n waits, Op.cimScatter)]) ∧ (s.stopped = false) ∧ (s.ready n op i q w = true) ∧ ((s.tile n).running.filter (fun x => decide (Step.opcode x.w = op) && !x.finished) = []) ∧ (s.balanced w = false) ∧ (s.cimReadBad q w (s.slicesOf w) (Step.aux w) (decide (Step.opcode w = Op.cimMatch)) = none) ∧ ((s.cimJob n (s.tile n).pc i q w).toOption = some j) ∧ (Step.predict w ≠ 2) ∧ ((op = Op.cimMatch → (List.range (Step.m w)).all (fun k => s.tagsHeld n (Step.mfirst w + k) (Step.aux w) k) = true)) ∧ ((∀ k, k < Step.count0 w → s.posPresent j k = true))) ∧
    (∃ (n waits op : Nat) (c : Instr) (r : RStep) (q : Request) (j : CimJob) (s : State), ((c, op) ∈ [(Instr.cimDense n waits, Op.cimDense), (Instr.cimMatch n waits, Op.cimMatch), (Instr.cimScatter n waits, Op.cimScatter)]) ∧ (s.stopped = false) ∧ (s.runsOnly n op r q = true) ∧ (s.balanced r.w = false) ∧ ((s.cimJob n r.idx r.req q r.w).toOption = some j) ∧ (Step.predict r.w ≠ 2) ∧ (r.next ≤ Step.count0 r.w) ∧ ((∀ k, k < Step.count0 r.w → s.posPresent j k = true))) :=
  ⟨⟨5, 3, 9, (wDense 1).toNat, 1, (.cimDense 5 3), wRunReqT10, {n := 5, idx := 0, i := 9, q := wRunReqT10, w := (wDense 1).toNat, e := (wPlan3T10.getD 0 0).toNat, pat := (Tile.empty).pat, seg := none, twin := none}, (wCimS 1), by decide +kernel⟩,
   ⟨5, 3, 1, (.cimDense 5 3), (wGoT10 (wDense 1)), wRunReqT10, wJob, wCimR, by decide +kernel⟩⟩

theorem witness_InvocationsAccumulateExactlyAndSetsDrainWhole :
    (∃ (n m k v : Nat) (o : InvOutcome) (r : RStep) (q : Request) (j : CimJob) (s : State), (s.stopped = false) ∧ (s.holder n m = some r) ∧ (s.req? r.req = some q) ∧ (s.parkState < 2) ∧ ((s.mac n m).swapDue = false) ∧ ((s.jobOf n r q).toOption = some (some j)) ∧ (j.n = n) ∧ (s.nextWork j r m = some (k, v)) ∧ (o.upsets = []) ∧ (s.mismatch j m k v 1 o.transients = false) ∧ (Step.opcode j.w ≠ Op.cimMatch) ∧ (Step.predict j.w = 0) ∧ (Step.transpose j.w = false)) ∧
    (∃ (n m k v : Nat) (o : InvOutcome) (r : RStep) (q : Request) (j : CimJob) (s : State), (s.stopped = false) ∧ (s.holder n m = some r) ∧ (s.req? r.req = some q) ∧ (s.parkState < 2) ∧ ((s.mac n m).swapDue = false) ∧ ((s.jobOf n r q).toOption = some (some j)) ∧ (j.n = n) ∧ (s.nextWork j r m = some (k, v)) ∧ (o.upsets = []) ∧ ((s.mac n m).corr = []) ∧ (s.mismatch j m k v 1 o.transients = true) ∧ (s.mismatch j m k v 2 o.transients = false) ∧ (Step.opcode j.w ≠ Op.cimMatch) ∧ (Step.predict j.w = 0) ∧ (Step.transpose j.w = false)) ∧
    (∃ (n m stalls : Nat) (r : RStep) (q : Request) (j : CimJob) (s : State), (s.stopped = false) ∧ (s.holder n m = some r) ∧ (s.req? r.req = some q) ∧ (q.phase = .running) ∧ (s.parkState < 2) ∧ ((s.mac n m).swapDue = true) ∧ ((s.mac n m).shadow = []) ∧ ((s.mac n m).work ≠ []) ∧ ((s.jobOf n r q).toOption = some (some j)) ∧ (j.n = n) ∧ (j.i = r.req) ∧ (j.q = q) ∧ (Step.scatters j.w = false) ∧ (hTile (Step.dst j.w) ≠ n)) ∧
    (∃ (n m stalls : Nat) (r : RStep) (q : Request) (j : CimJob) (x : Slot) (s : State), (s.stopped = false) ∧ (s.holder n m = some r) ∧ (s.req? r.req = some q) ∧ (q.phase = .running) ∧ (s.parkState < 2) ∧ ((s.mac n m).swapDue = true) ∧ ((s.mac n m).shadow = []) ∧ ((s.mac n m).work ≠ []) ∧ ((s.jobOf n r q).toOption = some (some j)) ∧ (j.n = n) ∧ (j.i = r.req) ∧ (j.q = q) ∧ (Step.scatters j.w = false) ∧ (hTile (Step.dst j.w) = n) ∧ (hIdx (Step.dst j.w) < 64) ∧ (s.balanced j.w = false) ∧ ((s.mac n m).finalDue = false) ∧ ((s.tile n).slot? (hIdx (Step.dst j.w)) r.req (j.ledgerPos (s.mac n m).position) = some x) ∧ (s.prog.floatRange (64 * n + hIdx (Step.dst j.w)) = false) ∧ (x.terms + (setDrain s n m j).terms < 2 ^ 40) ∧ (tagClash (s.tile n).ledger (Step.tag j.w) ((macroPlaces (setDrain s n m j).block (s.mac n m).work).map (fun v => x.first + v.1)) = none)) ∧
    (∃ (n waits cycles : Nat) (r : RStep) (q : Request) (c : Scan) (s : State), (s.stopped = false) ∧ (s.runsOnly n Op.awlScan r q = true) ∧ ((s.scanOf n r q).bind (·.toOption) = some c) ∧ (Rg.kind (s.entryOf (Step.dst r.w)) ≠ Kind.circular) ∧ (r.next + 1 = Step.count0 r.w) ∧ (s.dstOpen q.secure (Step.dst r.w) (32 * r.next) 32 = true)) :=
  ⟨⟨5, 0, 0, 0, {upsets := [], transients := []}, wGo2, wRunReqT10, wJob, wInv, by decide +kernel⟩,
   ⟨5, 0, 0, 0, {upsets := [], transients := [{attempt := 1, plane := 0, change := 1}]}, wGo2, wRunReqT10, wJob, wInv, by decide +kernel⟩,
   ⟨5, 0, 8, wGo2, wRunReqT10, wJob, wSwap, by decide +kernel⟩,
   ⟨5, 0, 8, wOwnGo, wRunReqT10, wOwnJob, wOwnSlot, wOwn, by decide +kernel⟩,
   ⟨5, 3, 7, {wGoT10 wScanStep with next := 1}, wRunReqT10, wScan, wScanS, by decide +kernel⟩⟩

theorem witness_ToeHeelUnitsAndMembersTakeTheirWorkInOrder :
    (∃ (n waits i w u : Nat) (q : Request) (s : State), (s.stopped = false) ∧ (s.ready n Op.toeheel i q w = true) ∧ (s.frameLost i w = false) ∧ (s.unitFor i q w = some u) ∧ (s.thQueued u < 64)) ∧
    (∃ (u : Nat) (e : ThEntry) (rest : List ThEntry) (q : Request) (out : List Byte) (s : State), (s.stopped = false) ∧ ((s.thUnit u).running = none) ∧ ((s.thUnit u).queue = e :: rest) ∧ (s.parkState = 0) ∧ (s.errs.thRetired.contains u = false) ∧ (s.errs.underTest.any (fun x => decide (x.1 = 2) && decide (x.2.1 = u)) = false) ∧ (s.req? e.req = some q) ∧ (Th.kernel e.word.toNat ≠ 1) ∧ (Th.kernel e.word.toNat ≠ 2) ∧ (Step.isPixel e.word.toNat = false) ∧ (Step.vary e.word.toNat = false) ∧ (Step.digest e.word.toNat = false) ∧ (s.stepReadBad q.secure (Step.src e.word.toNat) 0 (if Th.pblk e.word.toNat = 0 then Rg.bytes (s.entryOf (Step.src e.word.toNat)) else s.kernelReads (s.blockAt q e.word.toNat) e.word.toNat * fmtBytes (s.pIfmt (s.blockAt q e.word.toNat))) = none) ∧ (out = ((s.kernelOut q e.word.toNat).2.flatMap (elemBytes (s.kernelOut q e.word.toNat).1)).take (Rg.bytes (s.entryOf (Step.dst e.word.toNat)))) ∧ (s.dstOpen q.secure (Step.dst e.word.toNat) 0 out.length = true)) ∧
    (∃ (u cycles : Nat) (e : ThEntry) (s : State), (s.stopped = false) ∧ ((s.thUnit u).running = some e) ∧ (s.parkState < 2) ∧ (s.live e.req = true)) ∧
    (∃ (u cycles : Nat) (e : ThEntry) (s : State), (s.stopped = false) ∧ ((s.thUnit u).running = some e) ∧ (s.parkState < 2) ∧ (s.live e.req = false)) ∧
    (∃ (c i l n h first blocks values : Nat) (q : Request) (g : EyeSeg) (s : State), (s.stopped = false) ∧ (s.nextDeal = some (i, l, n)) ∧ (s.balanceSrc l = some h) ∧ ((s.segmentOf (s.tile (hTile h)).pat h).toOption = some g) ∧ (s.req? i = some q) ∧ (s.segmentBad q.secure h = none) ∧ (g.chunks[layerGet q.dealt l]? = some (first, blocks, values))) :=
  ⟨⟨5, 3, 9, wThStep.toNat, 6, wRunReqT10, wThS, by decide +kernel⟩,
   ⟨6, wThE, [wThE], wRunReqT10, [], wThQ, by decide +kernel⟩,
   ⟨6, 7, wThE, wThR, by decide +kernel⟩,
   ⟨6, 7, {wThE with req := 33}, (wThS.setTh 6 {ThUnit.empty with running := some {wThE with req := 33}}), by decide +kernel⟩,
   ⟨2, 9, 3, 5, 320, 0, 1, 1, wRunReqT10, wBalSeg, wBal, by decide +kernel⟩⟩

theorem witness_DigestsAndScaleRecordsCompleteInOrder :
    (∃ (i l k : Nat) (d : DigestRun) (c : Nat × List Byte) (q : Request) (s : State), (s.stopped = false) ∧ (s.audit.digests.find? (fun d => decide (d.req = i) && decide (d.layer = l)) = some d) ∧ (s.req? i = some q) ∧ (d.chunks.find? (fun c => decide (c.1 = k)) = some c) ∧ (d.waiting = []) ∧ ((s.prog.digestIndexes l)[d.next]? = some k) ∧ (d.next + 1 ≠ d.total)) ∧
    (∃ (i l k : Nat) (d : DigestRun) (c : Nat × List Byte) (q : Request) (s : State), (s.stopped = false) ∧ (s.audit.digests.find? (fun d => decide (d.req = i) && decide (d.layer = l)) = some d) ∧ (s.req? i = some q) ∧ (d.chunks.find? (fun c => decide (c.1 = k)) = some c) ∧ (d.waiting = []) ∧ ((s.prog.digestIndexes l)[d.next]? = some k) ∧ (d.next + 1 = d.total)) ∧
    (∃ (i l st a : Nat) (q : Request) (s : State), (s.stopped = false) ∧ (s.req? i = some q) ∧ (q.stream = some st) ∧ (q.phase = .running) ∧ ((s.genProg q.gen).requantCount l ≠ 0) ∧ ((s.genProg q.gen).requantCount l ≤ (q.requantsDone l).1) ∧ (q.scaleDone.contains l = false) ∧ (s.scaleRec st l = some a) ∧ ((a + 0x240 ≤ s.guardAddr st ∨ s.guardAddr st + 1024 ≤ a))) :=
  ⟨⟨9, 3, 0, wDig, (0,[7,8]), wRunReqT10, wDigS, by decide +kernel⟩,
   ⟨9, 3, 1, {wDig with next := 1}, (1,[5]), wRunReqT10, {wDigS with audit.digests := [{wDig with next := 1}]}, by decide +kernel⟩,
   ⟨9, 3, 77, 0x20000100, wScaleQ, (wScaleS.setReq 9 wScaleQ), by decide +kernel⟩⟩

theorem witness_BarriersCompleteWhenEveryMemberHasArrived :
    (∃ (i p : Nat) (q : Request) (s : State), (s.stopped = false) ∧ (s.req? i = some q) ∧ (q.opcode = Dop.barrier) ∧ (s.mayStart q = true) ∧ (s.joinRefused i q (q.fld 0xC 2) 0x0C = none) ∧ (s.isManager = false) ∧ ((s.dataPorts 0 q.secure).head? = some p)) ∧
    (∃ (i : Nat) (q : Request) (x : GroupInst) (s : State), (s.stopped = false) ∧ (s.req? i = some q) ∧ (q.opcode = Dop.barrier) ∧ (s.mayStart q = true) ∧ (s.joinRefused i q (q.fld 0xC 2) 0x0C = none) ∧ (s.isManager = true) ∧ (s.inst? (q.fld 0xC 2) true (s.instNext (q.fld 0xC 2) true) = some x) ∧ (x.kind = q.fld 8 4) ∧ (x.done ≠ 1) ∧ ((s.groupMembers (q.fld 0xC 2)).all (fun d => (x.joined ++ [0]).contains d) = true)) ∧
    (∃ (g n d b : Nat) (secure : Bool) (x : GroupInst) (s : State), (s.stopped = false) ∧ (s.isManager = true) ∧ ((s.groupMembers g).contains d = true) ∧ (d ≠ 0) ∧ (s.inst? g true n = some x) ∧ (x.kind = b) ∧ (x.done ≠ 1) ∧ (d < 1024) ∧ ((s.groupMembers g).all (fun k => (x.joined ++ [d]).contains k) = false)) ∧
    (∃ (g n d b i : Nat) (secure : Bool) (q : Request) (x : GroupInst) (s : State), (s.stopped = false) ∧ (s.isManager = true) ∧ ((s.groupMembers g).contains d = true) ∧ (s.inst? g true n = some x) ∧ (x.kind = b) ∧ (x.done ≠ 1) ∧ (x.req = some i) ∧ (s.req? i = some q) ∧ (q.phase ≠ .finished) ∧ ((s.groupMembers g).all (fun k => (x.joined ++ [d]).contains k) = true)) ∧
    (∃ (g n d b i : Nat) (secure : Bool) (q : Request) (x : GroupInst) (s : State), (s.stopped = false) ∧ (s.isManager = true) ∧ ((s.groupMembers g).contains d = true) ∧ (s.inst? g true n = some x) ∧ (x.kind ≠ b) ∧ (x.req = some i) ∧ (s.req? i = some q) ∧ (q.phase ≠ .finished)) ∧
    (∃ (g n i : Nat) (q : Request) (x : GroupInst) (s : State), (s.stopped = false) ∧ (s.inst? g true n = some x) ∧ (x.req = some i) ∧ (s.req? i = some q) ∧ (q.phase ≠ .finished)) ∧
    (∃ (g n i : Nat) (q : Request) (x : GroupInst) (s : State), (s.stopped = false) ∧ (s.inst? g true n = some x) ∧ (x.req = some i) ∧ (s.req? i = some q) ∧ (q.phase ≠ .finished)) ∧
    (∃ (i g : Nat) (c : Instr) (q : Request) (s : State), ((c, q.opcode, g) ∈ [(.barrier i, Dop.barrier, q.fld 0xC 2), (.collective i, Dop.collective, q.fld 0xA 2)]) ∧ (s.stopped = false) ∧ (s.regWrites = []) ∧ (s.req? i = some q) ∧ (s.mayStart q = true) ∧ ((s.groupMembers g).contains s.devNum = false)) ∧
    (∃ (i g : Nat) (c : Instr) (q : Request) (s : State), ((c, q.opcode, g) ∈ [(.barrier i, Dop.barrier, q.fld 0xC 2), (.collective i, Dop.collective, q.fld 0xA 2)]) ∧ (s.stopped = false) ∧ (s.regWrites = []) ∧ (s.req? i = some q) ∧ (s.mayStart q = true) ∧ ((s.groupMembers g).contains s.devNum = true) ∧ (s.degraded g = true)) ∧
    (∃ (i g : Nat) (c : Instr) (q : Request) (s : State), ((c, q.opcode, g) ∈ [(.barrier i, Dop.barrier, q.fld 0xC 2), (.collective i, Dop.collective, q.fld 0xA 2)]) ∧ (s.stopped = false) ∧ (s.regWrites = []) ∧ (s.req? i = some q) ∧ (s.mayStart q = true) ∧ ((s.groupMembers g).contains s.devNum = true) ∧ (s.degraded g = false) ∧ ((s.groupMembers g).any (fun d => decide (d ≠ s.devNum) && (s.dataPorts d q.secure).isEmpty) = true)) :=
  ⟨⟨9, 2, wBar, ((wIx.setReg (Off.grp 9 0) 0x21).setReq 9 wBar), by decide +kernel⟩,
   ⟨9, wBar, wInst, (wMgrB.setReq 9 wBar), by decide +kernel⟩,
   ⟨9, 0, 5, 77, false, {wInst with joined := [7]}, {(wMgrB.setReg (Off.grp 9 0) 0xA1) with ix.insts := [{wInst with joined := [7]}], ix.pace := [(5,10),(3,9)]}, by decide +kernel⟩,
   ⟨9, 0, 5, 77, 9, false, wBarR, {wInst with joined := [0], req := some 9}, ({wMgrB with ix.insts := [{wInst with joined := [0], req := some 9}]}.setReq 9 wBarR), by decide +kernel⟩,
   ⟨9, 0, 5, 78, 9, false, wBarR, {wInst with joined := [0], req := some 9}, ({wMgrB with ix.insts := [{wInst with joined := [0], req := some 9}]}.setReq 9 wBarR), by decide +kernel⟩,
   ⟨9, 0, 9, wBarR, {wInst with req := some 9}, ({wIx with ix.insts := [{wInst with req := some 9}]}.setReg (Off.grp 9 0) 0x21 |>.setReq 9 wBarR), by decide +kernel⟩,
   ⟨9, 0, 9, wBarR, {wInst with req := some 9}, ({wIx with ix.insts := [{wInst with req := some 9}]}.setReg (Off.grp 9 0) 0x21 |>.setReq 9 wBarR), by decide +kernel⟩,
   ⟨9, 9, (.barrier 9), wBar, ((wIx.setReg (Off.grp 9 0) 0x41).setReq 9 wBar), by decide +kernel⟩,
   ⟨9, 9, (.collective 9), (wColl 0), (((wIx.setReg (Off.grp 9 0) 0x21).setReg (Off.grpStatus 9) 256).setReq 9 (wColl 0)), by decide +kernel⟩,
   ⟨9, 9, (.barrier 9), wBar, (((wIx.setReg (Off.grp 9 0) 0x21).setReg (Off.ixp 2 0) 0).setReq 9 wBar), by decide +kernel⟩⟩

theorem witness_CollectivesJoinTheMembersContributions :
    (∃ (i src dst len rank : Nat) (q : Request) (s : State), (s.stopped = false) ∧ (s.regWrites = []) ∧ (s.req? i = some q) ∧ (q.opcode = Dop.collective) ∧ (s.mayStart q = true) ∧ (s.joinRefused i q (q.fld 0xA 2) 0x0A = none) ∧ (q.fld 8 1 ≠ 7) ∧ (2 ≤ (s.groupMembers (q.fld 0xA 2)).length) ∧ (q.fld 0x10 8 = src) ∧ (q.fld 0x20 4 = len) ∧ (0 < len) ∧ ((s.groupMembers (q.fld 0xA 2)).idxOf s.devNum = rank) ∧ (q.fld 0x18 8 + (if q.fld 8 1 = 6 then rank * len else 0) = dst) ∧ (LinesOpen s q.secure false false src len) ∧ (LinesOpen s q.secure true false dst len) ∧ (noneEarly s (q.fld 0xA 2) (s.instNext (q.fld 0xA 2) false) = true)) ∧
    (∃ (i : Nat) (q : Request) (s : State), (s.stopped = false) ∧ (s.regWrites = []) ∧ (s.req? i = some q) ∧ (q.opcode = Dop.collective) ∧ (s.mayStart q = true) ∧ (s.joinRefused i q (q.fld 0xA 2) 0x0A = none) ∧ (q.fld 8 1 = 7) ∧ ((s.groupMembers (q.fld 0xA 2)).headD 0 ≠ s.devNum) ∧ (0 < q.fld 0x20 4) ∧ (noneEarly s (q.fld 0xA 2) (s.instNext (q.fld 0xA 2) false) = true)) ∧
    (∃ (i src dst len : Nat) (q : Request) (s : State), (s.stopped = false) ∧ (s.regWrites = []) ∧ (s.req? i = some q) ∧ (q.opcode = Dop.collective) ∧ (s.mayStart q = true) ∧ (s.joinRefused i q (q.fld 0xA 2) 0x0A = none) ∧ ((s.groupMembers (q.fld 0xA 2) = [s.devNum] ∨ q.fld 8 1 = 7 ∧ (s.groupMembers (q.fld 0xA 2)).headD 0 = s.devNum)) ∧ (q.fld 0x10 8 = src) ∧ (q.fld 0x18 8 = dst) ∧ (q.fld 0x20 4 = len) ∧ (LinesOpen s q.secure false false src len) ∧ (LinesOpen s q.secure true false dst len) ∧ (noneEarly s (q.fld 0xA 2) (s.instNext (q.fld 0xA 2) false) = true)) ∧
    (∃ (g n rank c i off : Nat) (data : List Byte) (x : GroupInst) (q : Request) (s : State), (s.stopped = false) ∧ (s.regWrites = []) ∧ (s.inst? g false n = some x) ∧ (x.req = some i) ∧ (s.req? i = some q) ∧ (q.phase = .running) ∧ ((x.kind < 5 ∨ x.kind = 8)) ∧ ((s.groupMembers g).idxOf s.devNum ≠ rank) ∧ (0 < data.length) ∧ (data.length % collElem x.kind = 0) ∧ (q.fld 0x18 8 + c * collChunk x.len = off) ∧ (LinesOpen s q.secure false false off data.length) ∧ (LinesOpen s q.secure true false off data.length) ∧ ((x.kind = 8 → ((wordsOf 16 (s.memBytes off data.length)).zip (wordsOf 16 data)).all (fun e => (recordClash e.1 e.2).isNone) = true))) ∧
    (∃ (g n rank c i off : Nat) (data : List Byte) (x : GroupInst) (q : Request) (s : State), (s.stopped = false) ∧ (s.regWrites = []) ∧ (s.inst? g false n = some x) ∧ (x.req = some i) ∧ (s.req? i = some q) ∧ (q.phase = .running) ∧ (x.kind = 5) ∧ ((s.groupMembers g).idxOf s.devNum ≠ rank) ∧ (0 < data.length) ∧ (data.length % 2 = 0) ∧ (q.fld 0x18 8 + c * collChunk x.len = off) ∧ (LinesOpen s q.secure false false off data.length) ∧ (LinesOpen s q.secure true false off data.length)) ∧
    (∃ (g n rank c i off : Nat) (data : List Byte) (x : GroupInst) (q : Request) (s : State), (s.stopped = false) ∧ (s.regWrites = []) ∧ (s.inst? g false n = some x) ∧ (x.req = some i) ∧ (s.req? i = some q) ∧ (q.phase = .running) ∧ ((x.kind = 6 ∨ x.kind = 7 ∧ rank = 0)) ∧ ((s.groupMembers g).idxOf s.devNum ≠ rank) ∧ (0 < data.length) ∧ (q.fld 0x18 8 + c * collChunk x.len + (if x.kind = 6 then rank * x.len else 0) = off) ∧ (LinesOpen s q.secure true false off data.length)) ∧
    (∃ (g n rank c i kind len : Nat) (data : List Byte) (x : GroupInst) (q : Request) (s : State), (s.stopped = false) ∧ (s.regWrites = []) ∧ (s.inst? g false n = some x) ∧ (x.req = some i) ∧ (s.req? i = some q) ∧ (q.phase = .running) ∧ ((kind ≠ x.kind ∨ len ≠ x.len))) ∧
    (∃ (g n rank c i off : Nat) (r : Reason) (data : List Byte) (x : GroupInst) (q : Request) (s : State), (s.stopped = false) ∧ (s.regWrites = []) ∧ (s.inst? g false n = some x) ∧ (x.req = some i) ∧ (s.req? i = some q) ∧ (q.phase = .running) ∧ (x.kind = 8) ∧ ((s.groupMembers g).idxOf s.devNum ≠ rank) ∧ (0 < data.length) ∧ (q.fld 0x18 8 + c * collChunk x.len = off) ∧ (LinesOpen s q.secure false false off data.length) ∧ (((wordsOf 16 (s.memBytes off data.length)).zip (wordsOf 16 data)).findSome? (fun e => recordClash e.1 e.2) = some r)) ∧
    (∃ (g n rank c i kind len : Nat) (data : List Byte) (st : Status) (r : Reason) (stop : CollStop) (x : GroupInst) (q : Request) (s : State), (s.stopped = false) ∧ (s.regWrites = []) ∧ (s.inst? g false n = some x) ∧ (x.req = some i) ∧ (s.req? i = some q) ∧ (q.phase = .running) ∧ (collEnd stop = some (st, r))) ∧
    (∃ (g n rank c kind len : Nat) (data : List Byte) (stop : CollStop) (s : State), (s.stopped = false) ∧ (s.regWrites = []) ∧ (s.inst? g false n = none) ∧ (s.instNext g false ≤ n) ∧ ((s.groupMembers g).contains s.devNum = true)) :=
  ⟨⟨9, 0x1010, 0x2000, 64, 1, (wColl 0), (wIxG.setReq 9 (wColl 0)), by decide +kernel⟩,
   ⟨9, (wColl 7), (wIxG.setReq 9 (wColl 7)), by decide +kernel⟩,
   ⟨9, 0x1010, 0x2000, 64, (wColl 0), ((wIxG.setReg (Off.grp 9 0) 0x20).setReq 9 (wColl 0)), by decide +kernel⟩,
   ⟨9, 2, 0, 0, 9, 0x2000, ((List.range 64).map (fun i => BitVec.ofNat 8 (i+200))), (wInC 0), (wCollR 0), (wChunkS 0), by decide +kernel⟩,
   ⟨9, 2, 2, 0, 9, 0x2000, ((List.range 64).map (fun i => BitVec.ofNat 8 (i+200))), (wInC 5), (wCollR 5), (wChunkS 5), by decide +kernel⟩,
   ⟨9, 2, 2, 0, 9, 0x2080, ((List.range 64).map (fun i => BitVec.ofNat 8 (i+200))), (wInC 6), (wCollR 6), (wChunkS 6), by decide +kernel⟩,
   ⟨9, 2, 0, 0, 9, 0, 68, [1], (wInC 0), (wCollR 0), (wChunkS 0), by decide +kernel⟩,
   ⟨9, 2, 0, 0, 9, 0x3000, .seam, (natLe 16 (2^80)), (wInC 8), wLedR, ((wChunkS 8).setReq 9 wLedR), by decide +kernel⟩,
   ⟨9, 2, 0, 0, 9, 0, 0, [], .faultSeam, .terms, .terms, (wInC 0), (wCollR 0), (wChunkS 0), by decide +kernel⟩,
   ⟨9, 2, 0, 0, 0, 68, [1], .none, wIxG, by decide +kernel⟩⟩

theorem witness_GroupsRolesPartitionsAndLossesAreKept :
    (∃ (g w : Nat) (v : Word) (s : State), (s.stopped = false) ∧ (s.sleep.pkg = .awake) ∧ (g < 256) ∧ (w < 32) ∧ (s.ix.insts.all (fun x => decide (x.group ≠ g) || x.req.isNone) = true)) ∧
    (∃ (g w i : Nat) (v : Word) (q : Request) (x : GroupInst) (s : State), (s.stopped = false) ∧ (s.sleep.pkg = .awake) ∧ (x ∈ s.ix.insts) ∧ (x.group = g) ∧ (x.req = some i) ∧ (s.req? i = some q) ∧ (q.phase ≠ .finished)) ∧
    (∃ (d p : Nat) (v : DWord) (s : State), (s.stopped = false) ∧ (s.sleep.pkg = .awake) ∧ ((s.isManager || s.isSub) = true) ∧ (d < 1024) ∧ (d ≠ s.devNum) ∧ (s.foremanTo d = some p)) ∧
    (∃ (v : DWord) (s : State), (s.stopped = false) ∧ (s.mapped = true) ∧ (s.isManager = false)) ∧
    (∃ (v : Word) (s : State), (s.stopped = false) ∧ (s.sleep.pkg = .awake) ∧ (v.getLsbD 2 = true) ∧ ((v.getLsbD 1 == s.regBit (Off.ix 0) 0) = true)) ∧
    (∃ (v : Word) (s : State), (s.stopped = false) ∧ (s.sleep.pkg = .awake) ∧ (v.getLsbD 2 = true) ∧ ((v.getLsbD 1 == s.regBit (Off.ix 0) 0) = false)) ∧
    (∃ (port : Nat) (news : MapNews) (s : State), (s.stopped = false) ∧ (s.confirmed = true) ∧ (news.cut = false)) ∧
    (∃ (port : Nat) (news : MapNews) (s : State), (s.stopped = false) ∧ (s.confirmed = true) ∧ (news.cut = true)) ∧
    (∃ (lost : List Nat) (s : State), (s.stopped = false) ∧ (s.isManager = true)) :=
  ⟨⟨9, 31, 5, {wMgrB with ix.insts := [{wInC 0 with group := 8}, {wInst with req := none}], ix.instCount := [(18,3),(17,4),(19,5)]}, by decide +kernel⟩,
   ⟨9, 31, 9, 5, (wCollR 0), (wInC 0), (wChunkS 0), by decide +kernel⟩,
   ⟨5, 2, 0x123456789ABC, wMgr, by decide +kernel⟩,
   ⟨0x123456789ABC, wIx, by decide +kernel⟩,
   ⟨6, (wRing.setReg (Off.ix 0) 1), by decide +kernel⟩,
   ⟨12, (wRing.setReg (Off.ix 0) 0x11), by decide +kernel⟩,
   ⟨2, {lost := [7], devices := [(0,3),(5,4)], links := [{near := 0, nearPort := 1, far := 5, farPort := 2, secure := false, tree := true}], cut := false}, wLossS, by decide +kernel⟩,
   ⟨2, {lost := [], devices := [], links := [], cut := true}, wLossS, by decide +kernel⟩,
   ⟨[5], wMgrL, by decide +kernel⟩⟩

theorem witness_WindowsOpenWithAFreshEpochAndClose :
    (∃ (i w p : Nat) (q : Request) (s : State), (s.stopped = false) ∧ (s.req? i = some q) ∧ (q.opcode = Dop.windowOpen) ∧ (s.mayStart q = true) ∧ (q.fld 8 1 = w) ∧ (s.winState w = 0) ∧ (s.peerAttached (q.fld 0xA 2) = true) ∧ (s.routeTo (q.fld 0xA 2) q.secure = some p) ∧ (s.dataPorts (q.fld 0xA 2) q.secure ≠ [])) ∧
    (∃ (i w e : Nat) (q : Request) (s : State), (s.stopped = false) ∧ (s.winState w = 1) ∧ (s.winEpoch w = e) ∧ (s.slotReqs Dop.windowOpen w = [i]) ∧ (s.req? i = some q) ∧ (q.phase = .running)) ∧
    (∃ (i w e : Nat) (q : Request) (s : State), (s.stopped = false) ∧ (s.winState w = 1) ∧ (s.winEpoch w = e) ∧ (s.slotReqs Dop.windowOpen w = [i]) ∧ (s.req? i = some q) ∧ (q.phase = .running)) ∧
    (∃ (i w e : Nat) (q : Request) (s : State), (s.stopped = false) ∧ (s.winState w = 1) ∧ (s.winEpoch w = e) ∧ (s.slotReqs Dop.windowOpen w = [i]) ∧ (s.req? i = some q) ∧ (q.phase = .running)) ∧
    (∃ (w e st : Nat) (ok : Bool) (s : State), s.winEpoch w ≠ e) ∧
    (∃ (i w p : Nat) (q : Request) (s : State), (s.stopped = false) ∧ (s.req? i = some q) ∧ (q.opcode = Dop.windowClose) ∧ (s.mayStart q = true) ∧ (q.fld 8 1 = w) ∧ (s.winState w = 2) ∧ (s.routeTo (s.winPeer w) q.secure = some p)) ∧
    (∃ (i w : Nat) (q : Request) (s : State), (s.stopped = false) ∧ (s.req? i = some q) ∧ (q.opcode = Dop.windowClose) ∧ (s.mayStart q = true) ∧ (q.fld 8 1 = w) ∧ ((s.winState w = 0 ∨ s.winState w = 3))) ∧
    (∃ (i w e st : Nat) (ok : Bool) (q : Request) (s : State), (s.stopped = false) ∧ (s.winState w = 3) ∧ (s.winEpoch w = e) ∧ (s.ix.txns.any (fun x => decide (x.window = w) && decide (x.epoch = e)) = false) ∧ (s.slotReqs Dop.windowClose w = [i]) ∧ (s.req? i = some q) ∧ (q.phase = .running)) :=
  ⟨⟨9, 3, 2, wWo, ((wIxT12.setReg (Off.win 3 4) 0xFFFFFFFF).setReq 9 wWo), by decide +kernel⟩,
   ⟨9, 3, 6, wWoR, wOpening, by decide +kernel⟩,
   ⟨9, 3, 6, wWoR, wOpening, by decide +kernel⟩,
   ⟨9, 3, 6, wWoR, wOpening, by decide +kernel⟩,
   ⟨3, 7, 0, true, wOpening, by decide +kernel⟩,
   ⟨9, 3, 2, wWc, ({(wOpenW.setReq 9 wWc).setReq 8 wRcR with ix.txns := [wTxn]}.setReq 7 {wRcR with pos := 3}), by decide +kernel⟩,
   ⟨9, 3, wWc, (wIxT12.setReq 9 wWc), by decide +kernel⟩,
   ⟨9, 3, 6, 0, true, wWcR, wClosing, by decide +kernel⟩⟩

theorem witness_CopiesSendPacketsAndEndWhenAnswered :
    (∃ (i w p len c src : Nat) (q : Request) (s : State), (s.stopped = false) ∧ (s.req? i = some q) ∧ (q.opcode = Dop.remoteCopy) ∧ ((s.mayStart q || s.goesOn q) = true) ∧ (q.wrote = false) ∧ (q.stop = none) ∧ (q.aux = 0) ∧ (ptrSpace (q.fld 0x18 8) = 2) ∧ (ptrWindow (q.fld 0x18 8) = w) ∧ (s.winState w = 2) ∧ (s.winEpoch w = q.epoch) ∧ (s.dataPorts (s.winPeer w) q.secure = [p]) ∧ (q.fld 0x20 4 = len) ∧ (0 < len) ∧ ((len + 4095) / 4096 = c) ∧ (18 * c ≤ s.reg (Off.cred p 1 4)) ∧ ((s.port p).waiting 1 = []) ∧ (q.fld 0x10 8 = src) ∧ ((ptrSpace src = 1 ∧ ptrAddr src + len < 2 ^ 52 ∧ s.hostStop (ptrAddr src) len = none ∨ ∀ j, j < c → LinesOpen s q.secure false false (src + 4096 * j) (min 4096 (len - 4096 * j))))) ∧
    (∃ (i w p len c dst : Nat) (q : Request) (s : State), (s.stopped = false) ∧ (s.req? i = some q) ∧ (q.opcode = Dop.remoteCopy) ∧ ((s.mayStart q || s.goesOn q) = true) ∧ (q.wrote = false) ∧ (q.stop = none) ∧ (q.aux = 0) ∧ (q.fld 0x18 8 = dst) ∧ (ptrSpace dst ≠ 2) ∧ (ptrWindow (q.fld 0x10 8) = w) ∧ (s.winState w = 2) ∧ (s.winEpoch w = q.epoch) ∧ (s.dataPorts (s.winPeer w) q.secure = [p]) ∧ (q.fld 0x20 4 = len) ∧ (0 < len) ∧ ((len + 4095) / 4096 = c) ∧ (c ≤ s.reg (Off.cred p 1 4)) ∧ ((s.port p).waiting 1 = [])) ∧
    (∃ (i w : Nat) (q : Request) (s : State), (s.stopped = false) ∧ (s.req? i = some q) ∧ (q.opcode = Dop.remoteCopy) ∧ ((s.mayStart q || s.goesOn q) = true) ∧ (q.wrote = false) ∧ (q.stop = none) ∧ (q.aux ≠ q.fld 0x20 4) ∧ (ptrWindow (if ptrSpace (q.fld 0x18 8) = 2 then q.fld 0x18 8 else q.fld 0x10 8) = w) ∧ ((s.winState w = 0 ∨ s.winState w = 3 ∨ s.winEpoch w ≠ q.epoch)) ∧ (s.unanswered i = false)) ∧
    (∃ (h : WinHdr) (x : Txn) (q : Request) (s : State), (s.stopped = false) ∧ (s.txnOf h = some x) ∧ (x.write = true) ∧ (s.req? x.req = some q) ∧ (q.order = x.order) ∧ (q.opcode = Dop.remoteCopy) ∧ (q.phase = .running) ∧ (q.wrote = false) ∧ (q.stop = none) ∧ (s.winState x.window ≠ 3)) ∧
    (∃ (h : WinHdr) (x : Txn) (q : Request) (s : State), (s.stopped = false) ∧ (s.txnOf h = some x) ∧ (x.write = true) ∧ (s.req? x.req = some q) ∧ (q.order = x.order) ∧ (q.opcode = Dop.remoteCopy) ∧ (q.phase = .running) ∧ ((q.wrote = true ∨ q.stop ≠ none)) ∧ (s.winState x.window ≠ 3)) ∧
    (∃ (h : WinHdr) (x : Txn) (q : Request) (s : State), (s.stopped = false) ∧ (h.window < 256) ∧ (s.txnOf h = some x) ∧ (s.req? x.req = some q) ∧ (q.order = x.order) ∧ (q.opcode = Dop.remoteCopy) ∧ (q.phase = .running) ∧ (s.winState x.window ≠ 3)) ∧
    (∃ (h : WinHdr) (data : List Byte) (x : Txn) (q : Request) (s : State), (s.stopped = false) ∧ (s.regWrites = []) ∧ (s.txnOf h = some x) ∧ (x.write = false) ∧ (s.req? x.req = some q) ∧ (q.order = x.order) ∧ (q.opcode = Dop.remoteCopy) ∧ (q.phase = .running) ∧ (q.wrote = false) ∧ (q.stop = none) ∧ (s.winState x.window ≠ 3) ∧ (data.length = x.len) ∧ (LinesOpen s q.secure true false x.local_ x.len)) ∧
    (∃ (h : WinHdr) (ack : Bool) (s : State), s.stopped = false) ∧
    (∃ (h : WinHdr) (data : List Byte) (s : State), s.stopped = false) :=
  ⟨⟨8, 3, 3, 100, 1, 0x1010, wRc, (wOpenW.setReq 8 wRc), by decide +kernel⟩,
   ⟨8, 3, 3, 5000, 2, 0x1010, wRr, (wOpenW.setReq 8 wRr), by decide +kernel⟩,
   ⟨8, 3, wRr, (wClosing.setReq 8 wRr), by decide +kernel⟩,
   ⟨wHdr, wTxn, wRcR, wAns, by decide +kernel⟩,
   ⟨wHdr, wTxn, {wRcR with stop := some (.faultWorld, 3, 40)}, ({wAns with ix.txns := [wTxn]}.setReq 8 {wRcR with stop := some (.faultWorld, 3, 40)}), by decide +kernel⟩,
   ⟨wHdr, wTxn, wRcR, wAns, by decide +kernel⟩,
   ⟨wHdr, ((List.range 100).map (BitVec.ofNat 8)), {wTxn with write := false}, wRrR, ({wAns with ix.txns := [{wTxn with write := false}]}.setReq 8 wRrR), by decide +kernel⟩,
   ⟨wHdr, true, wAns, by decide +kernel⟩,
   ⟨wHdr, [1,2], wAns, by decide +kernel⟩⟩

theorem witness_TargetsAdmitStoreAndDiscard :
    (∃ (o : OpenReq) (s : State), (s.stopped = false) ∧ (s.staleSource o.src o.incarnation = false) ∧ (s.peerAdmits o.secure o.base o.size = true) ∧ ((s.ix.inbound.filter (fun e => !(decide (e.src = o.src) && decide (e.window = o.window)))).length < 4096)) ∧
    (∃ (o : OpenReq) (portSecure : Bool) (s : State), (s.stopped = false) ∧ (s.staleSource o.src o.incarnation = false) ∧ ((o.secure ≠ portSecure ∨ s.peerAdmits o.secure o.base o.size = false))) ∧
    (∃ (o : OpenReq) (portSecure : Bool) (s : State), s.staleSource o.src o.incarnation = true) ∧
    (∃ (h : WinHdr) (data : List Byte) (portSecure : Bool) (e : Inbound) (v : Verdict) (a : Nat) (s : State), (s.stopped = false) ∧ (s.entryFor h portSecure 1 = some e) ∧ (s.firstRefused h.secure true (e.base + h.offset) h.len = some (v, a))) ∧
    (∃ (h : WinHdr) (portSecure : Bool) (e : Inbound) (v : Verdict) (a : Nat) (s : State), (s.stopped = false) ∧ (s.entryFor h portSecure 0 = some e) ∧ (s.firstRefused h.secure false (e.base + h.offset) h.len = some (v, a))) ∧
    (∃ (h : WinHdr) (data : List Byte) (e : Inbound) (s : State), (s.stopped = false) ∧ (s.entryFor h h.secure 1 = some e) ∧ (data.length = h.len) ∧ (LinesOpen s h.secure true false (e.base + h.offset) h.len)) ∧
    (∃ (h : WinHdr) (data : List Byte) (portSecure : Bool) (s : State), (s.stopped = false) ∧ (s.entryFor h portSecure 1 = none)) ∧
    (∃ (h : WinHdr) (e : Inbound) (s : State), (s.stopped = false) ∧ (s.entryFor h h.secure 0 = some e) ∧ (LinesOpen s h.secure false false (e.base + h.offset) h.len)) ∧
    (∃ (h : WinHdr) (portSecure : Bool) (s : State), (s.stopped = false) ∧ (s.entryFor h portSecure 0 = none)) ∧
    (∃ (peer w e : Nat) (s : State), s.stopped = false) ∧
    (∃ (peer w e : Nat) (s : State), (s.stopped = false) ∧ (s.winState w = 2) ∧ (s.winEpoch w = e) ∧ (s.winPeer w = peer)) :=
  ⟨⟨wOr, wTgt, by decide +kernel⟩,
   ⟨wOr, true, wTgt, by decide +kernel⟩,
   ⟨wOr, false, {wTgt with ix.lost := [7]}, by decide +kernel⟩,
   ⟨{wHdr with offset := 0}, ((List.range 100).map (BitVec.ofNat 8)), false, {wEn with base := 2^46}, .world, (2^46), wFar, by decide +kernel⟩,
   ⟨{wHdr with offset := 0}, false, {wEn with base := 2^46}, .world, (2^46), wFar, by decide +kernel⟩,
   ⟨{wHdr with offset := 0x30}, ((List.range 100).map (BitVec.ofNat 8)), wEn, {wTgt with ix.inbound := [wEn]}, by decide +kernel⟩,
   ⟨{wHdr with epoch := 5}, ((List.range 100).map (BitVec.ofNat 8)), false, {wTgt with ix.inbound := [wEn]}, by decide +kernel⟩,
   ⟨{wHdr with offset := 0x30}, wEn, ({wTgt with ix.inbound := [wEn]}.setMemBytes 0x200040 [1,2,3]), by decide +kernel⟩,
   ⟨{wHdr with offset := 0x30}, true, ({wTgt with ix.inbound := [wEn]}.setMemBytes 0x200040 [1,2,3]), by decide +kernel⟩,
   ⟨7, 3, 6, {wTgt with ix.inbound := [wEn, {wEn with window := 4}]}, by decide +kernel⟩,
   ⟨7, 3, 6, wOpenW, by decide +kernel⟩⟩

theorem witness_PortsTrainAttachAndLoseTheirPartner :
    (∃ (p : Nat) (s : State), (s.stopped = false) ∧ (s.sec.stage = .booted) ∧ ((s.ixState p = 0 ∨ s.ixState p = 4))) ∧
    (∃ (p : Nat) (s : State), (s.sec.stage ≠ .booted ∨ s.ixState p ≠ 0 ∧ s.ixState p ≠ 4)) ∧
    (∃ (p iface loss : Nat) (lanes : List Nat) (s : State), (s.ixState p ≠ 1 ∨ lanes ≠ [0, 1, 2, 3] ∧ lanes ≠ [3, 2, 1, 0])) ∧
    (∃ (p iface loss : Nat) (lanes : List Nat) (s : State), (s.stopped = false) ∧ (s.ixState p = 1) ∧ ((lanes = [0, 1, 2, 3] ∨ lanes = [3, 2, 1, 0]))) ∧
    (∃ (p : Nat) (h : Hello) (s : State), (s.stopped = false) ∧ (2 ≤ s.ixState p) ∧ (s.ixState p ≠ 4)) ∧
    (∃ (p : Nat) (a : Admit) (s : State), (s.stopped = false) ∧ (p < 16) ∧ (s.confirmed = true) ∧ (s.isManager = true) ∧ (s.ixState p = 2) ∧ (a.depth = 1) ∧ (s.helloDone p = true) ∧ (s.attachedDevs.length < 1023) ∧ (a.number < 1024) ∧ ((a.number = 0 ∨ s.mapState a.number ≠ 1))) ∧
    (∃ (p : Nat) (a : Admit) (s : State), (s.stopped = false) ∧ (p < 16) ∧ (s.confirmed = true) ∧ (s.isManager = true) ∧ (s.ixState p = 2) ∧ (a.depth = 1) ∧ (s.helloDone p = true) ∧ (a.number < 1024) ∧ (0 < a.number) ∧ (s.mapState a.number = 1)) ∧
    (∃ (p : Nat) (a : Admit) (s : State), (s.stopped = false) ∧ (s.confirmed = true) ∧ (s.isManager = true) ∧ (4 ≤ a.depth) ∧ (s.attachedDevs.length < 1023) ∧ (a.number < 1024) ∧ ((a.number = 0 ∨ s.mapState a.number ≠ 1))) ∧
    (∃ (p : Nat) (a : Admit) (s : State), (s.stopped = false) ∧ (p < 16) ∧ (s.confirmed = true) ∧ (s.isManager = false) ∧ ((!s.mapped || s.ix.uplink.isNone || decide (s.ix.uplink = some p)) = true) ∧ (s.ixState p = 2) ∧ (s.helloDone p = true) ∧ (a.refused = false)) ∧
    (∃ (p : Nat) (a : Admit) (s : State), (s.stopped = false) ∧ (p < 16) ∧ (s.confirmed = true) ∧ (s.isManager = false) ∧ ((!s.mapped || s.ix.uplink.isNone || decide (s.ix.uplink = some p)) = false) ∧ (s.ixState p = 2) ∧ (s.helloDone p = true) ∧ (a.refused = false) ∧ (a.number < 1024)) ∧
    (∃ (p : Nat) (a : Admit) (s : State), (s.stopped = false) ∧ (s.confirmed = true) ∧ (s.isManager = false) ∧ (s.ixState p = 2) ∧ (a.refused = true)) ∧
    (∃ (p : Nat) (a : Admit) (s : State), (s.confirmed = false ∨ s.helloDone p = false ∧ (s.isManager = true ∧ a.depth = 1 ∨ s.isManager = false ∧ a.refused = false ∧ (!s.mapped || s.ix.uplink.isNone || decide (s.ix.uplink = some p)) = true))) ∧
    (∃ (p : Nat) (s : State), (s.stopped = false) ∧ ((s.ixState p = 1 ∨ s.ixState p = 2 ∨ s.ixState p = 5))) ∧
    (∃ (p : Nat) (s : State), (s.stopped = false) ∧ (p < 16) ∧ (s.ixState p = 3)) :=
  ⟨⟨4, wBooted, by decide +kernel⟩,
   ⟨3, wIxT13, by decide +kernel⟩,
   ⟨4, 2, 7, [3,1,2,0], (wBooted.setReg (Off.ixp 4 0) 1), by decide +kernel⟩,
   ⟨4, 2, 7, [3,2,1,0], (wBooted.setReg (Off.ixp 4 0) 1), by decide +kernel⟩,
   ⟨4, wHello, (wMgrT13.setReg (Off.ixp 4 0) 2), by decide +kernel⟩,
   ⟨4, wAdm, (wGreet wMgrT13), by decide +kernel⟩,
   ⟨4, {wAdm with number := 7}, (wGreet wMgrT13), by decide +kernel⟩,
   ⟨4, {wAdm with depth := 4}, (wGreet wMgrT13), by decide +kernel⟩,
   ⟨4, {wAdm with number := 9}, (wGreet (wBooted.setReg (Off.ix 0) 0x10)), by decide +kernel⟩,
   ⟨4, {wAdm with number := 9, parent := 5}, (wGreet (wIxT13.setReg (Off.ix 0) 0x18)), by decide +kernel⟩,
   ⟨4, {wAdm with refused := true}, ((wBooted.setReg (Off.ix 0) 0x10).setReg (Off.ixp 4 0) 2), by decide +kernel⟩,
   ⟨4, wAdm, ((wGreet wMgrT13).setPort 4 IxPort.empty), by decide +kernel⟩,
   ⟨4, (wGreet wMgrT13), by decide +kernel⟩,
   ⟨3, ((wIxT13.setReg (Off.cred 3 1 8) 7).setReg (Off.cred 3 1 0x1C) 2), by decide +kernel⟩⟩

theorem witness_FlitsCreditsAndTimePassOverTheLinks :
    (∃ (p k : Nat) (bs : List Byte) (fwd : List FwdPacket) (s : State), (s.stopped = false) ∧ (2 ≤ s.ixState p) ∧ (s.ixState p ≠ 4)) ∧
    (∃ (p k : Nat) (bs : List Byte) (fwd : List FwdPacket) (s : State), (s.stopped = false) ∧ (2 ≤ s.ixState p) ∧ (s.ixState p ≠ 4) ∧ (crc64 (bs.take 0xF8) ≠ BitVec.ofNat 64 (fieldAt bs 0xF8 8))) ∧
    (∃ (p k : Nat) (bs : List Byte) (s : State), (s.stopped = false) ∧ (s.sleep.pkg = .awake) ∧ (2 ≤ s.ixState p) ∧ (s.ixState p ≠ 4) ∧ (crc64 (bs.take 0xF8) = BitVec.ofNat 64 (fieldAt bs 0xF8 8))) ∧
    (∃ (p k : Nat) (bs : List Byte) (f : FwdPacket) (s : State), (s.stopped = false) ∧ (s.sleep.pkg = .awake) ∧ (p < 16) ∧ (2 ≤ s.ixState p) ∧ (s.ixState p ≠ 4) ∧ (crc64 (bs.take 0xF8) = BitVec.ofNat 64 (fieldAt bs 0xF8 8)) ∧ (Flit.kind bs = 1) ∧ (Flit.seq bs = (s.port p).rxSeq)) ∧
    (∃ (p seq : Nat) (s : State), (s.stopped = false) ∧ ((s.port p).replay.any (fun q => decide (q.1 = seq % 4096)) = true)) ∧
    (∃ (p : Nat) (s : State), (s.stopped = false) ∧ (s.ixState p = 3) ∧ (s.laneFree p 0 = true)) ∧
    (∃ (p : Nat) (s : State), (s.ixState p ≠ 3 ∨ s.laneFree p 0 = false)) ∧
    (∃ (p : Nat) (s : State), (s.stopped = false) ∧ (s.ixState p = 3) ∧ ((s.childPort p && !s.parentPort p) = true) ∧ (s.laneFree p 0 = true) ∧ ((s.isSub && s.ix.cut) = false)) ∧
    (∃ (p stamp : Nat) (s : State), (s.stopped = false) ∧ (s.ixState p = 3) ∧ (s.ix.uplink = some p) ∧ (s.clock.rate ≤ nominalRate + nominalRate / 20000) ∧ (nominalRate - nominalRate / 20000 ≤ s.clock.rate)) :=
  ⟨⟨3, 5, [], [], wIxT13, by decide +kernel⟩,
   ⟨3, 2, [1], [], wIxT13, by decide +kernel⟩,
   ⟨3, 2, wFlit, wIxT13, by decide +kernel, by decide +kernel, by decide +kernel, by decide +kernel, flit_crc⟩,
   ⟨3, 2, wFlit, wFw, wIxT13, by decide +kernel, by decide +kernel, by decide +kernel, by decide +kernel, by decide +kernel, flit_crc, by decide +kernel, by decide +kernel⟩,
   ⟨3, (4096+7), (wIxT13.setPort 3 {IxPort.empty with replay := [(5,[]),(6,[]),(7,[1]),(8,[])]}), by decide +kernel⟩,
   ⟨2, {wIxT13 with clock.ns := 70}, by decide +kernel⟩,
   ⟨3, {wIxT13 with clock.ns := 70}, by decide +kernel⟩,
   ⟨3, ((wMgrT13.setReg (Off.map 7 0) 1).setReg (Off.cred 3 0 4) 9), by decide +kernel⟩,
   ⟨2, 60000, wIxT13, by decide +kernel⟩⟩

theorem witness_ScrubReadsCorrectsAndReloadsMacros :
    (∃ (n m k : Nat) (l : List CellUpset) (s u : State), (s.stopped = false) ∧ (s.upsets n m l = u) ∧ (u.unbacked n = false) ∧ (u.macRetired n m = false) ∧ ((u.tile n).sleep ≠ .nap) ∧ (k ∈ u.scrubbed n) ∧ (k ≠ m) ∧ ((u.mac n k).scrubRow < 256) ∧ ((u.cellRow n m ((u.mac n m).scrubRow % 256)).badWords = 0) ∧ ((u.cellRow n m ((u.mac n m).scrubRow % 256)).fixes = [])) ∧
    (∃ (n m k : Nat) (l : List CellUpset) (s u : State), (s.stopped = false) ∧ (s.upsets n m l = u) ∧ (u.unbacked n = false) ∧ (u.macRetired n m = false) ∧ ((u.tile n).sleep ≠ .nap) ∧ (k ∈ u.scrubbed n) ∧ (k ≠ m) ∧ ((u.mac n k).scrubRow < 256) ∧ ((u.cellRow n m ((u.mac n m).scrubRow % 256)).badWords = 0) ∧ ((u.cellRow n m ((u.mac n m).scrubRow % 256)).fixes ≠ []) ∧ ((u.mac n m).corr.contains ((u.mac n m).scrubRow % 256) = false)) ∧
    (∃ (n m k : Nat) (l : List CellUpset) (s u : State), (s.stopped = false) ∧ (s.upsets n m l = u) ∧ (u.unbacked n = false) ∧ (u.macRetired n m = false) ∧ ((u.tile n).sleep ≠ .nap) ∧ (k ∈ u.scrubbed n) ∧ (k ≠ m) ∧ ((u.mac n k).scrubRow < 256) ∧ (m < 64) ∧ ((u.cellRow n m ((u.mac n m).scrubRow % 256)).badWords ≠ 0)) ∧
    (∃ (n m : Nat) (l : List CellUpset) (s u : State), (s.stopped = false) ∧ (s.upsets n m l = u) ∧ (u.unbacked n = false) ∧ (u.macRetired n m = false) ∧ (m < 64) ∧ ((u.tile n).sleep ≠ .nap) ∧ ((u.mac n m).scrubRow = 255) ∧ ((∀ k ∈ u.scrubbed n, k ≠ m → 256 ≤ (u.mac n k).scrubRow)) ∧ ((∀ k ∈ u.scrubbed n, (u.mac n k).passCorr = 0)) ∧ ((u.cellRow n m 255).badWords = 0)) ∧
    (∃ (n m : Nat) (s : State), s.stopped = false) ∧
    (∃ (n m r : Nat) (s : State), (s.stopped = false) ∧ ((s.mac n m).corr = [r]) ∧ (s.stuckIn n m = []) ∧ ((s.cellRow n m r).fixes ≠ [])) ∧
    (∃ (n m r c : Nat) (u : StuckCell) (s : State), (s.stopped = false) ∧ ((s.mac n m).corr = [r]) ∧ (s.stuckIn n m = [u]) ∧ (u.row = r) ∧ (columnOf (s.mac n m).spares u.col = some c) ∧ (c < 528) ∧ ((s.cellRow n m r).fixes ≠ []) ∧ ((s.cellRow n m r).corrected.cell c ≠ u.value) ∧ ((s.mac n m).spares.length < 8) ∧ (m < 64)) ∧
    (∃ (n m : Nat) (p : PassInfo) (x : Section) (s : State), (s.stopped = false) ∧ (m < 64) ∧ ((s.mac n m).reload = true) ∧ (s.inActiveUse n = true) ∧ (s.atSeam n = true) ∧ (s.parkState = 0) ∧ (s.activePass = some p) ∧ (s.weightSection p n = some x) ∧ ((x.host = true ∨ s.noFlips (p.base + x.offset + 0x4000 * m) (min x.length (0x4000 * (m + 1)) - 0x4000 * m) = true)) ∧ (s.imagePoisoned p.base x m = true)) ∧
    (∃ (n m : Nat) (p : PassInfo) (s : State), (s.stopped = false) ∧ (m < 64) ∧ ((s.mac n m).reload = true) ∧ (s.inActiveUse n = true) ∧ (s.atSeam n = true) ∧ (s.parkState = 0) ∧ (s.activePass = some p) ∧ (s.weightSection p n = none) ∧ (s.stuckIn n m = [])) ∧
    (∃ (n m : Nat) (s : State), ((s.mac n m).reload = false ∨ s.inActiveUse n = false ∨ s.atSeam n = false ∨ s.parkState ≠ 0)) ∧
    (∃ (n m : Nat) (p : PassInfo) (x : Section) (s : State), (s.stopped = false) ∧ (m < 64) ∧ ((s.mac n m).reload = true) ∧ (s.inActiveUse n = true) ∧ (s.atSeam n = true) ∧ (s.parkState = 0) ∧ (s.activePass = some p) ∧ (s.weightSection p n = some x) ∧ ((x.host = true ∨ s.noFlips (p.base + x.offset + 0x4000 * m) (min x.length (0x4000 * (m + 1)) - 0x4000 * m) = true)) ∧ (s.imagePoisoned p.base x m = false) ∧ (s.stuckIn n m = [])) ∧
    (∃ v i : Nat, (v < 2 ^ 64) ∧ (i < 64) ∧ (checkRead 64 7 (putBit v i (!v.testBit i)) (checkWord 64 7 v) = .fixed v)) :=
  ⟨⟨5, 3, 2, [], wScr, wScr, by decide +kernel⟩,
   ⟨5, 3, 2, [], (wRow wBit1 wScr), (wRow wBit1 wScr), by decide +kernel⟩,
   ⟨5, 3, 2, [], (wRow wBit2 wScr), (wRow wBit2 wScr), by decide +kernel⟩,
   ⟨5, 3, [], wScrEnd, wScrEnd, by decide +kernel⟩,
   ⟨5, 3, wScr, by decide +kernel⟩,
   ⟨5, 3, 7, ((wRow wBit1 wScr).updMac 5 3 (fun x => {x with corr := [7]})), by decide +kernel⟩,
   ⟨5, 3, 7, 4, ⟨5, 3, 7, 4, wBit1.data.testBit 4⟩, {(wRow wBit1 wScr).updMac 5 3 (fun x => {x with corr := [7], spares := [9]}) with stuck := [⟨5, 3, 7, 4, wBit1.data.testBit 4⟩]}, by decide +kernel⟩,
   ⟨5, 3, wPassT14, {typ := 1, sflags := 0, tile := 5, index := 0, offset := 0x2000, length := 0xC123, digest := []}, {wRel with hbm.poison := [(0x1002000+0xC040)/64]}, by decide +kernel⟩,
   ⟨5, 3, {wPassT14 with sections := []}, {wRel with passes.slots := [(2,{wPassT14 with sections := []})]}, by decide +kernel⟩,
   ⟨5, 3, wScr, by decide +kernel⟩,
   ⟨5, 3, wPassT14, {typ := 1, sflags := 0, tile := 5, index := 0, offset := 0x2000, length := 0xC123, digest := []}, wRel, by decide +kernel⟩,
   ⟨0x123456789ABCDEF0, 63, by decide +kernel⟩⟩

theorem witness_WindowsOfCellsAndScratchpadsAreChecked :
    (∃ (a : Nat) (data : List Byte) (req : Option Nat) (s : State), (s.stopped = false) ∧ (inCimWindow a = true) ∧ (inCimWindow (a + data.length - 1) = true) ∧ (s.noFlips a data.length = true) ∧ ((∀ p ∈ linePieces a data.length, s.toll true false true false p.1 p.2 = .admitted))) ∧
    (∃ (n off i : Nat) (data : List Byte) (q : Request) (s : State), (s.stopped = false) ∧ (n < 1024) ∧ (off + data.length ≤ 0x100000) ∧ (0 < data.length) ∧ (s.unbacked n = false) ∧ (s.inActiveUse n = true) ∧ (s.req? i = some q) ∧ (q.phase ≠ .finished)) ∧
    (∃ (n off i : Nat) (data : List Byte) (q : Request) (s : State), (s.stopped = false) ∧ (n < 1024) ∧ (off + data.length ≤ 0x100000) ∧ (0 < data.length) ∧ (s.req? i = some q) ∧ (q.phase ≠ .finished)) ∧
    (∃ (n m off len : Nat) (req : Option Nat) (s : State), (s.stopped = false) ∧ (n < 1024) ∧ (m < 64) ∧ (off + len ≤ 0x4000) ∧ (0 < len) ∧ (s.unbacked n = false) ∧ (s.noFlips (cimBase n + 0x4000 * m + off) len = true)) ∧
    (∃ (n off len : Nat) (s : State), (s.stopped = false) ∧ (n < 1024) ∧ (off + len ≤ 0x100000) ∧ (0 < len)) ∧
    (∃ (n off waits : Nat) (data : List Byte) (secure : Bool) (req : Option Nat) (found : List CheckOutcome) (s : State), (s.stopped = false) ∧ (n < 1024) ∧ (off < 0x200000) ∧ (s.toll secure false true false (spBase n + off) data.length = .admitted) ∧ (s.mergeBad (spBase n + off) data.length = false) ∧ ((((s.tile n).mergeUnits off data.length).zip found).all (fun x => decide (x.2 = .clean)) = true)) ∧
    (∃ (n off waits u : Nat) (data : List Byte) (secure : Bool) (req : Option Nat) (s : State), (s.stopped = false) ∧ (n < 1024) ∧ (off < 0x200000) ∧ (s.toll secure false true false (spBase n + off) data.length = .admitted) ∧ (s.mergeBad (spBase n + off) data.length = false) ∧ (((s.tile n).mergeUnits off data.length).head? = some u)) ∧
    (∃ (n off waits u i : Nat) (data : List Byte) (secure : Bool) (q : Request) (s : State), (s.stopped = false) ∧ (n < 1024) ∧ (off < 0x200000) ∧ (s.req? i = some q) ∧ (q.phase ≠ .finished) ∧ (s.toll secure false true false (spBase n + off) data.length = .admitted) ∧ (((s.tile n).mergeUnits off data.length).head? = some u) ∧ ((s.tile n).weightClass off = true)) ∧
    (∃ (n off len waits : Nat) (secure : Bool) (req : Option Nat) (found : List CheckOutcome) (s : State), (s.stopped = false) ∧ (n < 1024) ∧ (off < 0x200000) ∧ (s.toll secure false false false (spBase n + off) len = .admitted) ∧ (s.lineBad (spBase n + off) len = false) ∧ ((((s.tile n).checkUnits off len).zip found).all (fun x => decide (x.2 = .clean)) = true)) ∧
    (∃ (n off len i waits : Nat) (secure : Bool) (q : Request) (s : State), (s.stopped = false) ∧ (n < 1024) ∧ (off < 0x200000) ∧ (s.req? i = some q) ∧ (q.phase ≠ .finished) ∧ (s.toll secure false false false (spBase n + off) len = .admitted) ∧ ((s.tile n).weightClass off = false) ∧ (((s.tile n).checkUnits off len).head? = some (off / 4 * 4))) ∧
    (∃ (write : Bool) (n off len waits : Nat) (data : List Byte) (secure : Bool) (req : Option Nat) (found : List CheckOutcome) (s : State), (s.stopped = false) ∧ (s.toll secure false write false (spBase n + off) len = .wait)) ∧
    (∃ (write : Bool) (n off len i waits : Nat) (data : List Byte) (secure : Bool) (found : List CheckOutcome) (q : Request) (s : State), (s.stopped = false) ∧ (s.req? i = some q) ∧ (q.phase ≠ .finished) ∧ (s.toll secure false write false (spBase n + off) len ≠ .admitted) ∧ (s.toll secure false write false (spBase n + off) len ≠ .wait)) :=
  ⟨⟨(cimBase 5 + 0x3FF0), ((List.range 100).map (BitVec.ofNat 8)), none, wTile, by decide +kernel⟩,
   ⟨5, 0x10, 9, ((List.range 100).map (BitVec.ofNat 8)), (wReq Dop.copy), (wRel.setReq 9 (wReq Dop.copy)), by decide +kernel⟩,
   ⟨5, 0x10, 9, ((List.range 100).map (BitVec.ofNat 8)), (wReq Dop.copy), (wRel.setReq 9 (wReq Dop.copy)), by decide +kernel⟩,
   ⟨5, 3, 0xC, 100, none, wRel, by decide +kernel⟩,
   ⟨5, 0x10, 100, wRel, by decide +kernel⟩,
   ⟨5, 0x10, 3, [1,2,3,4,5,6,7,8], false, none, [.correctable], wSp, by decide +kernel⟩,
   ⟨5, 0x1010, 3, 0x1000, [1,2,3,4,5,6,7,8], false, none, wSpPlan, by decide +kernel⟩,
   ⟨5, 0x1010, 3, 0x1000, 9, [1,2,3,4,5,6,7,8], false, (wReq Dop.copy), (wSpPlan.setReq 9 (wReq Dop.copy)), by decide +kernel⟩,
   ⟨5, 0x10, 8, 1, false, none, [.clean], (wSp.setMemBytes (spBase 5 + 0x12) [5,6]), by decide +kernel⟩,
   ⟨5, 0x10, 8, 9, 1, false, (wReq Dop.copy), ((wSp.setMemBytes (spBase 5 + 0x12) [5,6]).setReq 9 (wReq Dop.copy)), by decide +kernel⟩,
   ⟨true, 5, 0x10, 8, 0, [1,2,3,4,5,6,7,8], false, none, [], {wSp with sec.change := [{n := 3, old := BitVec.ofNat 64 (2^20 + 5 + 2^27 + 2^63), new := 0}]}, by decide +kernel⟩,
   ⟨true, 5, 0x10010, 8, 9, 0, [1], false, [.clean], (wReq Dop.copy), ((wSp.setMemBytes (spBase 5 + 0x12) [5,6]).setReq 9 (wReq Dop.copy)), by decide +kernel⟩⟩

theorem witness_BatchesCloseAndTakeTheirSignatures :
    (∃ (w : Nat) (s : State), (w < 2) ∧ (((s.auditWorld w).openLeaves = [] ∨ 16 ≤ (s.auditWorld w).waiting.length ∨ (s.auditWorld w).openLeaves.length < 65536 ∧ s.now < (s.auditWorld w).lastClose + (s.auditWorld w).interval * 1000000))) ∧
    (∃ (w : Nat) (s : State), (s.stopped = false) ∧ (w < 2) ∧ ((s.auditWorld w).openLeaves ≠ []) ∧ (leavesStay s w = true) ∧ ((65536 ≤ (s.auditWorld w).openLeaves.length ∨ (s.auditWorld w).lastClose + (s.auditWorld w).interval * 1000000 ≤ s.now)) ∧ (s.sec.treeReady = false) ∧ (s.sec.noEpoch = false) ∧ ((s.auditWorld w).waiting.length < 16)) ∧
    (∃ (w : Nat) (s : State), (s.stopped = false) ∧ (w < 2) ∧ ((s.auditWorld w).openLeaves ≠ []) ∧ (leavesStay s w = true) ∧ ((s.auditWorld w).waiting = []) ∧ ((65536 ≤ (s.auditWorld w).openLeaves.length ∨ (s.auditWorld w).lastClose + (s.auditWorld w).interval * 1000000 ≤ s.now)) ∧ (s.sec.treeReady = true) ∧ (s.sec.noEpoch = false) ∧ (s.sec.sigC < 2 ^ 28 - 2 ^ 16) ∧ (s.sec.signQueue = []) ∧ (s.link.up = true) ∧ (s.ringOn (.pbat w) = true) ∧ (s.ringFull (.pbat w) = false)) ∧
    (∃ (w : Nat) (s : State), (s.stopped = false) ∧ (w < 2) ∧ ((s.auditWorld w).openLeaves ≠ []) ∧ (leavesStay s w = true) ∧ ((s.auditWorld w).waiting = []) ∧ ((65536 ≤ (s.auditWorld w).openLeaves.length ∨ (s.auditWorld w).lastClose + (s.auditWorld w).interval * 1000000 ≤ s.now)) ∧ (s.sec.noEpoch = true) ∧ (s.sec.sigC < 2 ^ 28 - 2 ^ 16) ∧ (s.sec.signQueue = []) ∧ (s.link.up = true) ∧ (s.ringOn (.pbat w) = true) ∧ (s.ringFull (.pbat w) = false)) ∧
    (∃ s : State, (s.stopped = false) ∧ (s.sec.stage = .booted) ∧ (s.sec.treeReady = false)) :=
  ⟨⟨0, wBat, by decide +kernel⟩,
   ⟨1, wBat, by decide +kernel⟩,
   ⟨1, wBatR, by decide +kernel⟩,
   ⟨1, {wBatR with sec.noEpoch := true}, by decide +kernel⟩,
   ⟨wBooted, by decide +kernel⟩⟩

theorem witness_StacksAreFixedScrubbedAndProtected :
    (∃ (k j : Nat) (ok : Bool) (s : State), (s.stopped = false) ∧ (k < 24) ∧ (j < 24) ∧ (j ≠ k) ∧ (s.sec.stage ≠ .inReset) ∧ (s.hbm.usableFixed = false) ∧ (s.readyCode 4 k = 0) ∧ (s.readyCode 4 j = 0)) ∧
    (∃ (k : Nat) (ok : Bool) (s : State), (s.stopped = false) ∧ (k < 24) ∧ (s.sec.stage ≠ .inReset) ∧ (s.hbm.usableFixed = false) ∧ (s.readyCode 4 k = 0) ∧ ((List.range 24).all (fun j => decide (j = k) || decide (s.readyCode 4 j ≠ 0)) = true)) ∧
    (∃ (k : Nat) (s : State), (s.stopped = false) ∧ (k < 24) ∧ (s.hbm.usableFixed = true) ∧ (s.readyCode 4 k = 1)) ∧
    (∃ (a : Nat) (found : CheckOutcome) (s : State), (s.stopped = false) ∧ (s.hbm.usableFixed = true) ∧ (a / 64 * 64 < s.hbmEnd) ∧ (s.sleep.pkg = .awake) ∧ ((found = .correctable ∧ s.noFlips (a / 64 * 64) 64 = true ∨ s.hbm.flips.find? (fun f => decide (f.1 = a / 64)) = some (a / 64, false)))) ∧
    (∃ (a : Nat) (found : CheckOutcome) (s : State), (s.stopped = false) ∧ (s.hbm.usableFixed = true) ∧ (a / 64 * 64 < s.hbmEnd) ∧ (s.sleep.pkg = .awake) ∧ (a / 64 ∉ s.hbm.poison) ∧ ((found = .uncorrectable ∧ s.noFlips (a / 64 * 64) 64 = true ∨ s.hbm.flips.find? (fun f => decide (f.1 = a / 64)) = some (a / 64, true)))) ∧
    (∃ (k temp : Nat) (s : State), (s.stopped = false) ∧ (k < 24) ∧ (s.readyCode 4 k = 1)) ∧
    (∃ (n : Nat) (v : DWord) (secure : Bool) (s : State), (s.stopped = false) ∧ (s.sleep.pkg = .awake) ∧ (n < 8)) ∧
    (∃ (n : Nat) (s : State), (s.stopped = false) ∧ (n < 8) ∧ (s.regBit (Off.memProt n + 4) 7 = true) ∧ (s.link.waiting = []) ∧ (s.ix.held = []) ∧ ((∀ u ∈ s.protUnits n, s.coherentUnit (u * 2 ^ 21) = false))) ∧
    (∃ (n u i : Nat) (s : State), (s.stopped = false) ∧ (n < 8) ∧ (s.regBit (Off.memProt n + 4) 7 = true) ∧ (s.link.waiting = []) ∧ (s.ix.held = []) ∧ (u ∈ s.protUnits n) ∧ (s.coherentUnit (u * 2 ^ 21) = true) ∧ (i < 32768)) ∧
    (∃ (n : Nat) (x : HostAccess) (s : State), (s.stopped = false) ∧ (n < 8) ∧ (s.regBit (Off.memProt n + 4) 7 = true) ∧ (s.link.waiting = [x]) ∧ (s.ix.held = []) ∧ ((∀ u ∈ s.protUnits n, s.coherentUnit (u * 2 ^ 21) = false))) ∧
    (∃ (n : Nat) (h : WinHdr) (data : List Byte) (ps : Bool) (s : State), (s.stopped = false) ∧ (n < 8) ∧ (s.regBit (Off.memProt n + 4) 7 = true) ∧ (s.link.waiting = []) ∧ (s.ix.held = [.write h data ps]) ∧ ((∀ u ∈ s.protUnits n, s.coherentUnit (u * 2 ^ 21) = false))) :=
  ⟨⟨7, 8, true, wBefore, by decide +kernel⟩,
   ⟨7, true, wAllBut, by decide +kernel⟩,
   ⟨0, wFix, by decide +kernel⟩,
   ⟨0x1234, .correctable, wFix, by decide +kernel⟩,
   ⟨0x1234, .uncorrectable, wFix, by decide +kernel⟩,
   ⟨0, 90, wFix, by decide +kernel⟩,
   ⟨3, (BitVec.ofNat 64 (2^38 + 2^19*4 + 9)), false, wFix, by decide +kernel⟩,
   ⟨3, (wFix.setReg64 (Off.memProt 3) (2^39+2^38+5)), by decide +kernel⟩,
   ⟨3, 5, 2, ((wFix.setReg64 (Off.memProt 3) (2^39+2^38+2^19+5)).setReg (Off.coherent 0) 32), by decide +kernel⟩,
   ⟨3, {cxl := false, door := false, write := false, addr := 0x1010, len := 8, data := [], secure := false, found := .clean}, {wFix.setReg64 (Off.memProt 3) (2^39+2^38+2^19+5) with link := {wFix.link with waiting := [{cxl := false, door := false, write := false, addr := 0x1010, len := 8, data := [], secure := false, found := .clean}]}}, by decide +kernel⟩,
   ⟨3, wHdrT15, [1,2], false, {wFix.setReg64 (Off.memProt 3) (2^39+2^38+2^19+5) with ix.held := [.write wHdrT15 [1,2] false]}, by decide +kernel⟩⟩

theorem witness_TheLinkTrainsRetrainsAndGoesDown :
    (∃ (m : Nat) (s : State), (s.stopped = false) ∧ (s.link.up = true) ∧ (s.hlModules.testBit m = true)) ∧
    (∃ (m rate : Nat) (half : Bool) (s : State), (s.stopped = false) ∧ ((s.sec.stage = .booted ∨ s.sec.stage = .recovery)) ∧ (s.hlModules.testBit m = false) ∧ (m < 8)) ∧
    (∃ (m h k : Nat) (s : State), (s.stopped = false) ∧ (s.link.up = true) ∧ (s.link.retrainWanted = true) ∧ (m ≠ 0) ∧ (m &&& s.hlModules = m)) ∧
    (∃ s : State, (s.stopped = false) ∧ (s.link.up = true)) ∧
    (∃ (m h rate failed : Nat) (partner : DWord) (cfg : Enumeration) (s : State), (s.stopped = false) ∧ (s.link.up = false) ∧ (m ≠ 0) ∧ (m < 256) ∧ ((s.sec.stage = .booted ∨ s.sec.stage = .recovery)) ∧ ((∀ r ∈ s.park.onDie, r.ring < 4160 ∧ r.cq < 4160))) ∧
    (∃ s : State, (s.stopped = false) ∧ (s.link.up = true) ∧ (s.regBit (Off.hl 0) 19 = true)) :=
  ⟨⟨5, wLinkT16, by decide +kernel⟩,
   ⟨5, 4, true, (wLinkT16.setReg (Off.hl 0) 0x1F), by decide +kernel⟩,
   ⟨0xFB, 2, 9, {wLinkT16 with link.laneErrs := [5,1], link.retrainWanted := true}, by decide +kernel⟩,
   ⟨wLinkT16, by decide +kernel⟩,
   ⟨0x0F, 3, 5, 0x8C, 0x8000000000, {bar0 := 0x100, bar2 := 0x200, bar4 := 0x300, hdmBase := 77, funcMask := true}, {wRing with link.up := false, sec.stage := .booted, rings.evWait := [(0, padTo 32 [1])]}, by decide +kernel⟩,
   ⟨wLinkT16, by decide +kernel⟩⟩

theorem witness_HostAccessesReachHbmBehindTheTollCheck :
    (∃ (l : Nat) (s : State), (s.stopped = false) ∧ (s.link.up = true)) ∧
    (∃ (r : RingId) (back : Nat) (x : RecWrite) (s : State), (s.stopped = false) ∧ ((s.link.recWrites.filter (fun y => decide (y.ring = r))).reverse[back]? = some x)) ∧
    (∃ (w : Nat) (v : Word) (s : State), (s.stopped = false) ∧ (s.sleep.pkg = .awake)) ∧
    (∃ s : State, s.stopped = false ∧ s.link.cohClearing ≠ []) ∧
    (∃ (a : Nat) (data : List Byte) (secure : Bool) (found : CheckOutcome) (s : State), (s.stopped = false) ∧ (s.link.up = true) ∧ (s.sleep.pkg ≠ .deep) ∧ (LinesOpen s secure true false a data.length)) ∧
    (∃ (a len : Nat) (secure : Bool) (s : State), (s.stopped = false) ∧ (s.link.up = true) ∧ (s.sleep.pkg ≠ .deep) ∧ (LinesOpen s secure false false a len)) ∧
    (∃ (a len : Nat) (secure : Bool) (s : State), (s.stopped = false) ∧ (s.link.up = true) ∧ (s.sleep.pkg ≠ .deep) ∧ (s.rangeVerdict secure false a len = none) ∧ (s.noFlips a len = true) ∧ (s.poisoned a len ≠ [])) ∧
    (∃ (write : Bool) (a b len : Nat) (v : Verdict) (data : List Byte) (secure : Bool) (found : CheckOutcome) (s : State), (s.stopped = false) ∧ (s.link.up = true) ∧ (s.sleep.pkg ≠ .deep) ∧ (s.rangeVerdict secure write a len = some (v, b)) ∧ (v ≠ .wait)) ∧
    (∃ (a : Nat) (data : List Byte) (found : CheckOutcome) (s : State), (s.stopped = false) ∧ (s.link.up = true) ∧ (s.sleep.pkg ≠ .deep) ∧ (a + data.length ≤ s.hbmEnd) ∧ (LinesOpen s false true false a data.length)) ∧
    (∃ (a len : Nat) (s : State), (s.stopped = false) ∧ (s.link.up = true) ∧ (s.sleep.pkg ≠ .deep) ∧ (a + len ≤ s.hbmEnd) ∧ (LinesOpen s false false false a len)) ∧
    (∃ (write : Bool) (x len b : Nat) (v : Verdict) (data : List Byte) (found : CheckOutcome) (s : State), (s.stopped = false) ∧ (s.link.up = true) ∧ (s.sleep.pkg ≠ .deep) ∧ (s.rangeVerdict false write ((x + 2 ^ 64 - s.link.hdmBase) % 2 ^ 64) len = some (v, b)) ∧ (v ≠ .wait)) ∧
    (∃ (write : Bool) (a b len : Nat) (data : List Byte) (secure : Bool) (found : CheckOutcome) (s : State), (s.stopped = false) ∧ (s.link.up = true) ∧ (((s.sleep.pkg ≠ .deep ∧ s.rangeVerdict secure write a len = some (.wait, b)) ∨ (s.sleep.pkg = .deep ∧ write = false)))) ∧
    (∃ (a : Nat) (data : List Byte) (secure : Bool) (found : CheckOutcome) (s : State), (s.stopped = false) ∧ (s.link.up = true) ∧ (s.sleep.pkg = .deep)) ∧
    (∃ (write : Bool) (x b len : Nat) (data : List Byte) (found : CheckOutcome) (s : State), (s.stopped = false) ∧ (s.link.up = true) ∧ ((s.sleep.pkg = .deep ∨ s.rangeVerdict false write ((x + 2 ^ 64 - s.link.hdmBase) % 2 ^ 64) len = some (.wait, b)))) :=
  ⟨⟨3, (wLinkT16.setHostBytes 192 [1,2]), by decide +kernel⟩,
   ⟨(.cq 3), 0, (wRw (.cq 3)), ({wLinkT16 with link.recWrites := [wRw (.cq 4), wRw (.cq 3)]}.setHostBytes 0x20000 [9,9,9,9]), by decide +kernel⟩,
   ⟨0, 5, (wLinkT16.setReg (Off.coherent 0) 0xE), by decide +kernel⟩,
   ⟨{ wLinkT16 with link := { wLinkT16.link with cohClearing := [5] } }, by decide +kernel⟩,
   ⟨0x1035, ((List.range 100).map (BitVec.ofNat 8)), false, .clean, wLinkT16, by decide +kernel⟩,
   ⟨0x1035, 100, false, wLinkT16, by decide +kernel⟩,
   ⟨0x1035, 100, false, {wLinkT16 with hbm.poison := [0x41]}, by decide +kernel⟩,
   ⟨false, 0x800000000, 0x800000000, 100, .memRange, [], false, .clean, wLinkT16, by decide +kernel⟩,
   ⟨0x1035, ((List.range 100).map (BitVec.ofNat 8)), .clean, {wLinkT16 with link.hdmBase := 0x4000000000}, by decide +kernel⟩,
   ⟨0x1035, 100, {wLinkT16 with link.hdmBase := 0x4000000000}, by decide +kernel⟩,
   ⟨false, 0x200030, 100, 0x200030, .world, [], .clean, wSecR, by decide +kernel⟩,
   ⟨false, 0x1035, 0x1035, 100, [], false, .clean, wProtB, by decide +kernel⟩,
   ⟨0x1035, [1,2,3], true, .clean, {wLinkT16 with sleep.pkg := .deep}, by decide +kernel⟩,
   ⟨true, 0x1035, 0x1035, 1, [7], .clean, wProtB, by decide +kernel⟩⟩

theorem witness_ParkSuspendsAndResumesTheWork :
    (∃ (v : Word) (s : State), (s.stopped = false) ∧ (s.sleep.pkg = .awake) ∧ (v.getLsbD 0 = true) ∧ (s.parkState = 0) ∧ (s.parkFits = true)) ∧
    (∃ (v : Word) (s : State), (s.stopped = false) ∧ (s.sleep.pkg = .awake) ∧ (v.getLsbD 0 = true) ∧ (s.parkState ≠ 0)) ∧
    (∃ (v : Word) (i : Nat) (q : Request) (s : State), (s.stopped = false) ∧ (s.sleep.pkg = .awake) ∧ (v.getLsbD 0 = true) ∧ (s.parkState = 0) ∧ (s.parkFits = false) ∧ (s.req? i = some q) ∧ (q.phase ≠ .finished)) ∧
    (∃ (v : Word) (s : State), (s.stopped = false) ∧ (s.sleep.pkg = .awake) ∧ (v.getLsbD 1 = true) ∧ (v.getLsbD 0 = false) ∧ (s.parkState ≠ 0) ∧ (s.reg (Off.park 4) = 4)) ∧
    (∃ (v : Word) (s : State), (s.stopped = false) ∧ (s.sleep.pkg = .awake) ∧ (v.getLsbD 1 = true) ∧ (v.getLsbD 0 = false) ∧ (s.reg (Off.park 4) ≠ 4)) ∧
    (∃ s : State, (s.stopped = false) ∧ (s.parkState = 1) ∧ (s.quiet = true) ∧ (s.parkFits = false)) ∧
    (∃ s : State, (s.stopped = false) ∧ (s.parkState = 1) ∧ (s.quiet = true) ∧ (s.parkFits = true) ∧ (s.hbm.poison = []) ∧ (s.hbm.flips = []) ∧ (s.areaBase 5 + s.areaSize 5 ≤ 0x00C000000000) ∧ ((∀ e ∈ s.tiles, e.1 < 1024)) ∧ ((∀ e ∈ s.th, e.1 < 16))) ∧
    (∃ s : State, (s.parkState ≠ 1 ∨ s.quiet = false)) ∧
    (∃ (i : Nat) (q : Request) (s : State), (s.stopped = false) ∧ (s.parkState = 1) ∧ (s.park.since + 20001000 ≤ s.now) ∧ (s.req? i = some q) ∧ (q.phase ≠ .finished)) ∧
    (∃ s : State, (s.stopped = false) ∧ (2 ≤ s.parkState) ∧ (s.halted = false) ∧ (s.causesOver = true) ∧ (s.activePass = none) ∧ ((∀ n ∈ s.park.records, n < 1024 ∧ s.tileRecord n + spSize ≤ 0x00C000000000 ∧ s.noFlips (s.tileRecord n) spSize = true ∧ s.poisonIn (s.tileRecord n) spSize = none))) ∧
    (∃ (n : Nat) (s : State), (s.stopped = false) ∧ (2 ≤ s.parkState) ∧ (s.halted = false) ∧ (s.causesOver = true) ∧ (s.activePass = none) ∧ (s.park.records = [n]) ∧ (n < 1024) ∧ (s.tileRecord n + spSize ≤ 0x00C000000000) ∧ (s.noFlips (s.tileRecord n) spSize = true) ∧ ((s.poisonIn (s.tileRecord n) spSize).isSome = true) ∧ (s.tileRecord n % 64 = 0)) ∧
    (∃ (n : Nat) (p : PassInfo) (x : Section) (s : State), (s.stopped = false) ∧ (2 ≤ s.parkState) ∧ (s.halted = false) ∧ (s.causesOver = true) ∧ (s.activePass = some p) ∧ (s.arrayPass = some p) ∧ (p.tileUse.Nodup) ∧ ((∀ k ∈ p.tileUse, k < 1024)) ∧ (n ∈ p.tileUse) ∧ (s.stuck = []) ∧ (s.hbm.poison = []) ∧ (s.hbm.flips = []) ∧ ((∀ k ∈ s.park.records, k < 1024)) ∧ (s.weightSection p n = some x) ∧ (x.length ≤ 0x100000) ∧ (x.host = false) ∧ (p.base + x.offset + x.length ≤ 0x00C000000000)) :=
  ⟨⟨1, wParkS, by decide +kernel⟩,
   ⟨1, ((wParkS.setReg (Off.park 0) 2).setReg (Off.park 4) 1), by decide +kernel⟩,
   ⟨1, 9, (wReq Dop.copy), (wHbm.setReq 9 (wReq Dop.copy)), by decide +kernel⟩,
   ⟨2, ((wParkS.setReg (Off.park 0) 2).setReg (Off.park 4) 4), by decide +kernel⟩,
   ⟨2, ((wParkS.setReg (Off.park 0) 2).setReg (Off.park 4) 5), by decide +kernel⟩,
   ⟨((wHbm.setReg (Off.park 0) 1).setReq 9 (wReq Dop.copy)), by decide +kernel⟩,
   ⟨wParkS.setReg (Off.park 0) 1, by decide +kernel⟩,
   ⟨wParkS, by decide +kernel⟩,
   ⟨9, {wReq Dop.run with phase := .running}, wStuckT17, by decide +kernel⟩,
   ⟨((wParkS.setReg (Off.park 0) 3 |>.setReg (Off.rdy 4) 0).setReq 9 (wReq Dop.copy)), by decide +kernel⟩,
   ⟨5, wParkP, by decide +kernel⟩,
   ⟨5, { stagingInfo 4 0x1000000 0x1040 false with tileUse := [5], sections := [{typ := 1, sflags := 0, tile := 5, index := 0, offset := 0x100, length := 70, digest := []}] }, {typ := 1, sflags := 0, tile := 5, index := 0, offset := 0x100, length := 70, digest := []}, wParkW, by decide +kernel⟩⟩

theorem witness_TheGovernorKeepsTheLimitAndTheEnergyBalance :
    (∃ (tr top dyn leak share k n : Nat) (c : Nat × Nat) (s : State), (s.chooseOp tr top dyn leak share = some c) ∧ (k < 8) ∧ ((k ≤ top ∨ ∀ j, j < k → s.opAvail tr j = false)) ∧ (s.opAvail tr k = true) ∧ (1 ≤ n) ∧ (n ≤ 16) ∧ (s.predict tr dyn leak k n ≤ share * predictUnit) ∧ (s.predict tr dyn leak c.1 c.2 ≤ share * predictUnit ∧ s.opAvail tr c.1 = true ∧ c.1 ≤ max top k ∧ 1 ≤ c.2 ∧ c.2 ≤ 16 ∧ opMhz k * n ≤ opMhz c.1 * c.2 ∧ (opMhz k * n = opMhz c.1 * c.2 → c.1 ≤ k))) ∧
    (∃ (g : GovInput) (s : State), (s.stopped = false) ∧ (g.slackLowA = false) ∧ (g.slackLowB = false) ∧ (s.power.vrForced = false)) ∧
    (∃ (g : GovInput) (s : State), (s.stopped = false) ∧ (g.slackLowA = false) ∧ (g.slackLowB = false) ∧ (s.power.vrForced = true)) ∧
    (∃ (g : GovInput) (s : State), s.stopped = false) ∧
    (∃ (tr : Nat) (s : State), (s.stopped = false) ∧ (tr < 2) ∧ (s.regBits (Off.pwr 0x24) (16 * tr) 10 ≠ 0) ∧ (s.park.railsIdle = false) ∧ ((s.want tr).1 < 8) ∧ (1 ≤ (s.want tr).2) ∧ ((s.want tr).2 ≤ 16)) ∧
    (∃ (v : Word) (s : State), (s.stopped = false) ∧ (s.sleep.pkg = .awake)) ∧
    (∃ (b : Nat) (s : State), (s.stopped = false) ∧ (s.power.overSince = some b) ∧ (b + 10000000 ≤ s.now)) ∧
    (∃ s : State, (s.stopped = false) ∧ (s.msReady = true) ∧ ((s.power.vrForced = false ∨ s.power.vrHold ≠ none))) ∧
    (∃ s : State, (s.stopped = false) ∧ (s.pins.vrLow = true)) ∧
    (∃ (b : Nat) (s : State), (s.stopped = false) ∧ (s.power.vrHold = some b) ∧ (b + 1000000 ≤ s.now) ∧ (s.pins.vrLow = false)) ∧
    (∃ s : State, (s.stopped = false) ∧ (s.pins.vrLow = true) ∧ (s.power.vrForced = true) ∧ (s.pins.vrSince + 100000000 ≤ s.now) ∧ (s.parkCause Cause.vr = false) ∧ (s.errs.queue.any (fun e => decide (e.reason = .vrPark) && !e.handled) = false)) :=
  ⟨⟨0, 7, 650000, 75000, 350000, 3, 16, (4,14), wPwr, by decide +kernel⟩,
   ⟨wGov, wPwr, by decide +kernel⟩,
   ⟨wGov, {wPwr with power.vrForced := true, power.floor := true}, by decide +kernel⟩,
   ⟨wGov, wPwr, by decide +kernel⟩,
   ⟨0, ({wPwr with power.wantA := (6,16), power.railA := 700}.setReg (Off.pwr 0x24) 770 |>.setReg (Off.pwr 8) (4+15*8)), by decide +kernel⟩,
   ⟨300, wPwr, by decide +kernel⟩,
   ⟨5, {wPwr with power.overSince := some 5}, by decide +kernel⟩,
   ⟨(wPwr.setReg (Off.rdy 4) 1), by decide +kernel⟩,
   ⟨{wPwr with pins.vrLow := true, power.vrForced := true}, by decide +kernel⟩,
   ⟨5, {wPwr with power.vrForced := true, power.vrHold := some 5}, by decide +kernel⟩,
   ⟨{wPwr with power.vrForced := true, pins.vrLow := true}, by decide +kernel⟩⟩

theorem witness_TemperatureTelemetryAndAssignmentsAreFollowed :
    (∃ (l : List Reading) (s : State), (s.stopped = false) ∧ (l ≠ [])) ∧
    (∃ s : State, (s.stopped = false) ∧ (s.power.therm = .hardLimit) ∧ (s.power.floor = true) ∧ (s.power.hardSince + 100000000 ≤ s.now)) ∧
    (∃ s : State, s.stopped = false) ∧
    (∃ s : State, (s.stopped = false) ∧ (s.power.eModel ≠ 0) ∧ (s.power.reconSince + 100000000 ≤ s.now)) ∧
    (∃ (b : Nat) (s : State), (s.stopped = false) ∧ (s.regBit (Off.pwr 8) 14 = false) ∧ (s.regBit (Off.pwr 8) 15 = false) ∧ (s.power.apartSince = some b) ∧ (b + 5000000 ≤ s.now)) ∧
    (∃ (b : Nat) (s : State), (s.stopped = false) ∧ (s.power.agreeSince = some b) ∧ (b + 5000000 ≤ s.now)) ∧
    (∃ (g : GovInput) (s : State), s.stopped = false) ∧
    (∃ (b : Nat) (s : State), (s.stopped = false) ∧ (s.power.refitDue = true) ∧ (s.reqs = []) ∧ (s.power.reqIdle = some b) ∧ (b + 1000000 ≤ s.now)) ∧
    (∃ (k p n : Nat) (s : State), (s.stopped = false) ∧ (s.sleep.pkg = .awake) ∧ (k < 10)) ∧
    (∃ (k : Nat) (s : State), (s.stopped = false) ∧ (k < 2) ∧ (s.railStale k = true)) ∧
    (∃ (l : List (Nat × Nat × Bool)) (s : State), (s.stopped = false) ∧ (s.isManager = true) ∧ (s.regBits (Off.pwr 0x20) 0 22 ≠ 0)) ∧
    (∃ (w : Nat) (s : State), (s.stopped = false) ∧ (s.mapped = true)) ∧
    (∃ s : State, (s.stopped = false) ∧ (s.power.lastAssign + 100000000 ≤ s.now)) :=
  ⟨⟨(wHot 96), wPwr, by decide +kernel⟩,
   ⟨{wPwr with power.therm := .hardLimit, power.floor := true}, by decide +kernel⟩,
   ⟨wPwr, by decide +kernel⟩,
   ⟨{wPwr with power := {wPwr.power with eModel := 100, eMeas := 110}}, by decide +kernel⟩,
   ⟨5, {wPwr with power := {wPwr.power with apartSince := some 5}}, by decide +kernel⟩,
   ⟨5, ({wPwr with power := {wPwr.power with agreeSince := some 5}}.setReg (Off.pwr 8) (2^14+5)), by decide +kernel⟩,
   ⟨wGov, wPwr, by decide +kernel⟩,
   ⟨5, {wPwr with reqs := [], power := {wPwr.power with refitDue := true, reqIdle := some 5}}, by decide +kernel⟩,
   ⟨1, 300, 5, ({wPwr with power.telemTime := [(0, 890000001)]}.setReg (Off.pwr 8) (2^15)), by decide +kernel⟩,
   ⟨1, wPwr, by decide +kernel⟩,
   ⟨[(0,700,false),(5,1000,true),(6,500,true)], wMg, by decide +kernel⟩,
   ⟨5000, (wPwr.setReg (Off.ix 4) (2^12)), by decide +kernel⟩,
   ⟨(wPwr.setReg (Off.pwr 0x1C) (2^12+500)), by decide +kernel⟩⟩

theorem witness_BringUpResetsAndSecureBootFollowTheirTables :
    (∃ (k i c : Nat) (s : State), (s.stopped = false) ∧ ((Instr.unitReady k i c).wf = true) ∧ ((readyPlace k i).isSome = true) ∧ ((k = 2 ∨ k = 5 → i < 16)) ∧ ((k = 3 → i < 4)) ∧ (s.readyAllowed k i c = true) ∧ (s.readyCode k i ≠ c)) ∧
    (∃ (tr b : Nat) (failed bad : List Nat) (trim points : Nat) (s : State), (s.stopped = false) ∧ (tr < 2) ∧ (s.readyCode 0 (4 + tr) = 1) ∧ (b = s.batchesDone tr) ∧ (s.mapped_ tr < s.quota) ∧ (64 * b < 544) ∧ (s.testTurn tr = true) ∧ (s.fullDutyBarred [tr] = none) ∧ (s.opNow tr = (7, 16))) ∧
    (∃ (tr b : Nat) (failed bad : List Nat) (trim points : Nat) (s : State), (s.stopped = false) ∧ (tr < 2) ∧ (s.readyCode 0 (4 + tr) = 1) ∧ (b = s.batchesDone tr) ∧ (s.mapped_ tr < s.quota) ∧ (64 * b < 544) ∧ (s.testTurn tr = true) ∧ (s.fullDutyBarred [tr] = none) ∧ ((s.opNow tr).1 < 7) ∧ (s.sure tr < s.opReq tr 7)) ∧
    (∃ (tr b : Nat) (failed bad : List Nat) (trim points : Nat) (s : State), (s.stopped = false) ∧ (tr < 2) ∧ ((s.readyCode 0 (4 + tr) ≠ 1 ∨ b ≠ s.batchesDone tr ∨ s.quota ≤ s.mapped_ tr ∨ s.testTurn tr = false ∨ (s.fullDutyBarred [tr]).isSome = true))) ∧
    (∃ s : State, (s.stopped = false) ∧ (s.regBit (Off.rdy 0) 2 = false) ∧ ((readyUnits.filter (fun u => decide (u.1 ≠ 1) && decide (u.1 ≠ 5))).all (fun u => decide (s.readyCode u.1 u.2 ≠ 0)) = true) ∧ (s.treadDone 0 = true) ∧ (s.treadDone 1 = true) ∧ ((∀ p, p < 16 → s.ixState p ≠ 1 ∧ s.ixState p ≠ 2))) ∧
    (∃ (rail : Nat) (s : State), (s.stopped = false) ∧ (rail < 10) ∧ (s.msReady = true) ∧ (s.railJudged rail = true)) ∧
    (∃ (rail : Nat) (s : State), (s.stopped = false) ∧ ((s.msReady = false ∨ s.railJudged rail = false))) ∧
    (∃ (role boot : Nat) (clk held good : Bool) (s : State), s.pins.porstLow = true) ∧
    (∃ s : State, (s.stopped = false) ∧ (s.pins.warmLow = false)) ∧
    (∃ s : State, (s.stopped = false) ∧ (s.pins.warmLow = true)) ∧
    (∃ (bad : List Nat) (s : State), (s.stopped = false) ∧ (s.pins.warmLow = false) ∧ (s.sec.stage = .beforeBoot) ∧ (s.msReady = true)) ∧
    (∃ (bad : List Nat) (s : State), (s.stopped = false) ∧ (s.pins.warmLow = false) ∧ (s.sec.stage = .recovery) ∧ (s.sec.recoverImage ≠ [])) ∧
    (∃ (o : List Byte) (s : State), (s.stopped = false) ∧ (s.sleep.pkg = .awake) ∧ (s.link.up = true)) :=
  ⟨⟨2, 7, 1, (wRun.setReady 3 1 1), by decide +kernel⟩,
   ⟨1, 0, [3, 17], [32], 5, 4, wTread, by decide +kernel⟩,
   ⟨1, 0, [3, 17], [32], 5, 4, {wTread.setReg (Off.pwr 8) 0 with power.sureB := 700}, by decide +kernel⟩,
   ⟨1, 0, [3, 17], [32], 5, 4, {wTread with passes.batchesDone := []}, by decide +kernel⟩,
   ⟨wSettle, by decide +kernel⟩,
   ⟨4, wMs, by decide +kernel⟩,
   ⟨1, {wMs.setReg (Off.pwr 0x24) (770*2^16) with power.railB := 700}, by decide +kernel⟩,
   ⟨1, 2, true, false, true, State.reset, by decide +kernel⟩,
   ⟨({wHbm with hbm.poison := [3], reqs := [(1, wReq 3)], tiles := [(5, {Tile.empty with sleep := .doze})]}), by decide +kernel⟩,
   ⟨{wRun with pins.warmLow := true}, by decide +kernel⟩,
   ⟨[3,5], wPre, by decide +kernel⟩,
   ⟨[], {wPre with sec.stage := .recovery, sec.recoverImage := [1,2,3]}, by decide +kernel⟩,
   ⟨[1,2], {wRing with sec.treeReady := true}, by decide +kernel⟩⟩

theorem witness_MailboxCommandsRunOneAtATimeAndAnswer :
    (∃ (w : Nat) (arg : Word) (secure f : Bool) (x : Nat × Instr) (s : State), (s.stopped = false) ∧ (s.sleep.pkg = .awake) ∧ ((w = 0 ∨ w = 1 ∧ secure = true)) ∧ (s.regBit (Off.mb w 0x10) 0 = true) ∧ (x ∈ mbCommands w arg secure f) ∧ (arg.toNat % 256 = x.1)) ∧
    (∃ (w : Nat) (arg : Word) (secure f : Bool) (x : Nat × Instr) (s : State), (s.stopped = false) ∧ (s.sleep.pkg = .awake) ∧ ((w = 0 ∨ w = 1 ∧ secure = true)) ∧ (s.regBit (Off.mb w 0x10) 0 = false) ∧ (x ∈ mbCommands w arg secure f) ∧ (arg.toNat % 256 = x.1) ∧ ((s.mbForm w x.1 arg && s.mbAllowed w x.1) = false)) ∧
    (∃ (arg : Word) (f : Bool) (x : Nat × Instr) (s : State), (s.stopped = false) ∧ (s.sleep.pkg = .awake) ∧ (x ∈ mbCommands 1 arg false f) ∧ (arg.toNat % 256 = x.1)) ∧
    (∃ (w : Nat) (arg : Word) (secure : Bool) (s : State), (s.takesMb w Mb.getReport arg secure = true) ∧ (s.sec.signQueue = [])) ∧
    (∃ (w : Nat) (arg : Word) (secure : Bool) (s : State), s.takesMb w Mb.getCert arg secure = true) ∧
    (∃ (arg : Word) (s : State), s.takesMb 1 Mb.recover arg true = true) ∧
    (∃ (arg : Word) (ok : Bool) (s : State), s.takesMb 1 Mb.update arg true = true) ∧
    (∃ (arg : Word) (ok : Bool) (s : State), s.takesMb 1 Mb.setupWrite arg true = true) ∧
    (∃ (arg : Word) (s : State), s.takesMb 1 Mb.transfer arg true = true) ∧
    (∃ (w : Nat) (arg : Word) (secure : Bool) (s : State), s.takesMb w Mb.logRead arg secure = true) ∧
    (∃ (arg : Word) (s : State), s.takesMb 1 Mb.repairList arg true = true) ∧
    (∃ (arg : Word) (s : State), (s.takesMb 1 Mb.repairCommit arg true = true) ∧ (s.fullDuty = true)) ∧
    (∃ (arg : Word) (ok : Bool) (s : State), (s.takesMb 1 Mb.repairCommit arg true = true) ∧ ((ok && s.fullDuty) = false)) ∧
    (∃ (arg : Word) (s : State), (s.takesMb 1 Mb.retire arg true = true) ∧ (s.fullDuty = true)) ∧
    (∃ (arg : Word) (ok : Bool) (s : State), (s.takesMb 1 Mb.retire arg true = true) ∧ ((ok && s.fullDuty) = false)) ∧
    (∃ (w : Nat) (arg : Word) (secure f : Bool) (x : Nat × Instr) (s : State), (s.mbHostBad w arg = true) ∧ (x ∈ mbCommands w arg secure f) ∧ (s.asksMb w x.1 arg secure = true)) ∧
    (∃ (w : Nat) (m : Mailbox) (s : State), (s.stopped = false) ∧ (w < 2) ∧ (s.sec.mbox.find? (fun x => decide (x.world = w)) = some m) ∧ (s.sec.signQueue.contains (2 + w) = false) ∧ (s.link.up = true) ∧ ((m.command ≠ Mb.transfer ∨ m.result ≠ 0)) ∧ (s.hostStop (ptrAddr m.arg) m.response.length = none)) ∧
    (∃ (w b : Nat) (m : Mailbox) (s : State), (s.stopped = false) ∧ (w < 2) ∧ (s.sec.mbox.find? (fun x => decide (x.world = w)) = some m) ∧ (s.sec.signQueue.contains (2 + w) = false) ∧ (s.link.up = true) ∧ ((m.command ≠ Mb.transfer ∨ m.result ≠ 0)) ∧ (s.hostStop (ptrAddr m.arg) m.response.length = some b)) ∧
    (∃ (m : Mailbox) (s : State), (s.stopped = false) ∧ (s.sec.mbox.find? (fun x => decide (x.world = 1)) = some m) ∧ (s.sec.signQueue.contains 3 = false) ∧ (s.link.up = true) ∧ (m.command = Mb.transfer) ∧ (m.result = 0)) :=
  ⟨⟨1, 0x12, true, false, (Mb.retire, .retire 1 0x12 true false), (wMb.setReg (Off.mb 1 0x10) 1), by decide +kernel⟩,
   ⟨0, 0x1001, false, true, (Mb.getReport, .getReport 0 0x1001 false), wMb, by decide +kernel⟩,
   ⟨0x112, true, (Mb.retire, .retire 1 0x112 false true), wMb, by decide +kernel⟩,
   ⟨0, 0x2001, false, wMb, by decide +kernel⟩,
   ⟨0, 2, false, wMb, by decide +kernel⟩,
   ⟨0x200003, {wMb with sec.stage := .recovery}, by decide +kernel⟩,
   ⟨0x200004, true, wMb, by decide +kernel⟩,
   ⟨0x100005, true, wMb, by decide +kernel⟩,
   ⟨0x2006, wMb, by decide +kernel⟩,
   ⟨0, 7, false, {wMb with errs.onDieNs := [ErrRec.of .supply]}, by decide +kernel⟩,
   ⟨0x10, wMb, by decide +kernel⟩,
   ⟨0x11, wMb, by decide +kernel⟩,
   ⟨0x11, true, (wMb.setReg (Off.pwr 8) 0), by decide +kernel⟩,
   ⟨0x112, wMb, by decide +kernel⟩,
   ⟨0x112, false, wMb, by decide +kernel⟩,
   ⟨1, 0x4112, true, true, (Mb.retire, .retire 1 0x4112 true true), wHostB, by decide +kernel⟩,
   ⟨1, {world := 1, command := 7, arg := 2^62 + 0x30000, result := 0, response := [1,2,3]}, wAnsT20, by decide +kernel⟩,
   ⟨1, 0x30000, {world := 1, command := 7, arg := 2^62 + 0x30000, result := 0, response := [1,2,3]}, {wAnsT20 with hostBad := [0xC00]}, by decide +kernel⟩,
   ⟨{world := 1, command := 6, arg := 0, result := 0, response := []}, {wAnsT20 with sec.mbox := [{world := 1, command := 6, arg := 0, result := 0, response := []}]}, by decide +kernel⟩⟩

theorem witness_RegionsAndWorldsChangeWithoutLeavingSecureBytes :
    (∃ (n : Nat) (v : DWord) (s : State), (s.stopped = false) ∧ (s.sleep.pkg = .awake) ∧ (n < 1024) ∧ (s.sec.change.any (fun c => decide (c.n = n)) = false) ∧ (s.regionRefused n v.toNat = false)) ∧
    (∃ (n : Nat) (v : DWord) (s : State), (s.stopped = false) ∧ (s.sleep.pkg = .awake) ∧ (n < 1024) ∧ ((s.sec.change.any (fun c => decide (c.n = n)) || s.regionRefused n v.toNat) = true)) ∧
    (∃ (c : RegionChange) (l : List RegionChange) (s : State), (s.stopped = false) ∧ (s.sec.change = c :: l) ∧ (s.link.waiting = []) ∧ (s.ix.held = []) ∧ (s.mesh.accesses = [])) ∧
    (∃ (c : RegionChange) (l : List RegionChange) (s u : State), s.stopped = false ∧ s.sec.change = c :: l ∧
      exec .regionChangeDone { s with link := { s.link with waiting := [] }, ix := { s.ix with held := [] }, mesh := { s.mesh with accesses := [] } } = .next u) ∧
    (∃ (k i : Nat) (v : Word) (s : State), (s.stopped = false) ∧ (s.sleep.pkg = .awake) ∧ (i < (worldWord k).2)) ∧
    (∃ (b : Nat) (w : Bool) (s : State), (s.stopped = false) ∧ (b < 1312) ∧ (s.sec.wantMap.find? (fun e => decide (e.1 = b)) = some (b, w)) ∧ (s.blockIdle b = true)) :=
  ⟨⟨3, (BitVec.ofNat 64 (rgv2 16 2 (2^46))), {wHbm with hbm.usableFixed := true}, by decide +kernel⟩,
   ⟨3, (BitVec.ofNat 64 (2^60)), wHbm, by decide +kernel⟩,
   ⟨{n := 3, old := BitVec.ofNat 64 (rgv2 16 2 (2^46)), new := BitVec.ofNat 64 (rgv2 17 1 (2^46))}, [], wChg2, by decide +kernel⟩,
   ⟨{n := 3, old := BitVec.ofNat 64 (rgv2 16 2 (2^46)), new := BitVec.ofNat 64 (rgv2 17 1 (2^46))}, [], wChg2, _, by decide +kernel, rfl, rfl⟩,
   ⟨0, 5, 0x20, wHbm, by decide +kernel⟩,
   ⟨7, true, wWant, by decide +kernel⟩⟩

theorem witness_SoftwareFaultsAreFiledAndRetireNothing :
    (∃ (v : Word) (secure : Bool) (s : State), (s.stopped = false) ∧ (s.sleep.pkg = .awake)) :=
  ⟨0xABCD, true, wHbm, by decide +kernel⟩

theorem witness_ErrorsAreHandledAndUnitsTestedAndMoved :
    (∃ (e : ErrRec) (s : State), (s.stopped = false) ∧ (s.nextError = some e) ∧ (e.reason.cls < 2) ∧ (e ∉ s.errs.overflow)) ∧
    (∃ (e : ErrRec) (s : State), (s.stopped = false) ∧ (s.nextError = some e) ∧ (((e.reason = .macroRetired ∧ s.regBit (Off.err 0) 0 = false) ∨ (e.reason = .tileRetired ∧ (s.tile e.index).retired = true)))) ∧
    (∃ (e : ErrRec) (s : State), (s.stopped = false) ∧ (s.nextError = some e) ∧ (e.reason.cls = 3) ∧ (s.parkState = 0) ∧ (s.halted = false)) ∧
    (∃ (e : ErrRec) (s : State), (s.stopped = false) ∧ (s.nextError = some e) ∧ (e.reason.cls = 3) ∧ (s.halted = true) ∧ (e ∉ s.errs.overflow)) ∧
    (∃ (k i : Nat) (forced : Bool) (s : State), (s.stopped = false) ∧ ((k = 1 ∨ k = 2 ∨ k = 3)) ∧ (s.unitGone k i = false) ∧ (s.isTested k i = false) ∧ (s.parkState = 0) ∧ (s.sleep.pkg = .awake) ∧ (s.gapOf k i forced = true) ∧ (((s.regBit (Off.err 4) 0 && s.testDue k i) || (!forced && s.testAsks k i)) = true)) ∧
    (∃ (k i : Nat) (b : Bool) (s : State), (s.stopped = false) ∧ ((k = 1 ∨ k = 2 ∨ k = 3)) ∧ (s.errs.underTest.find? (fun x => decide (x.1 = k) && decide (x.2.1 = i)) = some (k, i, b))) ∧
    (∃ (k i : Nat) (s : State), (s.stopped = false) ∧ ((k = 1 ∨ k = 2 ∨ k = 3)) ∧ (s.errs.underTest.find? (fun x => decide (x.1 = k) && decide (x.2.1 = i)) = some (k, i, false))) ∧
    (∃ (k i : Nat) (s : State), (s.stopped = false) ∧ ((k = 1 ∨ k = 2 ∨ k = 3)) ∧ (s.errs.underTest.find? (fun x => decide (x.1 = k) && decide (x.2.1 = i)) = some (k, i, true))) ∧
    (∃ (n p : Nat) (checks : List Bool) (bad : List Nat) (s : State), (s.stopped = false) ∧ (s.unbacked n = false) ∧ ((s.tile n).retired = true) ∧ ((s.tile n).moveDue = true) ∧ (s.atSeam n = true) ∧ (s.parkState = 0) ∧ (pickSpare (fun m => decide (s.phys (n / 512) m = .untested)) (s.spares (n / 512)) checks = some (bad, some p))) ∧
    (∃ (n : Nat) (checks : List Bool) (bad : List Nat) (s : State), (s.stopped = false) ∧ (s.unbacked n = false) ∧ ((s.tile n).retired = true) ∧ ((s.tile n).moveDue = true) ∧ (s.atSeam n = true) ∧ (s.parkState = 0) ∧ (n < 1024) ∧ (pickSpare (fun m => decide (s.phys (n / 512) m = .untested)) (s.spares (n / 512)) checks = some (bad, none))) ∧
    (∃ (n : Nat) (checks : List Bool) (s : State), (s.stopped = false) ∧ (((s.tile n).retired && (s.tile n).moveDue) = false)) ∧
    (∃ (i ptr : Nat) (u : Nat × Nat) (r : UnitResult) (window : Option Nat) (q : Request) (s : State), (s.stopped = false) ∧ (s.req? i = some q) ∧ (q.opcode = Dop.test) ∧ ((s.mayStart q || s.goesOn q) = true) ∧ (q.mileposts = false) ∧ (s.regWrites = []) ∧ ((q.phase = .accepted → (q.fld 8 1 = 0 ∨ q.fld 8 1 = 3) → q.fld 0xC 4 ≠ 0xFFFFFFFF → s.absentUnit (1, q.fld 0xC 4) = false)) ∧ (((q.fld 8 1 = 3 ∨ q.fld 8 1 = 5) → s.windowRail i q window = none ∧ (∀ tr ∈ q.maintTreads, s.opNow tr = (7, 16)) ∧ (∀ x ∈ q.lost, s.now ≤ x.1 + 10000000))) ∧ ((q.units.drop q.pos).head? = some u) ∧ (r.index = u.2) ∧ (r.result ≠ 3) ∧ ((q.fld 8 1 = 3 → s.inActiveUse u.2 = false ∨ s.atSeam u.2 = true)) ∧ ((q.fld 8 1 ≤ 2 → (s.resultOf q u r).result ≠ 4 → (s.gapOf u.1 u.2 false || s.gapOf u.1 u.2 true) = true)) ∧ (q.fld 0x10 8 = ptr) ∧ ((ptr = 0 ∨ LinesOpen s q.secure true false (ptr + 32 * q.pos) 32))) ∧
    (∃ (i rail : Nat) (l : List UnitResult) (window : Option Nat) (q : Request) (s : State), (s.stopped = false) ∧ (s.regWrites = []) ∧ (s.req? i = some q) ∧ (q.opcode = Dop.test) ∧ (s.mayStart q = true) ∧ ((q.fld 8 1 = 3 ∨ q.fld 8 1 = 5)) ∧ ((q.fld 8 1 = 3 → q.fld 0xC 4 ≠ 0xFFFFFFFF → s.absentUnit (1, q.fld 0xC 4) = false)) ∧ (s.windowRail i q window = some rail)) ∧
    (∃ (i rail : Nat) (l : List UnitResult) (window : Option Nat) (q : Request) (s : State), (s.stopped = false) ∧ (s.regWrites = []) ∧ (s.req? i = some q) ∧ (q.opcode = Dop.test) ∧ (s.goesOn q = true) ∧ ((q.fld 8 1 = 3 ∨ q.fld 8 1 = 5)) ∧ (s.windowRail i q window = some rail) ∧ (q.pos < q.total)) ∧
    (∃ (i : Nat) (l : List UnitResult) (window : Option Nat) (q : Request) (s : State), (s.stopped = false) ∧ (s.regWrites = []) ∧ (s.req? i = some q) ∧ (q.opcode = Dop.test) ∧ ((s.mayStart q || s.goesOn q) = true) ∧ ((q.fld 8 1 = 3 ∨ q.fld 8 1 = 5)) ∧ ((q.phase = .accepted → q.fld 8 1 = 3 → q.fld 0xC 4 ≠ 0xFFFFFFFF → s.absentUnit (1, q.fld 0xC 4) = false)) ∧ (s.windowRail i q window = none) ∧ ((∀ x ∈ q.lost, s.now ≤ x.1 + 10000000)) ∧ (q.pos < q.total) ∧ ((∃ tr ∈ q.maintTreads, (s.opNow tr).1 < 7 ∧ s.sure tr < s.opReq tr 7))) ∧
    (∃ (i : Nat) (l : List UnitResult) (window : Option Nat) (q : Request) (s : State), (s.stopped = false) ∧ (s.regWrites = []) ∧ (s.req? i = some q) ∧ (q.opcode = Dop.test) ∧ (s.mayStart q = true) ∧ ((q.fld 8 1 = 0 ∨ q.fld 8 1 = 3)) ∧ (q.fld 0xC 4 ≠ 0xFFFFFFFF) ∧ (s.absentUnit (1, q.fld 0xC 4) = true)) ∧
    (∃ (i n k ptr b rail : Nat) (q : Request) (s : State), (s.stopped = false) ∧ (s.req? i = some q) ∧ (q.opcode = Dop.test) ∧ (s.goesOn q = true) ∧ (s.regWrites = []) ∧ ((q.fld 8 1 = 3 ∨ q.fld 8 1 = 5)) ∧ (s.skipsUnit q (k, n) = false) ∧ (q.lost = some (b, rail)) ∧ (b + 10000000 ≤ s.now) ∧ ((q.units.drop q.pos).head? = some (k, n)) ∧ ((q.fld 8 1 = 3 → s.inActiveUse n = false ∨ s.atSeam n = true)) ∧ (q.fld 0x10 8 = ptr) ∧ ((ptr = 0 ∨ LinesOpen s q.secure true false (ptr + 32 * q.pos) 32))) :=
  ⟨⟨(ErrRec.of .seam), {wErr (ErrRec.of .seam) with errs.queue := [ErrRec.of .macCorrected, ErrRec.of .seam]}, by decide +kernel⟩,
   ⟨(ErrRec.of .macroRetired), (wErr (ErrRec.of .macroRetired)), by decide +kernel⟩,
   ⟨(ErrRec.of .vrPark), (wErr (ErrRec.of .vrPark)), by decide +kernel⟩,
   ⟨(ErrRec.of .supply), ((wErr (ErrRec.of .supply)).setReg (Off.park 0) 6), by decide +kernel⟩,
   ⟨1, 5, false, wLb, by decide +kernel⟩,
   ⟨1, 5, false, {wLb.updTile 5 (fun t => {t with slices := 7, testing := true}) with errs.underTest := [(1,5,false)]}, by decide +kernel⟩,
   ⟨2, 5, {wLb with errs.underTest := [(2,5,false)]}, by decide +kernel⟩,
   ⟨1, 5, {wLb with errs.underTest := [(1,5,true)]}, by decide +kernel⟩,
   ⟨5, 1, [false, true], [0], wRet, by decide +kernel⟩,
   ⟨5, List.replicate 543 false, wRet.spares 0, wRet, by decide +kernel⟩,
   ⟨5, [true], (wRet.updTile 5 (fun t => {t with moveDue := false})), by decide +kernel⟩,
   ⟨0, 0x2000, (1,5), {index := 5, result := 0, repairs := 0, signature := 77, slice := 2, rows := []}, none, (wTest 0 5), ((wTst 0 5).updTile 5 (fun t => {t with sleep := .doze})), by decide +kernel⟩,
   ⟨0, 4, [], (some 4), (wTest 3 5), (wTst 3 5), by decide +kernel⟩,
   ⟨0, 4, [], (some 4), ({wTest 3 5 with phase := .running}), {wTst 3 5 with reqs := [(0, {wTest 3 5 with phase := .running})]}, by decide +kernel⟩,
   ⟨0, [], none, (wTest 3 5), ({(wTst 3 5).setReg (Off.pwr 8) 0 with power.sureA := 700, power.sureB := 700}), by decide +kernel⟩,
   ⟨0, [], none, (wTest 3 480), {wTst 3 480 with fuses.gradeB := true}, by decide +kernel⟩,
   ⟨0, 5, 1, 0x2000, 7, 4, ({wTest 3 5 with phase := .running, lost := some (7,4)}), {wTst 3 5 with clock.ns := 10000007, reqs := [(0, {wTest 3 5 with phase := .running, lost := some (7,4)})]}, by decide +kernel⟩⟩

theorem witness_EveryStepKeepsWhatIsFused :
    (∃ s t : State, s.fuses.inBounds = true ∧ StepsTo s t) :=
  ⟨wBooted, wBooted.tickClock, by decide +kernel, rfl⟩

theorem witness_ResetHoldsTheDeviceAtItsResetValues :
    (∃ (c : Instr) (s : State), s.stopped = true ∧ c.ofPins = false) :=
  ⟨.linkDown, State.reset, by decide +kernel⟩

end Sys2Proof.Tests
end

section
/-! What the answers of the commands keep: the queue's rest, and no register write of a mover left over (R8, R482). -/

namespace Sys2Proof.Machine

/-- The command goes on from `s`, with the queue as it was and no register write of a mover left over. -/
def KeepsQueue (s : State) (o : Host.Outcome State Fault Refusal) : Prop :=
  ∃ t, o = .next t ∧ t.pending = s.pending ∧ (s.regWrites = [] → t.regWrites = [])

theorem keepsQueue_answer (s t : State) : KeepsQueue s (answer s t) := by
  cases h : s.stopped with
  | true => exact ⟨s, answer_stopped s t h, rfl, id⟩
  | false => exact ⟨_, answer_running s t h, rfl, id⟩

theorem keepsQueue_answerBurning (s t : State) : KeepsQueue s (answerBurning s t) := by
  cases h : s.stopped with
  | true => exact ⟨s, answerBurning_stopped s t h, rfl, id⟩
  | false => exact ⟨_, answerBurning_running s t h, rfl, id⟩

/-- A command of the pins gives back the queue alone, so that its effect has to leave no register write over itself. -/
theorem keepsQueue_answerPin {s t : State} (hw : s.regWrites = [] → t.regWrites = []) : KeepsQueue s (answerPin s t) :=
  ⟨{ t with pending := s.pending }, rfl, rfl, hw⟩

/-! ### The commands of the pins -/

@[simp] theorem State.powerReset_regWrites (s : State) : s.powerReset.regWrites = [] := rfl

theorem execPorst_keepsQueue (s : State) : KeepsQueue s (execPorst s) :=
  keepsQueue_answerPin fun _ => s.powerReset_regWrites

theorem execVddAonLoss_keepsQueue (s : State) : KeepsQueue s (execVddAonLoss s) :=
  keepsQueue_answerPin fun _ => s.powerReset_regWrites

theorem execPorstRelease_keepsQueue (role bootsrc : Nat) (refSwing warmHeld flashGood : Bool) (s : State) :
    KeepsQueue s (execPorstRelease role bootsrc refSwing warmHeld flashGood s) := by
  apply keepsQueue_answerPin
  intro hw
  split
  · exact hw
  · rw [State.setRegBit_regWrites, hw]

theorem execI3cIbiAck_keepsQueue (byte : Nat) (s : State) : KeepsQueue s (execI3cIbiAck byte s) := by
  apply keepsQueue_answerPin
  intro hw
  split <;> exact hw

theorem execJtagInstruction_keepsQueue (code : Nat) (s : State) : KeepsQueue s (execJtagInstruction code s) := by
  apply keepsQueue_answerPin
  intro hw
  split
  · rw [State.emit_regWrites, hw]
  · exact hw

/-! ### Every command -/

/-- Each command's meaning ends in one of the three answers: the five of the pins in `answerPin`, those that may burn a fuse or write
the flash in `answerBurning`, every other in `answer`. -/
theorem exec_keepsQueue (c : Instr) (s : State) : KeepsQueue s (exec c s) := by
  cases c with
  | porst => exact execPorst_keepsQueue s
  | vddAonLoss => exact execVddAonLoss_keepsQueue s
  | porstRelease role bootsrc refSwing warmHeld flashGood =>
    exact execPorstRelease_keepsQueue role bootsrc refSwing warmHeld flashGood s
  | i3cIbiAck byte => exact execI3cIbiAck_keepsQueue byte s
  | jtagInstruction code => exact execJtagInstruction_keepsQueue code s
  | run | save | copy | fill | digest | collective | test | errorHandle | batchClose | packageWake | sleepWake | warmrst
  | secureBootComplete | getReport | getCert | recover | update | setupWrite | transfer | logRead | repairList | repairCommit
  | retire | readData | collectiveChunk | registerWrite | mailboxCommandDone | signerTreeRebuilt | doeRequest
  | maintenanceWindowTimeout => exact keepsQueue_answerBurning s _
  | _ => exact keepsQueue_answer s _

/-- Settles O3: whatever the command, its answer goes on and keeps the queue (`exec_keepsQueue`). -/
theorem everyCommandGoesOnAndKeepsTheQueue : Obligations.EveryCommandGoesOnAndKeepsTheQueue :=
  exec_keepsQueue

end Sys2Proof.Machine
end

section
/-! A refused write of a secure-only register (R10): what its tally leaves, and that it is all that the write does. -/

namespace Sys2Proof.Machine

/-! ### The tally of a violation (R415) -/

theorem State.countViolation_frame (s : State) (secure : Bool) (kind a : Nat) :
    s.countViolation secure kind a = { s with regs := (s.countViolation secure kind a).regs } := rfl

/-- A violation of the non-secure world changes its TOLL_REFUSED and the two words of TOLL_LAST. -/
theorem State.countViolation_sameRegs (s : State) (kind a : Nat) :
    SameRegsBut [Off.sec 0x80, Off.sec 0x90, Off.sec 0x94] s (s.countViolation false kind a) := by
  intro o ho
  simp only [List.mem_cons, List.not_mem_nil, or_false, not_or] at ho
  obtain ⟨hcount, hlow, hhigh⟩ := ho
  change o ≠ Off.sec 0x90 + 4 at hhigh
  simp [State.countViolation, State.reg_setReg64, State.reg_tally, hcount, hlow, hhigh]

theorem State.countViolation_refused (s : State) (kind a : Nat) :
    (s.countViolation false kind a).reg (Off.sec 0x80) = (s.reg (Off.sec 0x80) + 1) % 2 ^ 32 := by
  simp [State.countViolation, State.reg_setReg64, State.reg_tally, Off.sec]

/-- TOLL_LAST names the 48 bits of the address. -/
theorem State.countViolation_last (s : State) (secure : Bool) (kind a : Nat) :
    bitsAt ((s.countViolation secure kind a).reg64 (Off.sec 0x90)) 0 48 = a % 2 ^ 48 := by
  simp only [State.countViolation, State.reg64_setReg64_same, bitsAt]
  omega

/-! ### Accesses of BAR0 -/

/-- An access of the host to an awake package only restarts the idle time (R389). -/
theorem State.accessed_awake (s : State) (cause : Nat) (hc : cause ≠ 4) (h : s.sleep.pkg = .awake) :
    s.accessed cause = s.noteTraffic := by
  have hawake : s.noteTraffic.sleep.pkg = .awake := h
  simp [State.accessed, hc, State.restWake, hawake]

theorem State.inDeep_awake (s : State) (h : s.sleep.pkg = .awake) : s.inDeep = false := by
  simp [State.inDeep, h]

theorem writeCause_ne_board (off v : Nat) : writeCause off v ≠ 4 := by
  unfold writeCause
  split <;> decide

/-- A write of BAR0 by the host while the package is awake is made at once. -/
theorem execRegisterWrite_awake (off size : Nat) (v : DWord) (secure : Bool) (s : State) (h : s.sleep.pkg = .awake) :
    execRegisterWrite off size v secure false s = answerBurning s (s.noteTraffic.writeBar0 off size v.toNat secure) := by
  simp [execRegisterWrite, s.inDeep_awake h, s.accessed_awake _ (writeCause_ne_board off v.toNat) h]

/-- Which registers are secure-only stands in registers, so traffic does not change it. -/
@[simp] theorem State.secureReg_noteTraffic (s : State) (off : Nat) : s.noteTraffic.secureReg off = s.secureReg off := rfl

/-! ### Writes of a secure-only register by the non-secure world (R10) -/

theorem State.guarded_secret (s : State) (off : Nat) (f : State → State) (h : s.secureReg off = true) :
    s.guarded off false f = s.countViolation false 0 (0x030000000000 + off) := by
  simp [State.guarded, h]

/-- A write of one register, of either size, is only counted where the register is secure-only. -/
theorem State.writeBar0_secret (s : State) (off size v : Nat) (hsize : size = 4 ∨ size = 8 ∧ rw64 off = true)
    (halign : off % size = 0) (h : s.secureReg off = true) :
    s.writeBar0 off size v false = s.countViolation false 0 (0x030000000000 + off) := by
  rcases hsize with rfl | ⟨rfl, hlow⟩
  · simp [State.writeBar0, halign, State.write4, s.guarded_secret off _ h]
  · simp [State.writeBar0, halign, hlow, s.guarded_secret off _ h]

/-- REGISTER_WRITE of a secure-only register by the non-secure world: traffic, and one violation counted. -/
theorem exec_registerWrite_secret (off size : Nat) (v : DWord) (s : State) (hrun : s.stopped = false)
    (hawake : s.sleep.pkg = .awake) (hsize : size = 4 ∨ size = 8 ∧ rw64 off = true) (halign : off % size = 0)
    (hsecret : s.secureReg off = true) :
    exec (.registerWrite off size v false false) s =
      .next (s.noteTraffic.countViolation false 0 (0x030000000000 + off)) := by
  calc exec (.registerWrite off size v false false) s
    _ = answerBurning s (s.noteTraffic.writeBar0 off size v.toNat false) :=
      execRegisterWrite_awake off size v false s hawake
    _ = answerBurning s (s.noteTraffic.countViolation false 0 (0x030000000000 + off)) := by
      rw [s.noteTraffic.writeBar0_secret off size _ hsize halign hsecret]
    _ = _ := answerBurning_next _ _ hrun rfl rfl

/-- Settles O12: the write is the count of its violation (`exec_registerWrite_secret`), whose frame and registers are known. -/
theorem nonSecureWritesOfSecureRegistersOnlyCount : Obligations.NonSecureWritesOfSecureRegistersOnlyCount := by
  intro off size v s hrun hawake hsize halign hlimit hsecret
  refine ⟨_, exec_registerWrite_secret off size v s hrun hawake hsize halign hsecret, rfl,
    s.noteTraffic.countViolation_sameRegs 0 _, s.noteTraffic.countViolation_refused 0 _, ?_⟩
  rw [State.countViolation_last]
  unfold Off.limit at hlimit
  omega

end Sys2Proof.Machine
end

section
/-! Mesh traffic (R77, R162, R163, R228, R230, R235): what one arrival of each kind does. First what the shared operations leave
alone: the occupancy register, the wake of a tile, additions to a ledger. -/

namespace Sys2Proof.Machine

/-! ### Occupancy and wake (R235, R388) -/

theorem State.reg_tally_same (s : State) (off n : Nat) : (s.tally off n).reg off = (s.reg off + n) % 2 ^ 32 :=
  s.reg_setReg_same off _

theorem State.reg_tally_other (s : State) {off o : Nat} (n : Nat) (h : o ≠ off) : (s.tally off n).reg o = s.reg o :=
  s.reg_setReg_other _ h

theorem State.syncBoard_eq (s : State) (n : Nat) :
    s.syncBoard n = s.setReg (Off.tile n 0x91C) ((s.tile n).sb.length + 2 ^ 8 * (s.tile n).arrivals.length) := by
  unfold State.syncBoard
  rfl

/-- The end of a frame gap changes one field of its tile. -/
theorem State.noteGap_frame (s : State) (n : Nat) : s.noteGap n = { s with tiles := (s.noteGap n).tiles } := by
  unfold State.noteGap
  split <;> rfl

theorem State.noteGap_tile (s : State) (n : Nat) : ∃ gap, (s.noteGap n).tile n = { s.tile n with gapLast := gap } := by
  unfold State.noteGap
  split
  · exact ⟨s.now, s.tile_updTile_same n _⟩
  · exact ⟨(s.tile n).gapLast, rfl⟩

theorem State.noteGap_tile_other (s : State) {n k : Nat} (h : k ≠ n) : (s.noteGap n).tile k = s.tile k := by
  unfold State.noteGap
  split
  · exact s.tile_updTile_other _ h
  · rfl

theorem State.setSleep_frame (s : State) (n : Nat) (z : TileSleep) :
    s.setSleep n z = { s with regs := (s.setSleep n z).regs, tiles := (s.setSleep n z).tiles } := by
  unfold State.setSleep
  rw [State.noteGap_frame]
  rfl

theorem State.setSleep_tile_same (s : State) (n : Nat) (z : TileSleep) :
    (s.setSleep n z).tile n = { (s.noteGap n).tile n with sleep := z, sleepSince := s.now } := by
  unfold State.setSleep State.syncSleep
  rw [State.setReg_tile, State.tile_updTile_same]

theorem State.setSleep_tile_other (s : State) (z : TileSleep) {n k : Nat} (h : k ≠ n) : (s.setSleep n z).tile k = s.tile k := by
  unfold State.setSleep State.syncSleep
  rw [State.setReg_tile, State.tile_updTile_other _ _ h, s.noteGap_tile_other h]

theorem State.wakeTile_frame (s : State) (n : Nat) :
    s.wakeTile n = { s with regs := (s.wakeTile n).regs, tiles := (s.wakeTile n).tiles } := by
  unfold State.wakeTile
  split
  · rfl
  · exact s.setSleep_frame n .awake

theorem State.wakeTile_awake (s : State) (n : Nat) (h : (s.tile n).sleep = .awake) : s.wakeTile n = s := if_pos h

/-- A wake changes SLEEP_STATUS alone. -/
theorem State.wakeTile_reg (s : State) (n : Nat) {o : Nat} (h : o ≠ Off.ms 0x38) : (s.wakeTile n).reg o = s.reg o := by
  unfold State.wakeTile
  split
  · rfl
  · unfold State.setSleep State.syncSleep
    rw [State.reg_setReg_other _ _ h, s.noteGap_frame n]
    rfl

/-- A woken tile is awake, and only its times of sleep change beside. -/
theorem State.wakeTile_tile (s : State) (n : Nat) :
    ∃ since gap, (s.wakeTile n).tile n = { s.tile n with sleep := .awake, sleepSince := since, gapLast := gap } := by
  by_cases h : (s.tile n).sleep = .awake
  · exact ⟨(s.tile n).sleepSince, (s.tile n).gapLast, by rw [s.wakeTile_awake n h, ← h]⟩
  · obtain ⟨gap, hgap⟩ := s.noteGap_tile n
    refine ⟨s.now, gap, ?_⟩
    rw [State.wakeTile, if_neg h, State.setSleep_tile_same, hgap]

theorem State.wakeTile_tile_other (s : State) {n k : Nat} (h : k ≠ n) : (s.wakeTile n).tile k = s.tile k := by
  unfold State.wakeTile
  split
  · rfl
  · exact s.setSleep_tile_other .awake h

/-- A tile's part of the program: its list, its plan and its tables. -/
def Tile.part (t : Tile) (n : Nat) : PTile :=
  { tile := n, steps := t.steps.map (·.toNat), plan := t.plan.map (·.toNat), scales := t.scales.map (·.toNat)
    pattern := t.pattern.map (·.toNat) }

/-- The program is the parts of the tiles of the active pass. -/
theorem State.prog_congr {s t : State} (hpasses : t.passes = s.passes) (hgen : t.genActive = s.genActive)
    (hpart : ∀ k, (t.tile k).part k = (s.tile k).part k) : t.prog = s.prog := by
  have hpass : t.activePass = s.activePass := by simp only [State.activePass, State.slotOf, hgen, hpasses]
  unfold State.prog
  rw [hpass]
  cases s.activePass with
  | none => rfl
  | some p => exact List.map_congr_left fun k _ => hpart k

theorem State.wakeTile_prog (s : State) (n : Nat) : (s.wakeTile n).prog = s.prog := by
  refine State.prog_congr (by rw [s.wakeTile_frame n]) (s.wakeTile_reg n (by decide)) fun k => ?_
  by_cases hk : k = n
  · obtain ⟨since, gap, hn⟩ := s.wakeTile_tile n
    rw [hk, hn]
    rfl
  · rw [s.wakeTile_tile_other hk]

/-! ### What mesh traffic may change -/

/-- What the mesh carries replaced. -/
def State.setMesh (s : State) (m : Mesh) : State := { s with mesh := m }

@[simp] theorem State.setMesh_mesh (s : State) (m : Mesh) : (s.setMesh m).mesh = m := rfl
@[simp] theorem State.setMesh_tiles (s : State) (m : Mesh) : (s.setMesh m).tiles = s.tiles := rfl
@[simp] theorem State.setMesh_reqs (s : State) (m : Mesh) : (s.setMesh m).reqs = s.reqs := rfl
@[simp] theorem State.setMesh_tile (s : State) (m : Mesh) (k : Nat) : (s.setMesh m).tile k = s.tile k := rfl
@[simp] theorem State.setMesh_reg (s : State) (m : Mesh) (o : Nat) : (s.setMesh m).reg o = s.reg o := rfl

theorem State.liveAs_congr {s t : State} (h : t.reqs = s.reqs) (i ord : Nat) : t.liveAs i ord = s.liveAs i ord := by
  simp only [State.liveAs, State.req?, h]

/-- Nothing but registers, tiles and what the mesh carries differs: the frame of every arrival. -/
def MeshFrame (s t : State) : Prop := t = { s with regs := t.regs, tiles := t.tiles, mesh := t.mesh }

theorem MeshFrame.refl (s : State) : MeshFrame s s := rfl

theorem MeshFrame.trans {s t u : State} (h : MeshFrame s t) (k : MeshFrame t u) : MeshFrame s u := by
  unfold MeshFrame at *
  rw [h] at k
  exact k

theorem MeshFrame.setReg {s t : State} (h : MeshFrame s t) (off v : Nat) : MeshFrame s (t.setReg off v) := h.trans rfl

theorem MeshFrame.tally {s t : State} (h : MeshFrame s t) (off n : Nat) : MeshFrame s (t.tally off n) := h.trans rfl

theorem MeshFrame.setTile {s t : State} (h : MeshFrame s t) (n : Nat) (x : Tile) : MeshFrame s (t.setTile n x) := h.trans rfl

theorem MeshFrame.setMesh {s t : State} (h : MeshFrame s t) (m : Mesh) : MeshFrame s (t.setMesh m) := h.trans rfl

theorem MeshFrame.wakeTile {s t : State} (h : MeshFrame s t) (n : Nat) : MeshFrame s (t.wakeTile n) :=
  h.trans ((t.wakeTile_frame n).trans (by rw [t.wakeTile_frame n]))

/-- The frame with what the mesh now carries named. -/
theorem MeshFrame.eq_of_mesh {s t : State} {m : Mesh} (h : MeshFrame s t) (hm : t.mesh = m) :
    t = { s with regs := t.regs, tiles := t.tiles, mesh := m } := by
  rw [← hm]; exact h

/-- The same where the tiles stand. -/
theorem MeshFrame.eq_of_tiles {s t : State} {m : Mesh} (h : MeshFrame s t) (hm : t.mesh = m) (ht : t.tiles = s.tiles) :
    t = { s with regs := t.regs, mesh := m } := by
  rw [← hm]; rw [MeshFrame, ht] at h; exact h

/-- No arrival changes what the answer puts back. -/
theorem MeshFrame.answer {s t : State} (h : MeshFrame s t) (hrun : s.stopped = false) : Machine.answer s t = .next t :=
  answer_next s t hrun (by rw [h]) (by rw [h]) (by rw [h]) (by rw [h])

/-! ### Markers (R228, R235, R493) -/

/-- Nothing leaves its sender while every marker held for the tile must wait. -/
theorem State.releaseMarkers_none (s : State) (n : Nat)
    (h : s.mesh.held.any (fun h => decide (h.2.dst = n) && !s.markerHeld h.2) = false) : s.releaseMarkers n = s := by
  have hnil : s.mesh.held.filter (fun h => decide (h.2.dst = n) && !s.markerHeld h.2) = [] := by
    rw [List.filter_eq_nil_iff]
    exact List.any_eq_false.1 h
  unfold State.releaseMarkers
  rw [hnil, List.foldl_nil]

/-- The one marker held is sent once it need not wait. -/
theorem State.releaseMarkers_one (s : State) (n k : Nat) (m : Marker) (hheld : s.mesh.held = [(k, m)]) (hdst : m.dst = n)
    (hfree : s.markerHeld m = false) : s.releaseMarkers n =
      (s.setMesh { s.mesh with markers := s.mesh.markers ++ [m], held := [] }).tally (Off.tile k 0x920) 1 := by
  simp [State.releaseMarkers, hheld, hdst, hfree, State.setMesh]

/-- The arrival entries of a tile with one more marker of a region and a request (R228). -/
def arrivalsPlus (l : List Arrival) (m : Marker) : List Arrival :=
  if l.any (fun a => decide (a.region = m.region) && decide (a.req = m.req)) then
    l.map (fun a => if a.region = m.region ∧ a.req = m.req then { a with count := a.count + 1 } else a)
  else l ++ [{ region := m.region, req := m.req, count := 1 }]

/-- A marker of a live request is counted with those of its region. -/
theorem State.takeMarker_live (s : State) (m : Marker) (h : s.liveAs m.req m.ord = true) : s.takeMarker m =
    (((s.setMesh { s.mesh with markers := s.mesh.markers.erase m }).setTile m.dst
      { s.tile m.dst with arrivals := arrivalsPlus (s.tile m.dst).arrivals m }).tally (Off.tile m.dst 0x92C) 1).syncBoard m.dst := by
  have hlive : (s.setMesh { s.mesh with markers := s.mesh.markers.erase m }).liveAs m.req m.ord = true := h
  unfold State.setMesh at hlive ⊢
  simp only [State.takeMarker, hlive, Bool.not_true, Bool.false_eq_true, if_false, arrivalsPlus, Bool.and_eq_true, decide_eq_true_eq]
  rfl

/-- One of a request that has ended is only counted. -/
theorem State.takeMarker_dead (s : State) (m : Marker) (h : s.liveAs m.req m.ord = false) : s.takeMarker m =
    (s.setMesh { s.mesh with markers := s.mesh.markers.erase m }).tally (Off.tile m.dst 0x928) 1 := by
  have hdead : (s.setMesh { s.mesh with markers := s.mesh.markers.erase m }).liveAs m.req m.ord = false := h
  unfold State.setMesh at hdead ⊢
  simp [State.takeMarker, hdead]

theorem State.takesMarker_congr {s t : State} (htiles : t.tiles = s.tiles) (hreqs : t.reqs = s.reqs) (m : Marker) :
    t.takesMarker m = s.takesMarker m := by
  have htile : ∀ k, t.tile k = s.tile k := fun k => by rw [State.tile, State.tile, htiles]
  unfold State.takesMarker
  rw [State.liveAs_congr hreqs, htile]

/-- A marker taken leaves the mesh. -/
theorem State.takeMarker_frame (s : State) (m : Marker) : MeshFrame s (s.takeMarker m) := by
  have herase := (MeshFrame.refl s).setMesh { s.mesh with markers := s.mesh.markers.erase m }
  cases h : s.liveAs m.req m.ord with
  | true => rw [s.takeMarker_live m h, State.syncBoard_eq]; exact ((herase.setTile _ _).tally _ _).setReg _ _
  | false => rw [s.takeMarker_dead m h]; exact herase.tally _ _

theorem State.takeMarker_mesh (s : State) (m : Marker) :
    (s.takeMarker m).mesh = { s.mesh with markers := s.mesh.markers.erase m } := by
  cases h : s.liveAs m.req m.ord with
  | true => rw [s.takeMarker_live m h, State.syncBoard_eq, State.setReg_mesh, State.tally_mesh, State.setTile_mesh, State.setMesh_mesh]
  | false => rw [s.takeMarker_dead m h, State.tally_mesh, State.setMesh_mesh]

/-- It changes no register but three of its tile. -/
theorem State.takeMarker_reg (s : State) (m : Marker) {o : Nat}
    (h : ∀ j ∈ [0x928, 0x92C, 0x91C], o ≠ Off.tile m.dst j) : (s.takeMarker m).reg o = s.reg o := by
  cases hlive : s.liveAs m.req m.ord with
  | true =>
    rw [s.takeMarker_live m hlive, State.syncBoard_eq, State.reg_setReg_other _ _ (h 0x91C (by simp)),
      State.reg_tally_other _ _ (h 0x92C (by simp)), State.setTile_reg, State.setMesh_reg]
  | false =>
    rw [s.takeMarker_dead m hlive, State.reg_tally_other _ _ (h 0x928 (by simp)), State.setMesh_reg]

theorem State.takeMarker_arrivals (s : State) (m : Marker) (h : s.liveAs m.req m.ord = true) :
    ((s.takeMarker m).tile m.dst).arrivals = arrivalsPlus (s.tile m.dst).arrivals m := by
  rw [s.takeMarker_live m h, State.syncBoard_eq, State.setReg_tile, State.tally_tile, State.tile_setTile_same]

/-- The tile takes the first marker on the mesh that it can. -/
def State.takeFirstMarker (s : State) (n : Nat) : State :=
  match s.mesh.markers.find? (fun m => decide (m.dst = n) && s.takesMarker m) with
  | none => s
  | some m => s.takeMarker m

theorem exec_markerArrival (n : Nat) (s : State) :
    exec (.markerArrival n) s = answer s ((s.releaseMarkers n).takeFirstMarker n) := rfl

theorem State.takeFirstMarker_some (s : State) (n : Nat) (m : Marker)
    (h : s.mesh.markers.find? (fun m => decide (m.dst = n) && s.takesMarker m) = some m) : s.takeFirstMarker n = s.takeMarker m := by
  simp [State.takeFirstMarker, h]

theorem State.takeFirstMarker_none (s : State) (n : Nat)
    (h : s.mesh.markers.find? (fun m => decide (m.dst = n) && s.takesMarker m) = none) : s.takeFirstMarker n = s := by
  simp [State.takeFirstMarker, h]

/-- MARKER_ARRIVAL where nothing leaves its sender. -/
theorem exec_markerArrival_takes (n : Nat) (m : Marker) (s : State) (hrun : s.stopped = false)
    (hheld : s.mesh.held.any (fun h => decide (h.2.dst = n) && !s.markerHeld h.2) = false)
    (hfind : s.mesh.markers.find? (fun m => decide (m.dst = n) && s.takesMarker m) = some m) :
    exec (.markerArrival n) s = .next (s.takeMarker m) := by
  rw [exec_markerArrival, s.releaseMarkers_none n hheld, s.takeFirstMarker_some n m hfind]
  exact (s.takeMarker_frame m).answer hrun

/-- A packet that a tile's search finds is bound for it. -/
theorem dst_of_find {α : Type} {l : List α} {x : α} (dst : α → Nat) (p : α → Bool) {n : Nat}
    (h : l.find? (fun y => decide (dst y = n) && p y) = some x) : dst x = n := by
  have hx := List.find?_some h
  simp only [Bool.and_eq_true, decide_eq_true_eq] at hx
  exact hx.1

/-- A marker of a live request raises its arrival count by 1. -/
theorem markerArrival_live (n : Nat) (m : Marker) (s : State) (hrun : s.stopped = false)
    (hheld : s.mesh.held.any (fun h => decide (h.2.dst = n) && !s.markerHeld h.2) = false)
    (hfind : s.mesh.markers.find? (fun m => decide (m.dst = n) && s.takesMarker m) = some m) (hlive : s.liveAs m.req m.ord = true) :
    ∃ t, exec (.markerArrival n) s = .next t ∧ MeshFrame s t ∧
      t.mesh = { s.mesh with markers := s.mesh.markers.erase m } ∧ (t.tile n).arrivals = arrivalsPlus (s.tile n).arrivals m := by
  have hdst : m.dst = n := dst_of_find Marker.dst s.takesMarker hfind
  refine ⟨s.takeMarker m, exec_markerArrival_takes n m s hrun hheld hfind, s.takeMarker_frame m, s.takeMarker_mesh m, ?_⟩
  rw [← hdst, s.takeMarker_arrivals m hlive]

/-- A marker of a request that has ended is discarded, counted (R235). -/
theorem markerArrival_dead (n : Nat) (m : Marker) (s : State) (hrun : s.stopped = false)
    (hheld : s.mesh.held.any (fun h => decide (h.2.dst = n) && !s.markerHeld h.2) = false)
    (hfind : s.mesh.markers.find? (fun m => decide (m.dst = n) && s.takesMarker m) = some m) (hdead : s.liveAs m.req m.ord = false) :
    ∃ t, exec (.markerArrival n) s = .next t ∧
      t = { s with regs := t.regs, mesh := { s.mesh with markers := s.mesh.markers.erase m } } ∧
      t.reg (Off.tile n 0x928) = (s.reg (Off.tile n 0x928) + 1) % 2 ^ 32 ∧ SameRegsBut [Off.tile n 0x928] s t := by
  have hdst : m.dst = n := dst_of_find Marker.dst s.takesMarker hfind
  have htake := s.takeMarker_dead m hdead
  rw [hdst] at htake
  refine ⟨s.takeMarker m, exec_markerArrival_takes n m s hrun hheld hfind,
    (s.takeMarker_frame m).eq_of_tiles (s.takeMarker_mesh m) (by rw [htake, State.tally_tiles, State.setMesh_tiles]), ?_, fun o ho => ?_⟩
  · rw [htake, State.reg_tally_same, State.setMesh_reg]
  · rw [htake, State.reg_tally_other _ _ (by simpa using ho), State.setMesh_reg]

/-- A marker held for a SEAM step stays at its sender while it must wait. -/
theorem markerArrival_waits (n k : Nat) (m : Marker) (s : State) (hrun : s.stopped = false) (hmarkers : s.mesh.markers = [])
    (hheld : s.mesh.held = [(k, m)]) (hwait : s.markerHeld m = true) : exec (.markerArrival n) s = .next s := by
  rw [exec_markerArrival, s.releaseMarkers_none n (by simp [hheld, hwait]), s.takeFirstMarker_none n (by simp [hmarkers])]
  exact (MeshFrame.refl s).answer hrun

/-- Registers of two tiles are apart. -/
theorem Off.tile_ne {k n : Nat} (i j : Nat) (h : k ≠ n) (hi : i < 0x1000) (hj : j < 0x1000) : Off.tile k i ≠ Off.tile n j := by
  unfold Off.tile
  omega

/-- A marker that need wait no longer is sent, counted at its sender, and taken where the tile can (R493). -/
theorem markerArrival_sent (n k : Nat) (m : Marker) (s : State) (hrun : s.stopped = false) (hmarkers : s.mesh.markers = [])
    (hheld : s.mesh.held = [(k, m)]) (hdst : m.dst = n) (hfree : s.markerHeld m = false) :
    ∃ t, exec (.markerArrival n) s = .next t ∧ t.mesh.held = [] ∧
      (k ≠ n → t.reg (Off.tile k 0x920) = (s.reg (Off.tile k 0x920) + 1) % 2 ^ 32) ∧
      (s.takesMarker m = true → t.mesh.markers = []) ∧ (s.takesMarker m = false → t.mesh.markers = [m]) := by
  have hsent := s.releaseMarkers_one n k m hheld hdst hfree
  generalize hu : s.releaseMarkers n = u at hsent
  have hframe : MeshFrame s u := by rw [hsent]; exact ((MeshFrame.refl s).setMesh _).tally _ _
  have hmesh : u.mesh = { s.mesh with markers := [m], held := [] } := by simp [hsent, hmarkers]
  have hcount : u.reg (Off.tile k 0x920) = (s.reg (Off.tile k 0x920) + 1) % 2 ^ 32 := by
    rw [hsent, State.reg_tally_same, State.setMesh_reg]
  have htakes : u.takesMarker m = s.takesMarker m := State.takesMarker_congr (by simp [hsent]) (by simp [hsent]) m
  rw [exec_markerArrival, hu]
  cases ht : s.takesMarker m with
  | true =>
    rw [u.takeFirstMarker_some n m (by simp [hmesh, hdst, htakes, ht])]
    refine ⟨u.takeMarker m, (hframe.trans (u.takeMarker_frame m)).answer hrun, by simp [u.takeMarker_mesh, hmesh], fun hk => ?_,
      by simp [u.takeMarker_mesh, hmesh], by simp⟩
    rw [u.takeMarker_reg m, hcount]
    intro j hj
    have hsmall : j < 0x1000 := by simp at hj; omega
    exact Off.tile_ne _ _ (hdst ▸ hk) (by decide) hsmall
  | false =>
    rw [u.takeFirstMarker_none n (by simp [hmesh, hdst, htakes, ht])]
    exact ⟨u, hframe.answer hrun, by simp [hmesh], fun _ => hcount, by simp, by simp [hmesh]⟩

/-! ### Drains (R77, R388) -/

/-- A ledger entry with a value added, modulo 2^80; a free entry becomes valid with the tag (R74). -/
def entryPlus (tag : Nat) (o : Option LedgerEntry) (v : Int) : LedgerEntry :=
  match o with
  | some e => { e with value := e.value + BitVec.ofInt 80 v }
  | none => { value := BitVec.ofInt 80 v, tag := tag }

theorem tget_ledgerAdd_same (l : Tbl LedgerEntry) (tag k : Nat) (v : Int) :
    tget (ledgerAdd false l tag k v) k = some (entryPlus tag (tget l k) v) := by
  unfold ledgerAdd entryPlus
  cases tget l k <;> simp

theorem tget_ledgerAdd_other (float : Bool) (l : Tbl LedgerEntry) (tag : Nat) {k j : Nat} (v : Int) (h : j ≠ k) :
    tget (ledgerAdd float l tag k v) j = tget l j := by
  unfold ledgerAdd
  cases tget l k with
  | some e => cases float <;> exact tget_sins_other _ _ h
  | none => exact tget_sins_other _ _ h

/-- Values added to consecutive entries of a ledger, the first of them `i` places after `a + c`. -/
def ledgerRun (l : Tbl LedgerEntry) (tag a c i : Nat) (vs : List Int) : Tbl LedgerEntry :=
  (vs.zipIdx i).foldl (fun l v => ledgerAdd false l tag (a + (c + v.2)) v.1) l

theorem ledgerRun_cons (l : Tbl LedgerEntry) (tag a c i : Nat) (v : Int) (vs : List Int) :
    ledgerRun l tag a c i (v :: vs) = ledgerRun (ledgerAdd false l tag (a + (c + i)) v) tag a c (i + 1) vs := rfl

theorem tget_ledgerRun_outside (l : Tbl LedgerEntry) (tag a c i : Nat) (vs : List Int) {j : Nat}
    (h : j < a + c + i ∨ a + c + i + vs.length ≤ j) : tget (ledgerRun l tag a c i vs) j = tget l j := by
  induction vs generalizing l i with
  | nil => rfl
  | cons v vs ih =>
    have hlen : (v :: vs).length = vs.length + 1 := rfl
    rw [ledgerRun_cons, ih _ _ (by omega), tget_ledgerAdd_other _ _ _ _ (by omega)]

theorem tget_ledgerRun_inside (l : Tbl LedgerEntry) (tag a c i : Nat) (vs : List Int) (k : Nat) (hk : k < vs.length) :
    tget (ledgerRun l tag a c i vs) (a + (c + (i + k))) = some (entryPlus tag (tget l (a + (c + (i + k)))) vs[k]) := by
  induction vs generalizing l i k with
  | nil => exact absurd hk (Nat.not_lt_zero k)
  | cons v vs ih =>
    rw [ledgerRun_cons]
    cases k with
    | zero => rw [tget_ledgerRun_outside _ _ _ _ _ _ (by omega)]; exact tget_ledgerAdd_same l tag _ v
    | succ k =>
      have hstep := ih (ledgerAdd false l tag (a + (c + i)) v) (i + 1) k (by simpa using hk)
      rw [tget_ledgerAdd_other _ _ _ _ (by omega), show i + 1 + k = i + (k + 1) by omega] at hstep
      exact hstep

/-- Values by their places in a block go to consecutive entries. -/
theorem foldl_macroPlaces (l : Tbl LedgerEntry) (tag a block : Nat) (vs : List Int) :
    (macroPlaces block vs).foldl (fun l v => ledgerAdd false l tag (a + v.1) v.2) l = ledgerRun l tag a (block * vs.length) 0 vs := by
  rw [macroPlaces, List.foldl_map]
  rfl

/-- A tile after an addition to its open slot `x`: the values in the ledger, the terms and the final drains in the slot. -/
def Tile.addOpen (t : Tile) (float : Bool) (x : Slot) (tag terms finals : Nat) (vals : List (Nat × Int)) : Tile :=
  { t with
    ledger := vals.foldl (fun l v => ledgerAdd float l tag (x.first + v.1) v.2) t.ledger
    slots := t.slots.map (fun y => if y = x then { x with terms := x.terms + terms, finals := x.finals + finals } else y) }

/-- An addition whose slot is open, within its terms and its tag, is made whole (R77, R83, R87). -/
theorem State.addSlot_open (s : State) (h i layer p tag terms finals : Nat) (vals : List (Nat × Int)) (x : Slot)
    (hslot : (s.tile (hTile h)).slot? (hIdx h) i p = some x) (hterms : x.terms + terms < 2 ^ 40)
    (htag : tagClash (s.tile (hTile h)).ledger tag (vals.map (fun v => x.first + v.1)) = none) :
    s.addSlot h i layer p tag terms finals vals =
      some (s.setTile (hTile h) ((s.tile (hTile h)).addOpen (s.prog.floatRange h) x tag terms finals vals)) := by
  have hroom : ¬ 2 ^ 40 - 1 < x.terms + terms := by omega
  unfold State.addSlot
  simp only [hslot, Option.isNone_some, Bool.false_eq_true, false_and, if_false, if_neg hroom, htag]
  rfl

/-- A drain of a live request that finds its slot is added there and counted (R77, R79). -/
theorem State.arriveDrain_open (s : State) (d : Drain) (x : Slot) (hlive : s.liveAs d.req d.ord = true) (hregion : d.region < 64)
    (hslot : (s.tile d.dst).slot? d.region d.req d.position = some x) (hint : s.prog.floatRange (64 * d.dst + d.region) = false)
    (hterms : x.terms + d.terms < 2 ^ 40)
    (htag : tagClash (s.tile d.dst).ledger d.tag ((macroPlaces d.block d.values).map (fun v => x.first + v.1)) = none) :
    s.arriveDrain d = some ((s.setTile d.dst ((s.tile d.dst).addOpen false x d.tag d.terms
      (if d.final then d.values.length + d.slice else 0) (macroPlaces d.block d.values))).tally (Off.tile d.dst 0x32C) 1) := by
  have htile : hTile (64 * d.dst + d.region) = d.dst := by unfold hTile; omega
  have hidx : hIdx (64 * d.dst + d.region) = d.region := by unfold hIdx; omega
  have hadd := s.addSlot_open (64 * d.dst + d.region) d.req d.layer d.position d.tag d.terms
    (if d.final then d.values.length + d.slice else 0) (macroPlaces d.block d.values) x
    (by rw [htile, hidx]; exact hslot) hterms (by rw [htile]; exact htag)
  simp only [State.arriveDrain, hlive, Bool.not_true, Bool.false_eq_true, if_false, hadd, htile, hint]

theorem State.arriveDrain_dead (s : State) (d : Drain) (h : s.liveAs d.req d.ord = false) :
    s.arriveDrain d = some (s.tally (Off.tile d.dst 0x318) 1) := by
  simp [State.arriveDrain, h]

/-- REMOTE_DRAIN_ARRIVAL: the drain found wakes its tile, is taken, and leaves the mesh. -/
theorem exec_remoteDrainArrival_takes (n stalls : Nat) (d : Drain) (s t : State) (hrun : s.stopped = false)
    (hfind : s.mesh.drains.find? (fun d => decide (d.dst = n) && (s.arriveDrain d).isSome) = some d)
    (harrive : (s.wakeTile n).arriveDrain d = some t) (hframe : MeshFrame s t) :
    exec (.remoteDrainArrival n stalls) s =
      .next ((t.setMesh { t.mesh with drains := s.mesh.drains.erase d }).tally (Off.tile n 0x31C) stalls) := by
  have hexec : exec (.remoteDrainArrival n stalls) s =
      answer s ((t.setMesh { t.mesh with drains := s.mesh.drains.erase d }).tally (Off.tile n 0x31C) stalls) := by
    change execRemoteDrainArrival n stalls s = _
    simp only [execRemoteDrainArrival, hfind, harrive]
    rfl
  rw [hexec]
  exact ((hframe.setMesh _).tally _ _).answer hrun

theorem State.wakeTile_mesh (s : State) (n : Nat) : (s.wakeTile n).mesh = s.mesh := by rw [s.wakeTile_frame n]
theorem State.wakeTile_reqs (s : State) (n : Nat) : (s.wakeTile n).reqs = s.reqs := by rw [s.wakeTile_frame n]

/-- A register of a tile is not SLEEP_STATUS. -/
theorem Off.tile_ne_sleepStatus (n k : Nat) : Off.tile n k ≠ Off.ms 0x38 := by
  unfold Off.tile Off.ms
  omega

/-- A drain of a live request adds its values to its slot, and leaves its tile awake. -/
theorem remoteDrainArrival_live (n stalls : Nat) (d : Drain) (x : Slot) (s : State) (hrun : s.stopped = false)
    (hfind : s.mesh.drains.find? (fun d => decide (d.dst = n) && (s.arriveDrain d).isSome) = some d)
    (hlive : s.liveAs d.req d.ord = true) (hregion : d.region < 64)
    (hslot : (s.tile n).slot? d.region d.req d.position = some x) (hint : s.prog.floatRange (64 * n + d.region) = false)
    (hterms : x.terms + d.terms < 2 ^ 40)
    (htag : tagClash (s.tile n).ledger d.tag ((macroPlaces d.block d.values).map (fun v => x.first + v.1)) = none) :
    ∃ t, exec (.remoteDrainArrival n stalls) s = .next t ∧ MeshFrame s t ∧
      t.mesh = { s.mesh with drains := s.mesh.drains.erase d } ∧ t.reg (Off.tile n 0x31C) = (s.reg (Off.tile n 0x31C) + stalls) % 2 ^ 32 ∧
      t.reg (Off.tile n 0x32C) = (s.reg (Off.tile n 0x32C) + 1) % 2 ^ 32 ∧ (t.tile n).sleep = .awake ∧
      (t.tile n).ledger = ledgerRun (s.tile n).ledger d.tag x.first (d.block * d.values.length) 0 d.values ∧
      (∀ k, k ≠ n → t.tile k = s.tile k) := by
  have hdst : d.dst = n := dst_of_find Drain.dst (fun d => (s.arriveDrain d).isSome) hfind
  subst hdst
  obtain ⟨since, gap, htile⟩ := s.wakeTile_tile d.dst
  have hframe : MeshFrame s (s.wakeTile d.dst) := (MeshFrame.refl s).wakeTile d.dst
  have harrive := (s.wakeTile d.dst).arriveDrain_open d x (by rw [State.liveAs_congr (s.wakeTile_reqs _)]; exact hlive) hregion
    (by rw [htile]; exact hslot) (by rw [s.wakeTile_prog]; exact hint) hterms (by rw [htile]; exact htag)
  refine ⟨_, exec_remoteDrainArrival_takes _ stalls d s _ hrun hfind harrive ((hframe.setTile _ _).tally _ _),
    (((hframe.setTile _ _).tally _ _).setMesh _).tally _ _, ?_, ?_, ?_, ?_, ?_, fun k hk => ?_⟩
  · rw [State.tally_mesh, State.setMesh_mesh, State.tally_mesh, State.setTile_mesh, s.wakeTile_mesh]
  · rw [State.reg_tally_same, State.setMesh_reg, State.reg_tally_other _ _ (by unfold Off.tile; omega), State.setTile_reg,
      s.wakeTile_reg _ (Off.tile_ne_sleepStatus _ _)]
  · rw [State.reg_tally_other _ _ (by unfold Off.tile; omega), State.setMesh_reg, State.reg_tally_same, State.setTile_reg,
      s.wakeTile_reg _ (Off.tile_ne_sleepStatus _ _)]
  · rw [State.tally_tile, State.setMesh_tile, State.tally_tile, State.tile_setTile_same, htile]
    rfl
  · rw [State.tally_tile, State.setMesh_tile, State.tally_tile, State.tile_setTile_same, htile]
    exact foldl_macroPlaces _ _ _ _ _
  · rw [State.tally_tile, State.setMesh_tile, State.tally_tile, State.tile_setTile_other _ _ hk, s.wakeTile_tile_other hk]

/-- A drain of a request that has ended is discarded, counted (R79). -/
theorem remoteDrainArrival_dead (n stalls : Nat) (d : Drain) (s : State) (hrun : s.stopped = false)
    (hfind : s.mesh.drains.find? (fun d => decide (d.dst = n) && (s.arriveDrain d).isSome) = some d)
    (hdead : s.liveAs d.req d.ord = false) :
    ∃ t, exec (.remoteDrainArrival n stalls) s = .next t ∧
      t = { s with regs := t.regs, tiles := t.tiles, mesh := { s.mesh with drains := s.mesh.drains.erase d } } ∧
      t.reg (Off.tile n 0x318) = (s.reg (Off.tile n 0x318) + 1) % 2 ^ 32 ∧
      SameRegsBut [Off.tile n 0x318, Off.tile n 0x31C, Off.ms 0x38] s t ∧ (t.tile n).ledger = (s.tile n).ledger ∧
      (t.tile n).slots = (s.tile n).slots ∧ ((s.tile n).sleep = .awake → t.tiles = s.tiles) := by
  have hdst : d.dst = n := dst_of_find Drain.dst (fun d => (s.arriveDrain d).isSome) hfind
  subst hdst
  obtain ⟨since, gap, htile⟩ := s.wakeTile_tile d.dst
  have hframe : MeshFrame s (s.wakeTile d.dst) := (MeshFrame.refl s).wakeTile d.dst
  have harrive := (s.wakeTile d.dst).arriveDrain_dead d (by rw [State.liveAs_congr (s.wakeTile_reqs _)]; exact hdead)
  refine ⟨_, exec_remoteDrainArrival_takes _ stalls d s _ hrun hfind harrive (hframe.tally _ _),
    (((hframe.tally _ _).setMesh _).tally _ _).eq_of_mesh ?_, ?_, fun o ho => ?_, ?_, ?_, fun hawake => ?_⟩
  · rw [State.tally_mesh, State.setMesh_mesh, State.tally_mesh, s.wakeTile_mesh]
  · rw [State.reg_tally_other _ _ (by unfold Off.tile; omega), State.setMesh_reg, State.reg_tally_same,
      s.wakeTile_reg _ (Off.tile_ne_sleepStatus _ _)]
  · simp only [List.mem_cons, List.not_mem_nil, or_false, not_or] at ho
    obtain ⟨hlate, hstalls, hsleep⟩ := ho
    rw [State.reg_tally_other _ _ hstalls, State.setMesh_reg, State.reg_tally_other _ _ hlate, s.wakeTile_reg _ hsleep]
  · rw [State.tally_tile, State.setMesh_tile, State.tally_tile, htile]
  · rw [State.tally_tile, State.setMesh_tile, State.tally_tile, htile]
  · rw [State.tally_tiles, State.setMesh_tiles, State.tally_tiles, s.wakeTile_awake _ hawake]

/-! ### Contributions (R163, R164) -/

@[simp] theorem addSums_length (a b : List Int) : (addSums a b).length = b.length := by simp [addSums]

theorem addSums_getD (a b : List Int) {k : Nat} (hk : k < b.length) : (addSums a b).getD k 0 = a.getD k 0 + b.getD k 0 := by
  simp [addSums, List.getD_eq_getElem?_getD, hk]

/-- The entry of an accumulator with one more contribution (R163). -/
def ScatEntry.plus (e : ScatEntry) (clock : Nat) (c : Contribution) : ScatEntry :=
  { e with count := e.count + 1, used := clock, sums := addSums e.sums c.sums }

/-- Whether an entry is the one of a contribution's position and group. -/
def ScatEntry.takes (c : Contribution) (e : ScatEntry) : Bool := decide (e.position = c.position) && decide (e.group = c.group)

/-- A tile whose accumulator has taken a contribution in its entry `e`. -/
def Tile.addFound (t : Tile) (c : Contribution) (e : ScatEntry) : Tile :=
  { t with
    scat := t.scat.map (fun x => if ScatEntry.takes c x then e.plus t.scatClock c else x)
    scatClock := t.scatClock + 1
    scatOwner := some (c.req, c.layer) }

/-- A contribution that finds its entry, of its tag and below the spill interval, is added there and nowhere else. -/
theorem State.addContribution_found (s : State) (c : Contribution) (e : ScatEntry)
    (hfind : (s.tile c.dst).scat.find? (fun e => decide (e.position = c.position) && decide (e.group = c.group)) = some e)
    (htag : e.tag = c.tag) (hlimit : e.count + 1 < c.limit) : s.addContribution c =
      s.setTile c.dst ((s.tile c.dst).addFound c e) := by
  have hbelow : ¬ c.limit ≤ e.count + 1 := by omega
  unfold State.addContribution
  simp only [hfind, if_neg (not_not_intro htag), if_neg hbelow]
  rfl

/-- SCATTER_CONTRIBUTION: the contribution found leaves the mesh; it is added where its request lives. -/
theorem exec_scatterContribution_takes (n stalls : Nat) (c : Contribution) (s : State)
    (hfind : s.mesh.contribs.find? (fun c => decide (c.dst = n) && s.takesContribution c) = some c) :
    exec (.scatterContribution n stalls) s = answer s
      ((if s.liveAs c.req c.ord then (s.setMesh { s.mesh with contribs := s.mesh.contribs.erase c }).addContribution c
        else s.setMesh { s.mesh with contribs := s.mesh.contribs.erase c }).tally (Off.tile n 0x618) stalls) := by
  change execScatterContribution n stalls s = _
  simp only [execScatterContribution, hfind]
  rfl

/-- A contribution of a live request adds its sums to its entry. -/
theorem scatterContribution_live (n stalls : Nat) (c : Contribution) (e : ScatEntry) (s : State) (hrun : s.stopped = false)
    (hfind : s.mesh.contribs.find? (fun c => decide (c.dst = n) && s.takesContribution c) = some c)
    (hlive : s.liveAs c.req c.ord = true)
    (hentry : (s.tile n).scat.find? (fun e => decide (e.position = c.position) && decide (e.group = c.group)) = some e)
    (htag : e.tag = c.tag) (hlimit : e.count + 1 < c.limit) :
    ∃ t, exec (.scatterContribution n stalls) s = .next t ∧ MeshFrame s t ∧
      t.reg (Off.tile n 0x618) = (s.reg (Off.tile n 0x618) + stalls) % 2 ^ 32 ∧ SameRegsBut [Off.tile n 0x618] s t ∧
      t.mesh = { s.mesh with contribs := s.mesh.contribs.erase c } ∧
      (t.tile n).scat = (s.tile n).scat.map (fun x => if ScatEntry.takes c x then e.plus (s.tile n).scatClock c else x) ∧
      (t.tile n).scatOwner = some (c.req, c.layer) ∧ (∀ k, k ≠ n → t.tile k = s.tile k) := by
  have hdst : c.dst = n := dst_of_find Contribution.dst s.takesContribution hfind
  subst hdst
  have hexec := exec_scatterContribution_takes c.dst stalls c s hfind
  rw [hlive, if_pos rfl, State.addContribution_found (s.setMesh { s.mesh with contribs := s.mesh.contribs.erase c }) c e hentry htag hlimit] at hexec
  refine ⟨_, hexec.trans ((((MeshFrame.refl s).setMesh _).setTile _ _).tally _ _ |>.answer hrun),
    (((MeshFrame.refl s).setMesh _).setTile _ _).tally _ _, ?_, fun o ho => ?_, ?_, ?_, ?_, fun k hk => ?_⟩
  · rw [State.reg_tally_same, State.setTile_reg, State.setMesh_reg]
  · rw [State.reg_tally_other _ _ (by simpa using ho), State.setTile_reg, State.setMesh_reg]
  · rw [State.tally_mesh, State.setTile_mesh, State.setMesh_mesh]
  · rw [State.tally_tile, State.tile_setTile_same]
    rfl
  · rw [State.tally_tile, State.tile_setTile_same]
    rfl
  · rw [State.tally_tile, State.tile_setTile_other _ _ hk, State.setMesh_tile]

/-- A contribution of a request that has ended is discarded. -/
theorem scatterContribution_dead (n stalls : Nat) (c : Contribution) (s : State) (hrun : s.stopped = false)
    (hfind : s.mesh.contribs.find? (fun c => decide (c.dst = n) && s.takesContribution c) = some c)
    (hdead : s.liveAs c.req c.ord = false) :
    ∃ t, exec (.scatterContribution n stalls) s = .next t ∧
      t = { s with regs := t.regs, mesh := { s.mesh with contribs := s.mesh.contribs.erase c } } ∧ SameRegsBut [Off.tile n 0x618] s t := by
  have hexec := exec_scatterContribution_takes n stalls c s hfind
  rw [hdead, if_neg Bool.false_ne_true] at hexec
  have hframe := ((MeshFrame.refl s).setMesh { s.mesh with contribs := s.mesh.contribs.erase c }).tally (Off.tile n 0x618) stalls
  refine ⟨_, hexec.trans (hframe.answer hrun), hframe.eq_of_tiles (State.tally_mesh _ _ _) (State.tally_tiles _ _ _), fun o ho => ?_⟩
  rw [State.reg_tally_other _ _ (by simpa using ho), State.setMesh_reg]

/-! ### Circular records (R229, R230) -/

/-- A tile whose records all are one region's, that region's. -/
theorem Tile.circOf_all (t : Tile) (c : Nat) (h : ∀ y ∈ t.circ, y.cq = c) : t.circOf c = t.circ := by
  unfold Tile.circOf
  exact List.filter_eq_self.2 (fun y hy => by simpa using h y hy)

/-- One record of a list replaced where it stands in front alone. -/
theorem map_replace_head {α : Type} [DecidableEq α] (x x' : α) (rest : List α) (h : ∀ y ∈ rest, y ≠ x) :
    (x :: rest).map (fun y => if y = x then x' else y) = x' :: rest := by
  rw [List.map_cons, if_pos rfl]
  congr 1
  exact (List.map_congr_left fun y hy => if_neg (h y hy)).trans (List.map_id' rest)

/-- The front record of a region landed, where the region has no readable record yet: TAIL moves over it and every complete one
behind it. -/
theorem circularRecordLanded_front (n cq k : Nat) (x : CircRec) (rest : List CircRec) (s : State) (hrun : s.stopped = false)
    (hcirc : (s.tile n).circ = x :: rest) (hcq : x.cq = cq) (hnum : x.num = k) (hland : x.landed = false)
    (hrest : ∀ y ∈ rest, y.cq = cq ∧ y ≠ x) (hocc : s.reg (circOcc n cq) = 0) :
    ∃ t, exec (.circularRecordLanded n cq k) s = .next t ∧ t = { s with regs := t.regs, tiles := t.tiles } ∧
      (t.tile n).circ = { x with landed := true } :: rest ∧
      t.reg (circTail n cq) = (s.reg (circTail n cq) + (1 + (rest.takeWhile (·.landed)).length)) % 2 ^ 32 ∧
      t.reg (circOcc n cq) = (1 + (rest.takeWhile (·.landed)).length) % 2 ^ 32 ∧
      SameRegsBut [circTail n cq, circOcc n cq] s t := by
  have hmine : ∀ z : CircRec, z.cq = cq → ∀ y ∈ z :: rest, y.cq = cq := by
    intro z hz y hy
    rcases List.mem_cons.1 hy with rfl | hy
    · exact hz
    · exact (hrest y hy).1
  have hfind : ((s.tile n).circOf cq).find? (fun y => decide (y.num = k) && !y.landed) = some x := by
    rw [(s.tile n).circOf_all cq (by rw [hcirc]; exact hmine x hcq), hcirc]
    simp [hnum, hland]
  have hmap : (s.tile n).circ.map (fun y => if y = x then { x with landed := true } else y) = { x with landed := true } :: rest := by
    rw [hcirc, map_replace_head _ _ _ fun y hy => (hrest y hy).2]
  generalize hu : s.setTile n { s.tile n with circ := { x with landed := true } :: rest } = u
  have htile : u.tile n = { s.tile n with circ := { x with landed := true } :: rest } := by rw [← hu, State.tile_setTile_same]
  have hreg : ∀ o, u.reg o = s.reg o := fun o => by rw [← hu, State.setTile_reg]
  have hlanded : landedRun ((u.tile n).circOf cq) = 1 + (rest.takeWhile (·.landed)).length := by
    rw [htile, Tile.circOf_all _ cq (hmine { x with landed := true } hcq)]
    simp [landedRun, Nat.add_comm]
  have htail : circTail n cq ≠ circOcc n cq := by unfold circTail circOcc Off.tile; omega
  have hexec : exec (.circularRecordLanded n cq k) s = answer s
      ((u.tally (circTail n cq) (1 + (rest.takeWhile (·.landed)).length)).tally (circOcc n cq)
        (1 + (rest.takeWhile (·.landed)).length)) := by
    change execCircularRecordLanded n cq k s = _
    simp only [execCircularRecordLanded, hfind, hmap, hu, hlanded, hreg, hocc, Nat.sub_zero]
  have hframe : MeshFrame s u := hu ▸ (MeshFrame.refl s).setTile _ _
  have hmesh : u.mesh = s.mesh := by rw [← hu, State.setTile_mesh]
  refine ⟨_, hexec.trans (((hframe.tally _ _).tally _ _).answer hrun), ((hframe.tally _ _).tally _ _).eq_of_mesh hmesh, ?_, ?_, ?_,
    fun o ho => ?_⟩
  · rw [State.tally_tile, State.tally_tile, htile]
  · rw [State.reg_tally_other _ _ htail, State.reg_tally_same, hreg]
  · rw [State.reg_tally_same, State.reg_tally_other _ _ (Ne.symm htail), hreg, hocc, Nat.zero_add]
  · simp only [List.mem_cons, List.not_mem_nil, or_false, not_or] at ho
    rw [State.reg_tally_other _ _ ho.2, State.reg_tally_other _ _ ho.1, hreg]

/-! ### Every kind of arrival -/

/-- Settles O30: each kind of arrival has its lemma above; the entries of a drain are read off `ledgerRun`, those of a contribution off
the entry that `ScatEntry.plus` leaves. -/
theorem meshTrafficIsTakenOneByOne : Obligations.MeshTrafficIsTakenOneByOne := by
  unfold Obligations.MeshTrafficIsTakenOneByOne
  refine ⟨markerArrival_live, markerArrival_dead, ?_, ?_, remoteDrainArrival_dead, ?_, scatterContribution_dead, ?_⟩
  · intro n k m s hrun hmarkers hheld hdst
    cases hwait : s.markerHeld m with
    | true => exact ⟨s, markerArrival_waits n k m s hrun hmarkers hheld hwait, fun _ => rfl, by simp⟩
    | false =>
      obtain ⟨t, hexec, hheld', hcount, htaken, hleft⟩ := markerArrival_sent n k m s hrun hmarkers hheld hdst hwait
      exact ⟨t, hexec, by simp, fun _ hk _ => ⟨hheld', hcount hk, htaken, hleft⟩⟩
  · intro n stalls d x s hrun hfind hlive hregion hslot hint hterms htag
    obtain ⟨t, hexec, hframe, hmesh, hstalls, hcount, hawake, hledger, hother⟩ :=
      remoteDrainArrival_live n stalls d x s hrun hfind hlive hregion hslot hint hterms htag
    refine ⟨t, hexec, hframe, hmesh, hstalls, hcount, hawake, fun k hk => ?_, fun k hk => ?_, hother⟩
    · have hinside := tget_ledgerRun_inside (s.tile n).ledger d.tag x.first (d.block * d.values.length) 0 d.values k hk
      rw [Nat.zero_add] at hinside
      rw [hledger, hinside]
      rfl
    · rw [hledger, tget_ledgerRun_outside _ _ _ _ _ _ hk]
  · intro n stalls c e s hrun hfind hlive hentry htag hlimit
    obtain ⟨t, hexec, hframe, hstalls, hregs, hmesh, hscat, howner, hother⟩ :=
      scatterContribution_live n stalls c e s hrun hfind hlive hentry htag hlimit
    have htakes := List.find?_some hentry
    simp only [Bool.and_eq_true, decide_eq_true_eq] at htakes
    refine ⟨t, hexec, hframe, hstalls, hregs, hmesh, ⟨e.plus (s.tile n).scatClock c, ?_, htakes.1, htakes.2, rfl,
      addSums_length _ _, fun k hk => addSums_getD _ _ hk⟩, howner, hother⟩
    rw [hscat]
    exact List.mem_map.2 ⟨e, List.mem_of_find?_eq_some hentry, if_pos (by simp [ScatEntry.takes, htakes])⟩
  · intro n cq k x rest s hrun hcirc hcq hnum hland hrest hocc _
    exact circularRecordLanded_front n cq k x rest s hrun hcirc hcq hnum hland hrest hocc

end Sys2Proof.Machine
end

section
/-! A region change that is not done yet holds the steps of the array back (R416): a running step then neither writes nor ends, wherever its
own region lies. -/

namespace Sys2Proof.Machine

/-! ### Steps that wait for a region change -/

/-- While a region change keeps a tile of the active pass closed, no running step advances. -/
theorem State.advance_arrayClosed (s : State) (n op : Nat) (f : State → RStep → Request → State) (h : s.arrayClosed = true) :
    s.advance n op f = s := by
  simp [State.advance, h]

/-- A tile whose next step has another opcode issues none of this one. -/
theorem State.issuing_otherOpcode (s : State) (n op waits : Nat) (k : State → Nat → Request → Nat → State)
    (h : (s.frontStep n).all (fun x => decide (Step.opcode x.2.2 ≠ op)) = true) : s.issuing n op waits k = s := by
  cases hf : s.frontStep n with
  | none => simp [State.issuing, hf]
  | some x =>
    rw [hf] at h
    obtain ⟨i, q, w⟩ := x
    have hop : Step.opcode w ≠ op := by simpa using h
    simp [State.issuing, hf, hop]

theorem State.issuing_runsOnly (s : State) (n op waits : Nat) (r : RStep) (q : Request) (k : State → Nat → Request → Nat → State)
    (h : s.runsOnly n op r q = true) : s.issuing n op waits k = s := by
  simp only [State.runsOnly, Bool.and_eq_true] at h
  obtain ⟨⟨⟨⟨hfront, -⟩, -⟩, -⟩, -⟩ := h
  exact s.issuing_otherOpcode n op waits k hfront

/-- The one running step of an opcode waits while the array is closed. -/
theorem State.waits_arrayClosed (s : State) (n op waits : Nat) (r : RStep) (q : Request) (k : State → Nat → Request → Nat → State)
    (f : State → RStep → Request → State) (hrun : s.runsOnly n op r q = true) (hclosed : s.arrayClosed = true) :
    (s.issuing n op waits k).advance n op f = s := by
  rw [s.issuing_runsOnly n op waits r q k hrun, s.advance_arrayClosed n op f hclosed]

/-- REQUANT waits. -/
theorem exec_requant_arrayClosed (n waits : Nat) (r : RStep) (q : Request) (s : State) (hlive : s.stopped = false)
    (hrun : s.runsOnly n Op.requant r q = true) (hclosed : s.arrayClosed = true) : exec (.requant n waits) s = .next s := by
  change answer s ((s.issuing n Op.requant waits _).advance n Op.requant _) = _
  rw [s.waits_arrayClosed n Op.requant waits r q _ _ hrun hclosed, answer_next s s hlive rfl rfl rfl rfl]

/-- COMPRESS waits. -/
theorem exec_compress_arrayClosed (n waits : Nat) (r : RStep) (q : Request) (s : State) (hlive : s.stopped = false)
    (hrun : s.runsOnly n Op.compress r q = true) (hclosed : s.arrayClosed = true) : exec (.compress n waits) s = .next s := by
  change answer s ((s.issuing n Op.compress waits _).advance n Op.compress _) = _
  rw [s.waits_arrayClosed n Op.compress waits r q _ _ hrun hclosed, answer_next s s hlive rfl rfl rfl rfl]

/-! ### A device in the middle of a region change -/

/-- The entry that is changing covered the 2 MiB of tile 7's scratchpad: BASE 2^20 + 7, SIZE 1, VALID (R411 Table 3). -/
def changingTile7 : RegionChange := { n := 3, old := BitVec.ofNat 64 (2 ^ 20 + 7 + 2 ^ 27 + 2 ^ 63), new := 0 }

/-- The RUN whose steps the device runs. -/
def waitingRun : Request :=
  { State.reset.newRequest { ring := 3, num := 0, bytes := [], bad := false } [] with phase := .running, gen := 4, tilesLeft := [5] }

/-- A running step of that RUN. -/
def waitingStep (w : BitVec 256) : RStep := { idx := 0, req := 9, word := w, next := 0, aux := 0, finished := false }

/-- The regions of tile 5, all in its bank 1: LINEAR, LINEAR, and EYELET of one column and one channel. -/
def waitingPlan : List (BitVec 128) :=
  [BitVec.ofNat 128 (Kind.linear + 2 ^ 4 * 16 + 2 ^ 13), BitVec.ofNat 128 (Kind.linear + 2 ^ 4 * 17 + 2 ^ 13),
   BitVec.ofNat 128 (Kind.eyelet + 2 ^ 4 * 18 + 2 ^ 13 + 2 ^ 28 + 2 ^ 44)]

/-- Tiles 5 and 7 take part in the active pass, generation 4; tile 5 runs a step, bank 1 of its scratchpad is on, and tile 7's
scratchpad is closed by the change. -/
def waitingState (w : BitVec 256) : State :=
  { State.reset with
    regs := [(Off.genActive, 4), (Off.tile 5 0x900, 2)]
    pins := { State.reset.pins with porstLow := false }
    passes := { State.reset.passes with
      tileMap := [(5, 5), (7, 7)], slots := [(2, { stagingInfo 4 0 0 false with tileUse := [5, 7] })] }
    sec := { State.reset.sec with change := [changingTile7] }
    tiles := [(5, { Tile.empty with plan := waitingPlan, running := [waitingStep w] })]
    reqs := [(9, waitingRun)] }

/-- REQUANT of two words of region 0 of tile 5 into region 1; COMPRESS of one row of region 0 into region 2. -/
def waitingRequant : BitVec 256 := BitVec.ofNat 256 (Op.requant + 2 ^ 32 * 320 + 2 ^ 48 * 321 + 2 ^ 112 * 3 + 2 ^ 128 * 2)
def waitingCompress : BitVec 256 := BitVec.ofNat 256 (Op.compress + 2 ^ 32 * 320 + 2 ^ 48 * 322 + 2 ^ 112 * 3 + 2 ^ 128)

/-- Whatever it runs, a tile of the active pass is closed. -/
theorem waitingState_arrayClosed (w : BitVec 256) : (waitingState w).arrayClosed = true := rfl

theorem waitingRequant_waits : exec (.requant 5 0) (waitingState waitingRequant) = .next (waitingState waitingRequant) :=
  exec_requant_arrayClosed 5 0 (waitingStep waitingRequant) waitingRun _ rfl (by decide +kernel) (waitingState_arrayClosed _)

theorem waitingCompress_waits : exec (.compress 5 0) (waitingState waitingCompress) = .next (waitingState waitingCompress) :=
  exec_compress_arrayClosed 5 0 (waitingStep waitingCompress) waitingRun _ rfl (by decide +kernel) (waitingState_arrayClosed _)

/-- Refutes O31: the statement does not ask that no region change is open. In `waitingState`, REQUANT reads good words and every line
of its destination is admitted, but the change keeps tile 7 of the same pass closed, so that the step waits (R416) and is not finished.
SHANK and REDUCE of the statement wait in the same way (`State.advance_arrayClosed`). -/
theorem not_vectorStepsWriteTheirResultsWhole : ¬ Obligations.VectorStepsWriteTheirResultsWhole := by
  unfold Obligations.VectorStepsWriteTheirResultsWhole
  rintro ⟨-, -, hrequant⟩
  obtain ⟨t, ht, -, -, -, hfinished⟩ := hrequant 5 0 (waitingStep waitingRequant) waitingRun _ (waitingState waitingRequant)
    rfl (by decide +kernel) rfl (by decide +kernel) (by decide +kernel) (by decide +kernel) (by decide +kernel) rfl (by decide +kernel)
  rw [waitingRequant_waits] at ht
  cases ht
  exact absurd hfinished (by decide +kernel)

/-- Refutes O32: the statement does not ask that no region change is open. In `waitingState`, COMPRESS reads codes that fit and every
line of its destination is admitted, but the change keeps tile 7 of the same pass closed, so that the step waits (R416) and is not
finished. COLLECT and SCATTER_MERGE of the statement wait in the same way (`State.advance_arrayClosed`). -/
theorem not_segmentsCollectionsAndMergesAreWritten : ¬ Obligations.SegmentsCollectionsAndMergesAreWritten := by
  unfold Obligations.SegmentsCollectionsAndMergesAreWritten
  rintro ⟨hcompress, -⟩
  obtain ⟨t, ht, -, -, -, -, hfinished⟩ := hcompress 5 0 (waitingStep waitingCompress) waitingRun _ (waitingState waitingCompress)
    rfl (by decide +kernel) (by decide +kernel) (by decide +kernel) (by decide +kernel) rfl (by decide +kernel)
  rw [waitingCompress_waits] at ht
  cases ht
  exact absurd hfinished (by decide +kernel)

end Sys2Proof.Machine
end

section
/-! The end of a scale record reads the stream's context first (R150, R246): where that is poisoned and not in the causeways' cache, the RUN
ends with a fault and nothing of the frame is recorded. -/

namespace Sys2Proof.Machine

/-! ### A context that cannot be read (R246) -/

/-- A poisoned context ends the request, and what was to be done with the stream is not done. -/
theorem State.withContext_poisoned (s t : State) (i st a : Nat) (f : State → State) (h : s.readContext st = (t, some a)) :
    s.withContext i st f = t.failAccess i .faultUncorrected a := by
  simp only [State.withContext, h]

/-- SCALE_RECORD_COMPLETE of a RUN whose REQUANT steps of the LAYER have all completed, once: the frame is recorded behind the read of the
stream's context. -/
theorem exec_scaleRecordComplete_due (i l st : Nat) (q : Request) (s : State) (hreq : s.req? i = some q) (hstream : q.stream = some st)
    (hrunning : q.phase = .running) (hsteps : (s.genProg q.gen).requantCount l ≠ 0)
    (hdone : (s.genProg q.gen).requantCount l ≤ (q.requantsDone l).1) (honce : q.scaleDone.contains l = false) :
    exec (.scaleRecordComplete i l) s = answer s (s.withContext i st (fun s => s.closeRecord i q st l)) := by
  have hdue : ¬ (q.phase ≠ .running ∨ (s.genProg q.gen).requantCount l = 0 ∨
      (q.requantsDone l).1 < (s.genProg q.gen).requantCount l ∨ q.scaleDone.contains l = true) :=
    not_or.2 ⟨fun h => h hrunning, not_or.2 ⟨hsteps, not_or.2 ⟨Nat.not_lt.2 hdone, by rw [honce]; exact Bool.false_ne_true⟩⟩⟩
  change execScaleRecordComplete i l s = _
  simp only [execScaleRecordComplete, hreq, hstream, if_neg hdue]

/-! ### A stream whose context has been poisoned -/

/-- The RUN of stream 77: its one REQUANT step of LAYER 3 has completed in tile 5, with the magnitude 99. -/
def unreadRun : Request := { waitingRun with stream := some 77, rqDone := [(3, 1, 5)], mags := [(3, 99)] }

/-- The image of generation 4 at 0x1000000 (R21, R22): tile 5 in use, and one section, a program of one REQUANT step of LAYER 3. -/
def State.putRequantImage (s : State) : State :=
  (((s.setMemBytes 0x1000018 [1]).setMemBytes 0x10000A0 [0x20]).setMemBytes 0x1001000
    ([4, 0] ++ natLe 2 5 ++ natLe 4 0 ++ natLe 8 0x2000 ++ natLe 8 32)).setMemBytes 0x1002000 (natLe 32 waitingRequant.toNat)

/-- The contexts at 0x4000000, the guard entries at 0x8000000, and stream 77 with the directory of its state area at 0x20000000: LAYER 3,
KIND with the scale record alone, which lies at 0x20000100 (R149, R152). -/
def State.putStream77 (s : State) : State :=
  ((((s.setReg64 (Off.memBase 0) 0x4000000).setReg64 (Off.memBase 2) 0x8000000).setCtx 77 Cx.layers 2 1).setCtx 77 Cx.base 8
    0x20000000).setMemBytes 0x20000000 (natLe 2 3 ++ natLe 1 1 ++ natLe 5 0 ++ natLe 4 0x100)

/-- The device while `unreadRun` runs: the causeways' cache is empty, and the unit of HBM that holds the context of stream 77, at 0x4002680,
is poisoned. -/
def unreadState : State :=
  State.putStream77 (State.putRequantImage { State.reset with
    pins := { State.reset.pins with porstLow := false }
    hbm := { State.reset.hbm with poison := [0x4002680 / 64] }
    passes := { State.reset.passes with
      tileMap := [(5, 5)], slots := [(2, { stagingInfo 4 0x1000000 0x2020 false with tileUse := [5] })] }
    reqs := [(9, unreadRun)] })

theorem unreadState_readContext : (unreadState.readContext 77).2 = some 0x4002680 := by decide +kernel

/-- The program of generation 4 has the one REQUANT step of LAYER 3. -/
theorem unreadState_requantCount : (unreadState.genProg unreadRun.gen).requantCount 3 = 1 := by decide +kernel

theorem unreadState_scaleRec : unreadState.scaleRec 77 3 = some 0x20000100 := by decide +kernel

/-- The command ends the RUN, and HEAD of the scale record stands where it stood. -/
theorem unreadState_keepsHead : ∃ t, exec (.scaleRecordComplete 9 3) unreadState = .next t ∧
    (t.req? 9).map (·.status) = some .faultUncorrected ∧
    t.memNat (0x20000100 + Srec.head) 1 = unreadState.memNat (0x20000100 + Srec.head) 1 := by
  have hexec := exec_scaleRecordComplete_due 9 3 77 unreadRun unreadState rfl rfl rfl
    (by rw [unreadState_requantCount]; decide) (Nat.le_of_eq unreadState_requantCount) rfl
  rw [State.withContext_poisoned _ _ _ _ _ _ (Prod.ext rfl unreadState_readContext), answer_running _ _ rfl] at hexec
  exact ⟨_, hexec, by decide +kernel, by decide +kernel⟩

/-- Refutes O36: its last clause does not ask that the stream's context can be read, as O26 does of STREAM_CLOSE and KEYFRAME. In
`unreadState` every REQUANT of LAYER 3 has completed, but the context of the stream is out of the cache and poisoned, so that
SCALE_RECORD_COMPLETE ends the RUN with FAULT_UNCORRECTED (R246) and HEAD does not advance. -/
theorem not_digestsAndScaleRecordsCompleteInOrder : ¬ Obligations.DigestsAndScaleRecordsCompleteInOrder := by
  unfold Obligations.DigestsAndScaleRecordsCompleteInOrder
  rintro ⟨-, -, hrecord⟩
  obtain ⟨t, hexec, -, -, hhead, -⟩ := hrecord 9 3 77 0x20000100 unreadRun unreadState rfl rfl rfl rfl
    (by rw [unreadState_requantCount]; decide) (Nat.le_of_eq unreadState_requantCount) rfl unreadState_scaleRec (by decide +kernel)
  obtain ⟨u, hu, -, hstill⟩ := unreadState_keepsHead
  rw [hu] at hexec
  cases hexec
  rw [hstill] at hhead
  omega

end Sys2Proof.Machine
end

section
/-! Compute in memory and the toe-heel units while a region change is not done yet (R416): a running CIM step does not walk on, and an idle unit
takes no entry from its queue. -/

namespace Sys2Proof.Machine

/-! ### A running CIM step -/

/-- CIM_DENSE waits. -/
theorem exec_cimDense_arrayClosed (n waits : Nat) (r : RStep) (q : Request) (s : State) (hlive : s.stopped = false)
    (hrun : s.runsOnly n Op.cimDense r q = true) (hclosed : s.arrayClosed = true) : exec (.cimDense n waits) s = .next s := by
  change answer s ((s.issuing n Op.cimDense waits _).advance n Op.cimDense _) = _
  rw [s.waits_arrayClosed n Op.cimDense waits r q _ _ hrun hclosed, answer_next s s hlive rfl rfl rfl rfl]

/-- CIM_DENSE of macro 0 of tile 5: two positions of one vector each, signed 8-bit levels of its region 0, into region 2 of tile 6. -/
def waitingDense : BitVec 256 :=
  BitVec.ofNat 256 (Op.cimDense + 2 ^ 16 * 8 + 2 ^ 21 + 2 ^ 24 * 3 + 2 ^ 26 + 2 ^ 32 * 320 + 2 ^ 48 * (6 * 64 + 2) + 2 ^ 112 * 3 +
    2 ^ 128 * 2 + 2 ^ 160)

/-- Its input: the levels themselves, which all fit. -/
def waitingDenseJob : CimJob :=
  { n := 5, idx := 0, i := 9, q := waitingRun, w := waitingDense.toNat, e := (waitingState waitingDense).entryOf 320
    pat := ((waitingState waitingDense).tile 5).pat, seg := none, twin := none }

theorem waitingDense_runsOnly :
    (waitingState waitingDense).runsOnly 5 Op.cimDense (waitingStep waitingDense) waitingRun = true := by decide +kernel

theorem waitingDense_cimJob :
    ((waitingState waitingDense).cimJob 5 0 9 waitingRun waitingDense.toNat).toOption = some waitingDenseJob := by decide +kernel

/-- Both of its positions are present. -/
theorem waitingDense_posPresent :
    ∀ k, k < Step.count0 waitingDense.toNat → (waitingState waitingDense).posPresent waitingDenseJob k = true := by decide +kernel

theorem waitingDense_waits : exec (.cimDense 5 0) (waitingState waitingDense) = .next (waitingState waitingDense) :=
  exec_cimDense_arrayClosed 5 0 (waitingStep waitingDense) waitingRun _ rfl waitingDense_runsOnly (waitingState_arrayClosed _)

/-- Refutes O33: its second clause does not ask that no region change is open. In `waitingState`, CIM_DENSE runs with a good source and both
its positions are present, but the change keeps tile 7 of the same pass closed, so that the step waits (R416) at its first position and
does not walk on to its last. CIM_MATCH and CIM_SCATTER wait in the same way (`State.advance_arrayClosed`). -/
theorem not_cimStepsIssueHoldTheirMacrosAndWalk : ¬ Obligations.CimStepsIssueHoldTheirMacrosAndWalk := by
  unfold Obligations.CimStepsIssueHoldTheirMacrosAndWalk
  rintro ⟨-, hwalk⟩
  obtain ⟨t, ht, -, -, b, hrunning⟩ := hwalk 5 0 Op.cimDense (.cimDense 5 0) (waitingStep waitingDense) waitingRun waitingDenseJob
    (waitingState waitingDense) (List.mem_cons_self ..) rfl waitingDense_runsOnly (by decide +kernel) waitingDense_cimJob (by decide +kernel)
    (by decide +kernel) waitingDense_posPresent
  rw [waitingDense_waits] at ht
  cases ht
  have hnext : 0 = Step.count0 waitingDense.toNat := congrArg RStep.next (List.head_eq_of_cons_eq hrunning)
  exact absurd hnext (by decide +kernel)

/-! ### An idle toe-heel unit -/

/-- An idle unit takes no entry. -/
theorem exec_toeheelEntryStart_arrayClosed (u : Nat) (e : ThEntry) (rest : List ThEntry) (s : State) (hlive : s.stopped = false)
    (hidle : (s.thUnit u).running = none) (hqueue : (s.thUnit u).queue = e :: rest) (husable : s.errs.thRetired.contains u = false)
    (hclosed : s.arrayClosed = true) : exec (.toeheelEntryStart u) s = .next s := by
  have hexec : exec (.toeheelEntryStart u) s = answer s s := by
    change execToeheelEntryStart u s = _
    simp only [execToeheelEntryStart, husable, hidle, hqueue, hclosed, Bool.false_eq_true, if_false, true_or, or_true, if_true]
  rw [hexec, answer_next s s hlive rfl rfl rfl rfl]

/-- TOEHEEL of tile 5 on unit 6: ELEMENT (0x19, R203) of one vector of region 0 into region 1, with the parameter block at 4096. -/
def waitingKernel : BitVec 256 :=
  BitVec.ofNat 256 (Op.toeheel + 2 ^ 32 * 320 + 2 ^ 48 * 321 + 2 ^ 112 * 3 + 2 ^ 128 + 2 ^ 224 * (0x19 + 2 ^ 8 * 6 + 2 ^ 14))

/-- Its entry in the unit's queue. -/
def waitingEntry : ThEntry := { tile := 5, idx := 0, req := 9, word := waitingKernel }

/-- The device of `waitingState` with that entry queued at unit 6, which is idle; the block's DIM0 is 4. -/
def queuedState : State :=
  ((waitingState waitingKernel).setTh 6 { ThUnit.empty with queue := [waitingEntry] }).setMemBytes (4096 + 4) [4]

/-- What the kernel would write. -/
def queuedOut : List Byte :=
  ((queuedState.kernelOut waitingRun waitingKernel.toNat).2.flatMap
    (elemBytes (queuedState.kernelOut waitingRun waitingKernel.toNat).1)).take (Rg.bytes (queuedState.entryOf (Step.dst waitingKernel.toNat)))

theorem queuedState_waits : exec (.toeheelEntryStart 6) queuedState = .next queuedState :=
  exec_toeheelEntryStart_arrayClosed 6 waitingEntry [] queuedState rfl rfl rfl rfl rfl

/-- Refutes O35: its second clause does not ask that no region change is open. In `queuedState`, unit 6 is idle with an entry whose four
elements can be read and written, but the change keeps tile 7 of the pass closed, so that the unit leaves the entry in its queue (R416). -/
theorem not_toeHeelUnitsAndMembersTakeTheirWorkInOrder : ¬ Obligations.ToeHeelUnitsAndMembersTakeTheirWorkInOrder := by
  unfold Obligations.ToeHeelUnitsAndMembersTakeTheirWorkInOrder
  rintro ⟨-, hstart, -⟩
  obtain ⟨t, ht, -, hunit, -⟩ := hstart 6 waitingEntry [] waitingRun queuedOut queuedState rfl rfl rfl rfl rfl rfl rfl
    (by decide +kernel) (by decide +kernel) (by decide +kernel) (by decide +kernel) (by decide +kernel) (by decide +kernel) rfl
    (by decide +kernel)
  rw [queuedState_waits] at ht
  cases ht
  have hrunning : none = some waitingEntry := congrArg ThUnit.running hunit
  cases hrunning

end Sys2Proof.Machine
end

section
/-! KEYFRAME of a stream whose context is read from device memory and is poisoned (R174, R246): how the request ends, and who counts the
error. A causeway counts errors of HBM alone: a context at an address that belongs to nothing ends the request and is counted nowhere. -/

namespace Sys2Proof.Machine

/-- The registers after a command of a device that is not stopped are those its effect leaves. -/
theorem reg_of_answer {s t u : State} (hlive : s.stopped = false) (h : answer s t = .next u) (off : Nat) : u.reg off = t.reg off := by
  rw [answer_running s t hlive] at h
  cases h
  rfl

/-! ### A context read from memory (R150, R246) -/

/-- Where no unit has changed, a read finds every unit as it stands. -/
theorem State.meet_noFlips (s : State) (a n : Nat) (h : s.hbm.flips = []) : s.meet a n = s := by
  simp [State.meet, h]

/-- A poisoned context that the cache does not hold: its first poisoned unit is counted and named. -/
theorem State.readContext_poisoned (s : State) (st a : Nat) (hflips : s.hbm.flips = []) (hcache : s.hbm.ctxCache.contains st = false)
    (hpoison : s.poisonIn (s.ctxAddr st) 128 = some a) : s.readContext st = (s.countUncorrected a, some a) := by
  simp only [State.readContext, hcache, Bool.false_eq_true, if_false, State.ownReads, List.foldl_cons, List.foldl_nil,
    s.meet_noFlips _ _ hflips, List.findSome?_cons, hpoison]

/-- No causeway and no tile counts an error at an address that belongs to nothing (R11 Table 5). -/
theorem State.countUncorrected_nowhere (s : State) (a : Nat) (h : placeOf a = .nowhere) : s.countUncorrected a = s := by
  simp only [State.countUncorrected, h]

/-! ### KEYFRAME (R174) -/

/-- KEYFRAME of an open stream of the request's world reads the stream's context first. -/
theorem exec_keyframe_open (i : Nat) (q : Request) (s : State) (hreq : s.req? i = some q) (hop : q.opcode = Dop.keyframe)
    (hwork : (s.mayStart q || s.goesOn q) = true) (hopen : s.streamState q.streamNo = 1) (hworld : s.streamSecure q.streamNo = q.secure) :
    exec (.keyframe i) s = answer s (s.withContext i q.streamNo (fun s =>
      (s.demandKey q.streamNo).finishOk i (s.ctx q.streamNo Cx.frame 8 % 2 ^ 32))) := by
  have hown : s.streamOther q.streamNo q.secure = false := by simp [State.streamOther, hworld]
  change execKeyframe i s = _
  simp only [execKeyframe, State.working, hreq, hop, hwork, and_self, if_true, hown, hopen, ne_eq, not_true_eq_false, Bool.false_eq_true,
    if_false]

/-- Where that context is poisoned, the request fails at its first poisoned unit, once the unit has been counted. -/
theorem exec_keyframe_poisoned (i a : Nat) (q : Request) (s : State) (hreq : s.req? i = some q) (hop : q.opcode = Dop.keyframe)
    (hwork : (s.mayStart q || s.goesOn q) = true) (hopen : s.streamState q.streamNo = 1) (hworld : s.streamSecure q.streamNo = q.secure)
    (hflips : s.hbm.flips = []) (hcache : s.hbm.ctxCache.contains q.streamNo = false)
    (hpoison : s.poisonIn (s.ctxAddr q.streamNo) 128 = some a) :
    exec (.keyframe i) s = answer s ((s.countUncorrected a).failAccess i .faultUncorrected a) := by
  rw [exec_keyframe_open i q s hreq hop hwork hopen hworld,
    State.withContext_poisoned _ _ _ _ _ _ (s.readContext_poisoned q.streamNo a hflips hcache hpoison)]

/-! ### A context table past the end of HBM -/

/-- A running KEYFRAME of stream 77. -/
def farKeyframe : Request := { waitingRun with desc := natLe 8 Dop.keyframe ++ natLe 56 77 }

/-- Area 0 is placed at 0x00C000000000, the first address past HBM (R11 Table 5, R242). Stream 77 is open, and its context, at
0x00C000002680, is poisoned and in no causeway's cache. -/
def farState : State :=
  (({ State.reset with
    pins := { State.reset.pins with porstLow := false }
    hbm := { State.reset.hbm with poison := [0xC000002680 / 64] }
    reqs := [(9, farKeyframe)] }).setReg64 (Off.memBase 0) 0xC000000000).setCtx 77 0 4 1

theorem farKeyframe_opcode : farKeyframe.opcode = Dop.keyframe := by decide +kernel
theorem farKeyframe_goesOn : (farState.mayStart farKeyframe || farState.goesOn farKeyframe) = true := by decide +kernel
theorem farState_open : farState.streamState farKeyframe.streamNo = 1 := by decide +kernel
theorem farState_world : farState.streamSecure farKeyframe.streamNo = farKeyframe.secure := by decide +kernel
theorem farState_poisonIn : farState.poisonIn (farState.ctxAddr farKeyframe.streamNo) 128 = some 0xC000002680 := by decide +kernel

theorem farState_readContext : (farState.readContext farKeyframe.streamNo).2 = some 0xC000002680 := by
  rw [farState.readContext_poisoned _ _ rfl rfl farState_poisonIn]

/-- The request fails, and nothing counts the error. -/
theorem farKeyframe_fails : exec (.keyframe 9) farState = answer farState (farState.failAccess 9 .faultUncorrected 0xC000002680) := by
  rw [exec_keyframe_poisoned 9 0xC000002680 farKeyframe farState rfl farKeyframe_opcode farKeyframe_goesOn farState_open farState_world rfl rfl
    farState_poisonIn, farState.countUncorrected_nowhere _ (by decide)]

/-- MEM_UNCORR of the causeway stands as it stood. -/
theorem farKeyframe_notCounted : (farState.failAccess 9 .faultUncorrected 0xC000002680).reg (Off.cway (farState.causewayOf 0xC000002680) 4) =
    farState.reg (Off.cway (farState.causewayOf 0xC000002680) 4) := by decide +kernel

/-- Refutes O26: its last clause does not ask that the context lies in HBM, where R242 places area 0. In `farState` area 0
begins past the end of HBM. KEYFRAME of the open stream meets its poisoned context and ends with FAULT_UNCORRECTED, but its address belongs to
no causeway, and the MEM_UNCORR that the clause names does not move. -/
theorem not_streamsOpenCloseAndTakeKeyframes : ¬ Obligations.StreamsOpenCloseAndTakeKeyframes := by
  unfold Obligations.StreamsOpenCloseAndTakeKeyframes
  rintro ⟨-, -, -, hpoisoned⟩
  obtain ⟨t, ht, -, -, hcount⟩ := hpoisoned 9 0xC000002680 farKeyframe farState rfl rfl farKeyframe_opcode farKeyframe_goesOn farState_open
    farState_world farState_readContext
  rw [farKeyframe_fails] at ht
  have hcounted := hcount rfl
  rw [reg_of_answer rfl ht, farKeyframe_notCounted] at hcounted
  have hlt := farState.reg_lt (Off.cway (farState.causewayOf 0xC000002680) 4)
  omega

end Sys2Proof.Machine
end
